-- ==== Sys2Proof/Word.lean ====
section
/-!
DEFINITION. The word types of the machine (`10_state` R30, `20_memory` R201): a word is 32 bits, a
halfword 16 bits, a byte 8 bits; a physical address is 36 bits (`20_memory` R202).
-/
namespace Sys2Proof

/-- A 32-bit register or memory word. -/
abbrev Word := BitVec 32

/-- A 16-bit halfword. -/
abbrev Half := BitVec 16

/-- A byte, the smallest addressable unit. -/
abbrev Byte := BitVec 8

/-- A register number field of an ARM instruction. -/
abbrev Reg := BitVec 4

end Sys2Proof
end

