-- ==== Sys2Proof/Config.lean ====
section
/-!
DEFINITION. What an implementation fixes and the spec leaves open. Every constant of this file is
opaque: no proof can see its value, so a claim holds whatever it is (notes/assumptions 8, 10).
-/
namespace Sys2Proof

/-- The free values: what a draw of width `w` number `n` gives (`92_eei_decisions` D13: UNKNOWN). The
counter `n` is the field `free` of the state, so every draw of a run is a fresh one. DESIGN CHOICE. -/
opaque Config.freeBits (w : Nat) : Nat → BitVec w

/-- `MAINID_REV` (`10_state` R71). -/
opaque Config.mainIdRev : BitVec 3

/-- `MAINID_PRODNUM` (`10_state` R71). -/
opaque Config.mainIdProdNum : BitVec 6

/-- `MAINID_PRODREV` (`10_state` R71). -/
opaque Config.mainIdProdRev : BitVec 4

/-- `JTAG_VERSION` (`61_debug_pmu_power` R1058). -/
opaque Config.jtagVersion : BitVec 4

/-- `JTAG_MODEL` (`61_debug_pmu_power` R1058). -/
opaque Config.jtagModel : BitVec 5

/-- `STORE_PC_OFFSET` is 12 when this is true and 8 when it is false (`10_state` R36). -/
opaque Config.storePcTwelve : Bool

/-- `MOE_RESET_TRAP` is 0b101 when this is true and 0b000 when it is false
(`61_debug_pmu_power` R1026). -/
opaque Config.moeResetTrapped : Bool

/-- The pc of the reset vector trap's entry is 0xFFFF7000 (`70_reset_and_hazards` R1105) when this is true and 0, that of
every other Halt Mode entry (`61_debug_pmu_power` R1025), when it is false: the two rules differ and no ruling of the spec
decides between them. DESIGN CHOICE, notes/assumptions 47. -/
opaque Config.resetTrapHigh : Bool

/-- While Chip Reset is asserted SELDCSR writes the Halt Mode and Trap Reset bits of DCSR; the ASSP decides
(`61_debug_pmu_power` R1079, step 3). -/
opaque Config.haltBitsInReset : Bool

/-- The sizes of the L2 cache (`00_scope` R12, `L2_SIZE`). -/
inductive L2Size where
  | absent
  | kb256
  | kb512
deriving DecidableEq, Repr

/-- The platform parameters that other agents and tests may set (`00_scope` R12). -/
structure Platform where
  /-- `L2_SIZE` -/
  l2Size : L2Size
  /-- `ENDIAN_MODES` contains little -/
  little : Bool
  /-- `ENDIAN_MODES` contains big -/
  big : Bool
  /-- `COHERENT` -/
  coherent : Bool
  /-- `PWRMODE_MODES`, the non-zero values the ASSP defines -/
  pwrModes : List (BitVec 4)
  /-- the 32-byte blocks (physical address divided by 32) on which the bus answers with an error, the part
  of `MEMORY_MAP` where the platform has nothing (`20_memory` R270), each with the bits of ERRLOG that the
  bus signals: DA 0x20, EAE 0x10, IAE 0x08, several when they occur together (`10_state` R140) -/
  busErrors : List (Nat × BitVec 8)
deriving DecidableEq, Repr

end Sys2Proof
end

