-- ==== Sys2Proof/Machine/State.lean ====
section
/-!
DEFINITION. The state of the machine: every piece the spec names (`10_state`, R150 for the hidden
state), as plain data, and its value after reset. The model's own fields are `free`, `schedule`, `note`
and `cfg`. Sparse tables (caches, trace buffer, Debug SRAM, memory) are lists of (index, value) pairs
with rising indices.
-/
namespace Sys2Proof.Machine

/-- Why the machine stops with a fault. -/
inductive Fault where
  /-- sequential execution past 0xFFFFFFFF (`10_state` R38); safe: the spec refuses the step -/
  | pcPastTop
  /-- a fetch past the end of the Debug SRAM in Halt Mode Special Debug State (`61_debug_pmu_power` R1075);
  safe: the spec calls it unpredictable -/
  | debugSramOverrun
  /-- a Thumb fetch from the Debug SRAM (`61_debug_pmu_power` R1075: not stated); safe -/
  | debugSramThumb
  /-- the execution of an instruction whose fetch aborted in Special Debug State
  (`61_debug_pmu_power` R1030 a); safe: the spec calls it unpredictable -/
  | prefetchAbortInSds
deriving DecidableEq, Repr

/-- Why an instruction is refused: each names a case the spec calls UNPREDICTABLE and gives no effect.
All are safe: the model stops where the hardware does something not described. -/
inductive Refusal where
  /-- raised by no meaning: an instruction not modelled -/
  | notModelled (mnemonic : String)
  /-- should-be-zero or should-be-one bits of the encoding differ (`30_encoding` R455, R462) -/
  | shouldBeBits
  /-- register 15 where the instruction forbids it -/
  | pcOperand
  /-- two register operands that must differ are the same, or one lies where it must not -/
  | registerOverlap
  /-- an empty register list (`45_arm_loadstore` R605, `41_dsp_thumb` R724, R725, R727) -/
  | emptyRegisterList
  /-- the write-back form is unpredictable -/
  | writeback
  /-- a value written to the pc has low bits that select no state (`10_state` R37) -/
  | pcAlignment
  /-- a misaligned access that the spec calls unpredictable (`20_memory` R222 c, e) -/
  | misaligned
  /-- a mode number that is no mode, or DEBUG mode, or a T bit, written to the CPSR (`10_state` R42) -/
  | illegalMode
  /-- the SPSR in User or System mode (`10_state` R41) -/
  | noSpsr
  /-- a condition on an instruction that must be unconditional (`60_exceptions` R892) -/
  | conditionalBkpt
  /-- an accumulator other than acc0 (`30_encoding` R459) -/
  | accumulator
  /-- a coprocessor register or function that does not exist or does not allow the access
  (`10_state` R104, `44_cp14_cp7` R853) -/
  | coprocessorRegister
  /-- the addressing form P = U = W = 0 or N = 1 of a coprocessor load or store -/
  | coprocessorForm
  /-- a reserved or forbidden value of a control register -/
  | controlValue
  /-- a 1 written to a reserved bit of a coprocessor register (`00_scope` R17) -/
  | reservedBits
  /-- an instruction at an address for which the branch target buffer holds a branch that is no longer there: modified code
  (`22_caches` R375) -/
  | staleBranchTarget
  /-- a cache, TLB or lock function outside its preconditions -/
  | maintenance
  /-- a reserved descriptor bit, a reserved attribute or a reserved domain setting (`21_mmu`) -/
  | descriptor
  /-- an instruction fetch from non-shared Device memory (`20_memory` R235) -/
  | deviceFetch
  /-- an exception that Special Debug State leaves unpredictable (`61_debug_pmu_power` R1030) -/
  | specialDebugState
  /-- a value that the ASSP does not define (`61_debug_pmu_power` R1090) -/
  | powerMode
  /-- a debugger action the spec calls unpredictable (`61_debug_pmu_power` R1057, R1076 to R1078) -/
  | debuggerAction
deriving DecidableEq, Repr

/-- The banks of R13, R14 and the SPSR (`10_state` R32). -/
inductive Bank where
  | usr | fiq | irq | svc | abt | und | dbg
deriving DecidableEq, Repr

/-- CP15 (`10_state` R71 to R104). Reserved bits are not held. -/
structure Cp15 where
  ctrl    : Word
  auxctrl : Word
  ttbase  : Word
  dacr    : Word
  fsr     : Word
  far     : Word
  dclock  : Bool
  pid     : BitVec 7
  ibr0    : Word
  ibr1    : Word
  dbr0    : Word
  dbr1    : Word
  dbcon   : Word
  cpar    : BitVec 14
  /-- the L2 has been enabled since reset (`10_state` R76 a) -/
  l2Ever  : Bool
deriving DecidableEq, Repr

/-- The performance monitoring unit (`10_state` R111 to R116, `61_debug_pmu_power` R1001). -/
structure Pmu where
  e      : Bool
  d      : Bool
  m      : Bool
  ccnt   : Word
  presc  : BitVec 6
  inten  : BitVec 5
  flag   : BitVec 5
  evtsel : Word
  pmn    : Vector Word 4
deriving DecidableEq, Repr

/-- The debug unit (`10_state` R130 to R137, R150; `61_debug_pmu_power` R1053 to R1078). -/
structure Debug where
  /-- DCSR without bit B, which follows the pin -/
  dcsr      : Word
  sds       : Bool
  jtagBreak : Bool
  holdReset : Bool
  /-- a trace-buffer-full break waits to be taken (`61_debug_pmu_power` R1032) -/
  pendFull  : Bool
  /-- a data breakpoint matched in the instruction just executed (`61_debug_pmu_power` R1045) -/
  hit       : Bool
  /-- the trace buffer: entries not listed hold 0 -/
  tb        : List (Nat × BitVec 8)
  tbPtr     : BitVec 8
  tbCnt     : BitVec 4
  /-- entries written since the buffer was enabled -/
  tbFill    : Nat
  /-- positions of the checkpointed headers in the ring, newest first -/
  tbMarks   : List (BitVec 8)
  chkpt0    : Word
  chkpt1    : Word
  tx        : Word
  rx        : Word
  rr        : Bool
  ov        : Bool
  d         : Bool
  tr        : Bool
  /-- the Debug SRAM: words not listed hold 0 -/
  sram      : List (Nat × Word)
  /-- the JTAG instruction register -/
  jtagIr    : BitVec 7
  /-- DBG_SR as the last scan brought it out -/
  dbgSr     : BitVec 36
  /-- a Download Request waits for its Download Complete (`61_debug_pmu_power` R1078) -/
  ldReq     : Bool
  /-- the Microarchitecture Ready flag -/
  ready     : Bool
  /-- LDSRAM_SR1 as the last scan brought it out; bit 0 is the Ready flag (R1076) -/
  ldSr1     : BitVec 33
  /-- LDSRAM_REG: the last packet scanned in -/
  ldReg     : BitVec 33
  /-- LDSRAM_SR2: the packet as the microarchitecture has it -/
  ldSr2     : BitVec 33
  /-- the data packets that the Load Debug SRAM function still awaits (R1077) -/
  ldLeft    : BitVec 4
  /-- the word of the Debug SRAM that the next data packet fills -/
  ldAddr    : BitVec 9
deriving DecidableEq, Repr

/-- CP7 and the request it raises (`10_state` R140 to R142, R150). -/
structure ErrorLog where
  errlog  : BitVec 8
  erradrl : Word
  erradru : BitVec 4
  /-- the L2 single-bit-error interrupt request -/
  sbeIrq  : Bool
deriving DecidableEq, Repr

/-- Power and clock (`10_state` R120, R121). -/
structure Power where
  mode    : BitVec 4
  cclkcfg : BitVec 4
deriving DecidableEq, Repr

/-- The mapping sizes (`21_mmu` R331). -/
inductive PageSize where
  | kb1 | kb4 | kb64 | mb1 | mb16
deriving DecidableEq, Repr

/-- A TLB entry (`21_mmu` R331). -/
structure TlbEntry where
  locked : Bool
  /-- an MVA of the mapping; only the bits above the size count -/
  mva    : Word
  size   : PageSize
  /-- physical base; the bits below the size are 0 -/
  base   : BitVec 36
  domain : BitVec 4
  /-- the four AP fields; equal where the mapping has one -/
  ap     : BitVec 8
  tex    : BitVec 3
  c      : Bool
  b      : Bool
  s      : Bool
  p      : Bool
  /-- the mapping came from a first-level descriptor -/
  section_ : Bool
deriving DecidableEq, Repr

/-- A TLB (`21_mmu` R330 to R333). -/
structure Tlb where
  entries : Vector (Option TlbEntry) 32
  /-- the round-robin pointer -/
  rr      : BitVec 5
  /-- the lock pointer -/
  lockp   : BitVec 5
deriving DecidableEq, Repr

/-- The replacement state of a set of an L1 cache (`22_caches` R364, R387): the three pseudo-LRU bits,
and the ways from the least to the most recently used one. -/
structure Repl where
  plru  : BitVec 3
  order : List (BitVec 2)
deriving DecidableEq, Repr

/-- A valid line of the instruction cache (`22_caches` R360). -/
structure ILine where
  tag    : BitVec 19
  locked : Bool
  /-- the words with a parity error -/
  bad    : BitVec 8
  data   : BitVec 256
deriving DecidableEq, Repr

/-- An instruction fetch buffer (`22_caches` R363): the MVA line number and its 32 bytes. -/
structure FetchBuffer where
  line : BitVec 27
  data : BitVec 256
deriving DecidableEq, Repr

/-- The instruction cache and the fetch buffers; the index of a line is set * 4 + way. -/
structure ICache where
  lines   : List (Nat × ILine)
  repl    : List (Nat × Repl)
  buffers : List FetchBuffer
deriving DecidableEq, Repr

/-- A valid entry of the branch target buffer (`22_caches` R372), and the model's own record of the branch it was made
for, by which modified code is known (R375; notes/assumptions 19). -/
structure BtbEntry where
  tag     : BitVec 24
  target  : BitVec 31
  history : BitVec 2
  /-- the word of code that the branch was fetched from -/
  word    : Word
  /-- the bits of that word which the branch takes up: all of them, or a Thumb halfword's -/
  bits    : Word
deriving DecidableEq, Repr

/-- A valid line of the data cache (`22_caches` R380), with the physical line and the attributes its
write-back needs. -/
structure DLine where
  tag    : BitVec 19
  dirty  : Bool
  locked : Bool
  /-- the bytes with a parity error -/
  bad    : BitVec 32
  /-- the bytes whose value is unpredictable until they are written (R383, R396) -/
  unk    : BitVec 32
  pa     : BitVec 31
  l2     : Bool
  shared : Bool
  data   : BitVec 256
deriving DecidableEq, Repr

/-- The data cache; the index of a line is set * 4 + way. -/
structure DCache where
  lines : List (Nat × DLine)
  repl  : List (Nat × Repl)
deriving DecidableEq, Repr

/-- A memory buffer entry that holds a store or an eviction (`22_caches` R390). -/
structure BufEntry where
  /-- physical line number -/
  line   : BitVec 31
  /-- the bytes written -/
  mask   : BitVec 32
  /-- the bytes of the block whose value is unpredictable once it is written -/
  unk    : BitVec 32
  data   : BitVec 256
  /-- later stores to the line may join it -/
  coal   : Bool
  /-- uncacheable at every level: issued to the bus in program order (R420) -/
  unc    : Bool
  l2     : Bool
  shared : Bool
  /-- an instruction cache invalidation came after it: a fetch of the block lets it leave first (`20_memory` R257;
  notes/assumptions 18) -/
  forFetch : Bool := false
deriving DecidableEq, Repr

/-- A whole block on its way to memory. -/
structure OutEntry where
  line : BitVec 31
  /-- the bytes whose value is unpredictable -/
  unk  : BitVec 32
  data : BitVec 256
  /-- as that of `BufEntry` -/
  forFetch : Bool := false
deriving DecidableEq, Repr

/-- The valid states of an L2 line (`22_caches` R400); a line not listed is Invalid. -/
inductive Moesi where
  | modified | owned | exclusive | shared
deriving DecidableEq, Repr

/-- The errors an L2 line may carry, several at once (`22_caches` R410). -/
structure L2Error where
  single : Bool
  double : Bool
  tag    : Bool
  state  : Bool
deriving DecidableEq, Repr

/-- No error. -/
def L2Error.none : L2Error := { single := false, double := false, tag := false, state := false }

/-- A valid line of the L2 cache. -/
structure L2Line where
  pa     : BitVec 31
  st     : Moesi
  locked : Bool
  err    : L2Error
  /-- the bytes whose value is unpredictable until they are written (R414) -/
  unk    : BitVec 32
  data   : BitVec 256
deriving DecidableEq, Repr

/-- The L2 cache; the index of a line is set * 8 + way. -/
structure L2Cache where
  lines : List (Nat × L2Line)
  used  : List (Nat × BitVec 8)
deriving DecidableEq, Repr

/-- The pending imprecise data abort (`60_exceptions` R905). -/
inductive ImpreciseAbort where
  | external | parity
deriving DecidableEq, Repr

/-- The input pins. -/
structure Pins where
  irq      : Bool
  fiq      : Bool
  soc      : Bool
  resetPin : Bool
deriving DecidableEq, Repr

/-- What instructions were fetched under before a CP15 operation that fetches depend on
(`70_reset_and_hazards` R1131 a). -/
structure FetchView where
  cp15   : Cp15
  itlb   : Tlb
  icache : ICache
deriving DecidableEq, Repr

/-- How the instruction of the present step changed control flow, for the trace buffer and the
performance counters (`61_debug_pmu_power` R1004, R1060). -/
inductive Flow where
  /-- the next instruction in sequence -/
  | sequential
  /-- a direct branch taken: B, BL -/
  | direct
  /-- an indirect branch taken -/
  | indirect
  /-- an exception entry or reset: its trace message, if it has one, is written by the entry -/
  | exception
  /-- no instruction executed: an imprecise abort reported in Special Debug State (R1006) -/
  | idle
deriving DecidableEq, Repr

/-- What the present step did. -/
structure Note where
  flow     : Flow
  /-- the condition of the instruction failed -/
  failed   : Bool
  /-- it was a B or BL -/
  isB      : Bool
  /-- it was a branch of any kind -/
  isBranch : Bool
  /-- it is of the kinds event 0x0D counts and wrote the pc -/
  wrotePc  : Bool
  /-- exceptions entered -/
  entries  : Nat
  /-- data accesses -/
  accesses : Nat
  /-- it was the first half of a Thumb BL or BLX pair (`61_debug_pmu_power` R1061) -/
  half     : Bool
deriving DecidableEq, Repr

/-- A move of an agent (notes/assumptions 11). -/
inductive Move where
  /-- the core steps -/
  | core
  /-- the core steps and its asynchronous events are not taken yet (`60_exceptions` R886) -/
  | hold
  /-- the buffered entry number `k` leaves (`22_caches` R390) -/
  | drain (k : Nat)
  /-- the write-back number `k` of the L2 set/way functions reaches memory (`20_memory` R255) -/
  | drainL2 (k : Nat)
  /-- an instruction is fetched that is not executed next: ahead of execution, or on a mispredicted path
  (`70_reset_and_hazards` R1133) -/
  | fetchAhead (va : Word)
  | irq (level : Bool)
  | fiq (level : Bool)
  | soc (level : Bool)
  | resetPin (level : Bool)
  /-- the debugger scans SELDCSR (`61_debug_pmu_power` R1054) -/
  | selDcsr (sr : BitVec 36)
  /-- the debugger scans DBGTX (R1056) -/
  | dbgTx
  /-- the debugger scans DBGRX (R1057) -/
  | dbgRx (data : Word) (rxValid flushRr hsDownload : Bool)
  /-- the debugger scans one packet into LDSRAM (R1076 to R1078) -/
  | ldSram (packet : BitVec 33)
  /-- the debugger reads the identification register (R1058) -/
  | idcode
  /-- TRST or Test-Logic-Reset (R1053) -/
  | jtagReset
  /-- another bus agent reads a block (`22_caches` R404) -/
  | busRead (line : BitVec 31) (shared : Bool)
  /-- another bus agent writes bytes of a block -/
  | busWrite (line : BitVec 31) (mask : BitVec 32) (data : BitVec 256) (shared : Bool)
  /-- another bus agent pushes a block into this L2 -/
  | push (line : BitVec 31) (data : BitVec 256)
  /-- another bus agent pushes a block into another agent's L2 -/
  | pushOther (line : BitVec 31) (data : BitVec 256)
  /-- the asynchronous system bus error pin (`60_exceptions` R921) -/
  | asyncError
  /-- parity errors arise in words of line `k` of the instruction cache -/
  | injectI (k : Nat) (words : BitVec 8)
  /-- parity errors arise in bytes of line `k` of the data cache -/
  | injectD (k : Nat) (bytes : BitVec 32)
  /-- errors arise in line `k` of the L2 cache -/
  | injectL2 (k : Nat) (e : L2Error)
deriving DecidableEq, Repr

/-- The state of the machine. -/
structure State where
  /-- R0 to R7, then R8 to R12 of User mode, R8 to R12 of FIQ mode, then R13 and R14 of User, FIQ, IRQ,
  Supervisor, Abort, Undefined and DEBUG mode (`10_state` R31) -/
  regs     : Vector Word 32
  /-- the SPSRs of FIQ, IRQ, Supervisor, Abort, Undefined and DEBUG mode -/
  spsrs    : Vector Word 6
  cpsr     : Word
  /-- the virtual address of the instruction being executed (`10_state` R35) -/
  pc       : Word
  acc0     : BitVec 40
  cp15     : Cp15
  pmu      : Pmu
  dbg      : Debug
  err      : ErrorLog
  pwr      : Power
  itlb     : Tlb
  dtlb     : Tlb
  icache   : ICache
  btb      : List (Nat × BtbEntry)
  dcache   : DCache
  /-- the memory buffers, oldest entry first -/
  buffers  : List BufEntry
  l2       : L2Cache
  /-- write-backs of the L2 set/way functions that are not in memory yet, oldest first
  (`20_memory` R255) -/
  l2Out    : List OutEntry
  /-- what instructions that are already fetched may have been fetched under, oldest first
  (`70_reset_and_hazards` R1131 a) -/
  stale    : List FetchView
  /-- a data access of less than a word has been made since reset (`10_state` R76 b) -/
  subWord  : Bool
  /-- physical memory: 36-bit addresses, a byte not listed reads as 0 (notes/assumptions 7) -/
  mem      : List Host.Cell
  pins     : Pins
  pendingAbort : Option ImpreciseAbort
  note     : Note
  /-- the number of free values drawn so far (the model's own) -/
  free     : Nat
  /-- the moves still to come (the model's own); empty: the core steps -/
  schedule : List Move
  /-- the platform (the model's own) -/
  cfg      : Platform
deriving DecidableEq, Repr

/-- The note of a step that has not done anything yet. -/
def Note.empty : Note :=
  { flow := .sequential, failed := false, isB := false, isBranch := false, wrotePc := false,
    entries := 0, accesses := 0, half := false }

/-- A TLB after reset (`21_mmu` R337). -/
def Tlb.reset : Tlb := { entries := Vector.replicate 32 none, rr := 31, lockp := 0 }

/-- The machine right after reset, at power-up (`10_state` R160, `70_reset_and_hazards` R1101). Values the
spec does not give are named in notes/assumptions 1 to 9; the levels of the input pins, which are external (`10_state` R150),
in 65: DESIGN CHOICE. -/
def State.reset : State where
  regs := Vector.replicate 32 0
  spsrs := Vector.replicate 6 0
  cpsr := 0x000000D3
  pc := 0
  acc0 := 0
  cp15 :=
    { ctrl := 0x00000078, auxctrl := 0, ttbase := 0, dacr := 0, fsr := 0, far := 0, dclock := false,
      pid := 0, ibr0 := 0, ibr1 := 0, dbr0 := 0, dbr1 := 0, dbcon := 0, cpar := 0, l2Ever := false }
  pmu :=
    { e := false, d := false, m := false, ccnt := 0, presc := 0, inten := 0, flag := 0, evtsel := 0,
      pmn := Vector.replicate 4 0 }
  dbg :=
    { dcsr := 0, sds := false, jtagBreak := false, holdReset := false, pendFull := false, hit := false,
      tb := [], tbPtr := 0, tbCnt := 0, tbFill := 0, tbMarks := [], chkpt0 := 0, chkpt1 := 0,
      tx := 0, rx := 0, rr := false, ov := false, d := false, tr := false, sram := [],
      jtagIr := 0, dbgSr := 0, ldReq := false, ready := false, ldSr1 := 0, ldReg := 0, ldSr2 := 0,
      ldLeft := 0, ldAddr := 0 }
  err := { errlog := 0, erradrl := 0, erradru := 0, sbeIrq := false }
  pwr := { mode := 0, cclkcfg := 0 }
  itlb := Tlb.reset
  dtlb := Tlb.reset
  icache := { lines := [], repl := [], buffers := [] }
  btb := []
  dcache := { lines := [], repl := [] }
  buffers := []
  l2 := { lines := [], used := [] }
  l2Out := []
  stale := []
  subWord := false
  mem := []
  pins := { irq := false, fiq := false, soc := false, resetPin := false }
  pendingAbort := none
  note := Note.empty
  free := 0
  schedule := []
  cfg :=
    { l2Size := .absent, little := true, big := true, coherent := false, pwrModes := [], busErrors := [] }

end Sys2Proof.Machine
end

