-- ==== Sys2Proof/Syntax.lean ====
section
/-!
DEFINITION. The instructions: one constructor for each row of `spec/opcode_table.json`
(`30_encoding` R454, R455, R459, R460, R463). The arguments are the row's fields, from the most to
the least significant bit, each under its name in the table. A should-be-zero or should-be-one group
of bits of a row (written in parentheses in the table) is the argument `sb` (`sb1`, `sb2`, `sb3`), and
the free bits of an UNDEFINED row are `raw` (`raw1`, `raw2`).
-/
namespace Sys2Proof

/-- The fifteen conditions (`30_encoding` R452). -/
inductive Cond where
  | eq
  | ne
  | cs
  | cc
  | mi
  | pl
  | vs
  | vc
  | hi
  | ls
  | ge
  | lt
  | gt
  | le
  | al
deriving DecidableEq, Repr

/-- One constructor for each row of the opcode table, in the table's order. -/
inductive Instr where
  /-- `PLD`, ARM: `1111 0101 U:1 101 Rn:4 1111 offset_12:12` (`45_arm_loadstore` R599). -/
  | pldImm (uBit : Bool) (rn : BitVec 4) (offset12 : BitVec 12)
  /-- `PLD`, ARM: `1111 0111 U:1 101 Rn:4 1111 shift_imm:5 shift:2 0 Rm:4` (`45_arm_loadstore` R599). -/
  | pldReg (uBit : Bool) (rn : BitVec 4) (shiftImm : BitVec 5) (shift : BitVec 2) (rm : BitVec 4)
  /-- `BLX(1)`, ARM: `1111 101 H:1 signed_immed_24:24` (`40_arm_base` R543). -/
  | blxImm (hBit : Bool) (signedImmed24 : BitVec 24)
  /-- `LDC2`, ARM: `1111 110 P:1 U:1 N:1 W:1 1 Rn:4 CRd:4 cp_num:4 offset_8:8` (`30_encoding` R453). -/
  | ldc2 (pBit uBit nBit wBit : Bool) (rn crd cpNum : BitVec 4) (offset8 : BitVec 8)
  /-- `STC2`, ARM: `1111 110 P:1 U:1 N:1 W:1 0 Rn:4 CRd:4 cp_num:4 offset_8:8` (`30_encoding` R453). -/
  | stc2 (pBit uBit nBit wBit : Bool) (rn crd cpNum : BitVec 4) (offset8 : BitVec 8)
  /-- `CDP2`, ARM: `1111 1110 opcode_1:4 CRn:4 CRd:4 cp_num:4 opcode_2:3 0 CRm:4` (`30_encoding` R453). -/
  | cdp2 (opcode1 crn crd cpNum : BitVec 4) (opcode2 : BitVec 3) (crm : BitVec 4)
  /-- `MCR2`, ARM: `1111 1110 opcode_1:3 0 CRn:4 Rd:4 cp_num:4 opcode_2:3 1 CRm:4` (`30_encoding` R453). -/
  | mcr2 (opcode1 : BitVec 3) (crn rd cpNum : BitVec 4) (opcode2 : BitVec 3) (crm : BitVec 4)
  /-- `MRC2`, ARM: `1111 1110 opcode_1:3 1 CRn:4 Rd:4 cp_num:4 opcode_2:3 1 CRm:4` (`30_encoding` R453). -/
  | mrc2 (opcode1 : BitVec 3) (crn rd cpNum : BitVec 4) (opcode2 : BitVec 3) (crm : BitVec 4)
  /-- `UNDEFINED`, ARM: `1111 xxxxxxxxxxxxxxxxxxxxxxxxxxxx` (`30_encoding` R453). -/
  | undefUncond (raw : BitVec 28)
  /-- `MUL`, ARM: `cond:4 0000 000 S:1 Rd:4 (0000) Rs:4 1001 Rm:4` (`40_arm_base` R531). -/
  | mul (cond : Cond) (sBit : Bool) (rd sb rs rm : BitVec 4)
  /-- `MLA`, ARM: `cond:4 0000 001 S:1 Rd:4 Rn:4 Rs:4 1001 Rm:4` (`40_arm_base` R532). -/
  | mla (cond : Cond) (sBit : Bool) (rd rn rs rm : BitVec 4)
  /-- `UMULL`, ARM: `cond:4 0000 100 S:1 RdHi:4 RdLo:4 Rs:4 1001 Rm:4` (`40_arm_base` R533). -/
  | umull (cond : Cond) (sBit : Bool) (rdHi rdLo rs rm : BitVec 4)
  /-- `UMLAL`, ARM: `cond:4 0000 101 S:1 RdHi:4 RdLo:4 Rs:4 1001 Rm:4` (`40_arm_base` R534). -/
  | umlal (cond : Cond) (sBit : Bool) (rdHi rdLo rs rm : BitVec 4)
  /-- `SMULL`, ARM: `cond:4 0000 110 S:1 RdHi:4 RdLo:4 Rs:4 1001 Rm:4` (`40_arm_base` R535). -/
  | smull (cond : Cond) (sBit : Bool) (rdHi rdLo rs rm : BitVec 4)
  /-- `SMLAL`, ARM: `cond:4 0000 111 S:1 RdHi:4 RdLo:4 Rs:4 1001 Rm:4` (`40_arm_base` R536). -/
  | smlal (cond : Cond) (sBit : Bool) (rdHi rdLo rs rm : BitVec 4)
  /-- `SWP`, ARM: `cond:4 0001 0000 Rn:4 Rd:4 (0000) 1001 Rm:4` (`45_arm_loadstore` R615). -/
  | swp (cond : Cond) (rn rd sb rm : BitVec 4)
  /-- `SWPB`, ARM: `cond:4 0001 0100 Rn:4 Rd:4 (0000) 1001 Rm:4` (`45_arm_loadstore` R616). -/
  | swpb (cond : Cond) (rn rd sb rm : BitVec 4)
  /-- `UNDEFINED`, ARM: `cond:4 000 xxxxxxxxxxxxxxxxx 1001 xxxx` (`30_encoding` R462). -/
  | undefExt (cond : Cond) (raw1 : BitVec 17) (raw2 : BitVec 4)
  /-- `STRH`, ARM: `cond:4 000 P:1 U:1 I:1 W:1 0 Rn:4 Rd:4 addr_hi:4 1011 addr_lo:4` (`45_arm_loadstore` R596). -/
  | strh (cond : Cond) (pBit uBit iBit wBit : Bool) (rn rd addrHi addrLo : BitVec 4)
  /-- `LDRD`, ARM: `cond:4 000 P:1 U:1 I:1 W:1 0 Rn:4 Rd:4 addr_hi:4 1101 addr_lo:4` (`45_arm_loadstore` R597). -/
  | ldrd (cond : Cond) (pBit uBit iBit wBit : Bool) (rn rd addrHi addrLo : BitVec 4)
  /-- `STRD`, ARM: `cond:4 000 P:1 U:1 I:1 W:1 0 Rn:4 Rd:4 addr_hi:4 1111 addr_lo:4` (`45_arm_loadstore` R598). -/
  | strd (cond : Cond) (pBit uBit iBit wBit : Bool) (rn rd addrHi addrLo : BitVec 4)
  /-- `LDRH`, ARM: `cond:4 000 P:1 U:1 I:1 W:1 1 Rn:4 Rd:4 addr_hi:4 1011 addr_lo:4` (`45_arm_loadstore` R593). -/
  | ldrh (cond : Cond) (pBit uBit iBit wBit : Bool) (rn rd addrHi addrLo : BitVec 4)
  /-- `LDRSB`, ARM: `cond:4 000 P:1 U:1 I:1 W:1 1 Rn:4 Rd:4 addr_hi:4 1101 addr_lo:4` (`45_arm_loadstore` R594). -/
  | ldrsb (cond : Cond) (pBit uBit iBit wBit : Bool) (rn rd addrHi addrLo : BitVec 4)
  /-- `LDRSH`, ARM: `cond:4 000 P:1 U:1 I:1 W:1 1 Rn:4 Rd:4 addr_hi:4 1111 addr_lo:4` (`45_arm_loadstore` R595). -/
  | ldrsh (cond : Cond) (pBit uBit iBit wBit : Bool) (rn rd addrHi addrLo : BitVec 4)
  /-- `MRS`, ARM: `cond:4 00010 R:1 00 (1111) Rd:4 (0000) 0000 (0000)` (`40_arm_base` R550). -/
  | mrs (cond : Cond) (rBit : Bool) (sb1 rd sb2 sb3 : BitVec 4)
  /-- `MSR`, ARM: `cond:4 00010 R:1 10 field_mask:4 (1111) (0000) 0000 Rm:4` (`40_arm_base` R551). -/
  | msrReg (cond : Cond) (rBit : Bool) (fieldMask : BitVec 4) (sb : BitVec 8) (rm : BitVec 4)
  /-- `BX`, ARM: `cond:4 0001 0010 (1111) (1111) (1111) 0001 Rm:4` (`40_arm_base` R542). -/
  | bx (cond : Cond) (sb : BitVec 12) (rm : BitVec 4)
  /-- `BLX(2)`, ARM: `cond:4 0001 0010 (1111) (1111) (1111) 0011 Rm:4` (`40_arm_base` R544). -/
  | blxReg (cond : Cond) (sb : BitVec 12) (rm : BitVec 4)
  /-- `CLZ`, ARM: `cond:4 0001 0110 (1111) Rd:4 (1111) 0001 Rm:4` (`40_arm_base` R555). -/
  | clz (cond : Cond) (sb1 rd sb2 rm : BitVec 4)
  /-- `QADD`, ARM: `cond:4 00010 00 0 Rn:4 Rd:4 (0000) 0101 Rm:4` (`41_dsp_thumb` R655). -/
  | qadd (cond : Cond) (rn rd sb rm : BitVec 4)
  /-- `QSUB`, ARM: `cond:4 00010 01 0 Rn:4 Rd:4 (0000) 0101 Rm:4` (`41_dsp_thumb` R656). -/
  | qsub (cond : Cond) (rn rd sb rm : BitVec 4)
  /-- `QDADD`, ARM: `cond:4 00010 10 0 Rn:4 Rd:4 (0000) 0101 Rm:4` (`41_dsp_thumb` R657). -/
  | qdadd (cond : Cond) (rn rd sb rm : BitVec 4)
  /-- `QDSUB`, ARM: `cond:4 00010 11 0 Rn:4 Rd:4 (0000) 0101 Rm:4` (`41_dsp_thumb` R658). -/
  | qdsub (cond : Cond) (rn rd sb rm : BitVec 4)
  /-- `BKPT`, ARM: `cond:4 0001 0010 immed_hi:12 0111 immed_lo:4` (`60_exceptions` R892). -/
  | bkpt (cond : Cond) (immedHi : BitVec 12) (immedLo : BitVec 4)
  /-- `SMLAxy`, ARM: `cond:4 0001 0000 Rd:4 Rn:4 Rs:4 1 y:1 x:1 0 Rm:4` (`41_dsp_thumb` R651). -/
  | smlaXY (cond : Cond) (rd rn rs : BitVec 4) (yBit xBit : Bool) (rm : BitVec 4)
  /-- `SMLAWy`, ARM: `cond:4 0001 0010 Rd:4 Rn:4 Rs:4 1 y:1 0 0 Rm:4` (`41_dsp_thumb` R653). -/
  | smlawY (cond : Cond) (rd rn rs : BitVec 4) (yBit : Bool) (rm : BitVec 4)
  /-- `SMULWy`, ARM: `cond:4 0001 0010 Rd:4 (0000) Rs:4 1 y:1 1 0 Rm:4` (`41_dsp_thumb` R652). -/
  | smulwY (cond : Cond) (rd sb rs : BitVec 4) (yBit : Bool) (rm : BitVec 4)
  /-- `SMLALxy`, ARM: `cond:4 0001 0100 RdHi:4 RdLo:4 Rs:4 1 y:1 x:1 0 Rm:4` (`41_dsp_thumb` R654). -/
  | smlalXY (cond : Cond) (rdHi rdLo rs : BitVec 4) (yBit xBit : Bool) (rm : BitVec 4)
  /-- `SMULxy`, ARM: `cond:4 0001 0110 Rd:4 (0000) Rs:4 1 y:1 x:1 0 Rm:4` (`41_dsp_thumb` R650). -/
  | smulXY (cond : Cond) (rd sb rs : BitVec 4) (yBit xBit : Bool) (rm : BitVec 4)
  /-- `UNDEFINED`, ARM: `cond:4 00010 xx 0 xxxxxxxxxxxxxxxxxxxx` (`30_encoding` R462). -/
  | undefMisc (cond : Cond) (raw1 : BitVec 2) (raw2 : BitVec 20)
  /-- `AND`, ARM: `cond:4 000 0000 S:1 Rn:4 Rd:4 shift_imm:5 shift:2 0 Rm:4` (`40_arm_base` R510). -/
  | andShImm (cond : Cond) (sBit : Bool) (rn rd : BitVec 4) (shiftImm : BitVec 5) (shift : BitVec 2) (rm : BitVec 4)
  /-- `EOR`, ARM: `cond:4 000 0001 S:1 Rn:4 Rd:4 shift_imm:5 shift:2 0 Rm:4` (`40_arm_base` R511). -/
  | eorShImm (cond : Cond) (sBit : Bool) (rn rd : BitVec 4) (shiftImm : BitVec 5) (shift : BitVec 2) (rm : BitVec 4)
  /-- `SUB`, ARM: `cond:4 000 0010 S:1 Rn:4 Rd:4 shift_imm:5 shift:2 0 Rm:4` (`40_arm_base` R512). -/
  | subShImm (cond : Cond) (sBit : Bool) (rn rd : BitVec 4) (shiftImm : BitVec 5) (shift : BitVec 2) (rm : BitVec 4)
  /-- `RSB`, ARM: `cond:4 000 0011 S:1 Rn:4 Rd:4 shift_imm:5 shift:2 0 Rm:4` (`40_arm_base` R513). -/
  | rsbShImm (cond : Cond) (sBit : Bool) (rn rd : BitVec 4) (shiftImm : BitVec 5) (shift : BitVec 2) (rm : BitVec 4)
  /-- `ADD`, ARM: `cond:4 000 0100 S:1 Rn:4 Rd:4 shift_imm:5 shift:2 0 Rm:4` (`40_arm_base` R514). -/
  | addShImm (cond : Cond) (sBit : Bool) (rn rd : BitVec 4) (shiftImm : BitVec 5) (shift : BitVec 2) (rm : BitVec 4)
  /-- `ADC`, ARM: `cond:4 000 0101 S:1 Rn:4 Rd:4 shift_imm:5 shift:2 0 Rm:4` (`40_arm_base` R515). -/
  | adcShImm (cond : Cond) (sBit : Bool) (rn rd : BitVec 4) (shiftImm : BitVec 5) (shift : BitVec 2) (rm : BitVec 4)
  /-- `SBC`, ARM: `cond:4 000 0110 S:1 Rn:4 Rd:4 shift_imm:5 shift:2 0 Rm:4` (`40_arm_base` R516). -/
  | sbcShImm (cond : Cond) (sBit : Bool) (rn rd : BitVec 4) (shiftImm : BitVec 5) (shift : BitVec 2) (rm : BitVec 4)
  /-- `RSC`, ARM: `cond:4 000 0111 S:1 Rn:4 Rd:4 shift_imm:5 shift:2 0 Rm:4` (`40_arm_base` R517). -/
  | rscShImm (cond : Cond) (sBit : Bool) (rn rd : BitVec 4) (shiftImm : BitVec 5) (shift : BitVec 2) (rm : BitVec 4)
  /-- `TST`, ARM: `cond:4 000 1000 1 Rn:4 (0000) shift_imm:5 shift:2 0 Rm:4` (`40_arm_base` R518). -/
  | tstShImm (cond : Cond) (rn sb : BitVec 4) (shiftImm : BitVec 5) (shift : BitVec 2) (rm : BitVec 4)
  /-- `TEQ`, ARM: `cond:4 000 1001 1 Rn:4 (0000) shift_imm:5 shift:2 0 Rm:4` (`40_arm_base` R519). -/
  | teqShImm (cond : Cond) (rn sb : BitVec 4) (shiftImm : BitVec 5) (shift : BitVec 2) (rm : BitVec 4)
  /-- `CMP`, ARM: `cond:4 000 1010 1 Rn:4 (0000) shift_imm:5 shift:2 0 Rm:4` (`40_arm_base` R520). -/
  | cmpShImm (cond : Cond) (rn sb : BitVec 4) (shiftImm : BitVec 5) (shift : BitVec 2) (rm : BitVec 4)
  /-- `CMN`, ARM: `cond:4 000 1011 1 Rn:4 (0000) shift_imm:5 shift:2 0 Rm:4` (`40_arm_base` R521). -/
  | cmnShImm (cond : Cond) (rn sb : BitVec 4) (shiftImm : BitVec 5) (shift : BitVec 2) (rm : BitVec 4)
  /-- `ORR`, ARM: `cond:4 000 1100 S:1 Rn:4 Rd:4 shift_imm:5 shift:2 0 Rm:4` (`40_arm_base` R522). -/
  | orrShImm (cond : Cond) (sBit : Bool) (rn rd : BitVec 4) (shiftImm : BitVec 5) (shift : BitVec 2) (rm : BitVec 4)
  /-- `MOV`, ARM: `cond:4 000 1101 S:1 (0000) Rd:4 shift_imm:5 shift:2 0 Rm:4` (`40_arm_base` R523). -/
  | movShImm (cond : Cond) (sBit : Bool) (sb rd : BitVec 4) (shiftImm : BitVec 5) (shift : BitVec 2) (rm : BitVec 4)
  /-- `BIC`, ARM: `cond:4 000 1110 S:1 Rn:4 Rd:4 shift_imm:5 shift:2 0 Rm:4` (`40_arm_base` R524). -/
  | bicShImm (cond : Cond) (sBit : Bool) (rn rd : BitVec 4) (shiftImm : BitVec 5) (shift : BitVec 2) (rm : BitVec 4)
  /-- `MVN`, ARM: `cond:4 000 1111 S:1 (0000) Rd:4 shift_imm:5 shift:2 0 Rm:4` (`40_arm_base` R525). -/
  | mvnShImm (cond : Cond) (sBit : Bool) (sb rd : BitVec 4) (shiftImm : BitVec 5) (shift : BitVec 2) (rm : BitVec 4)
  /-- `AND`, ARM: `cond:4 000 0000 S:1 Rn:4 Rd:4 Rs:4 0 shift:2 1 Rm:4` (`40_arm_base` R510). -/
  | andShReg (cond : Cond) (sBit : Bool) (rn rd rs : BitVec 4) (shift : BitVec 2) (rm : BitVec 4)
  /-- `EOR`, ARM: `cond:4 000 0001 S:1 Rn:4 Rd:4 Rs:4 0 shift:2 1 Rm:4` (`40_arm_base` R511). -/
  | eorShReg (cond : Cond) (sBit : Bool) (rn rd rs : BitVec 4) (shift : BitVec 2) (rm : BitVec 4)
  /-- `SUB`, ARM: `cond:4 000 0010 S:1 Rn:4 Rd:4 Rs:4 0 shift:2 1 Rm:4` (`40_arm_base` R512). -/
  | subShReg (cond : Cond) (sBit : Bool) (rn rd rs : BitVec 4) (shift : BitVec 2) (rm : BitVec 4)
  /-- `RSB`, ARM: `cond:4 000 0011 S:1 Rn:4 Rd:4 Rs:4 0 shift:2 1 Rm:4` (`40_arm_base` R513). -/
  | rsbShReg (cond : Cond) (sBit : Bool) (rn rd rs : BitVec 4) (shift : BitVec 2) (rm : BitVec 4)
  /-- `ADD`, ARM: `cond:4 000 0100 S:1 Rn:4 Rd:4 Rs:4 0 shift:2 1 Rm:4` (`40_arm_base` R514). -/
  | addShReg (cond : Cond) (sBit : Bool) (rn rd rs : BitVec 4) (shift : BitVec 2) (rm : BitVec 4)
  /-- `ADC`, ARM: `cond:4 000 0101 S:1 Rn:4 Rd:4 Rs:4 0 shift:2 1 Rm:4` (`40_arm_base` R515). -/
  | adcShReg (cond : Cond) (sBit : Bool) (rn rd rs : BitVec 4) (shift : BitVec 2) (rm : BitVec 4)
  /-- `SBC`, ARM: `cond:4 000 0110 S:1 Rn:4 Rd:4 Rs:4 0 shift:2 1 Rm:4` (`40_arm_base` R516). -/
  | sbcShReg (cond : Cond) (sBit : Bool) (rn rd rs : BitVec 4) (shift : BitVec 2) (rm : BitVec 4)
  /-- `RSC`, ARM: `cond:4 000 0111 S:1 Rn:4 Rd:4 Rs:4 0 shift:2 1 Rm:4` (`40_arm_base` R517). -/
  | rscShReg (cond : Cond) (sBit : Bool) (rn rd rs : BitVec 4) (shift : BitVec 2) (rm : BitVec 4)
  /-- `TST`, ARM: `cond:4 000 1000 1 Rn:4 (0000) Rs:4 0 shift:2 1 Rm:4` (`40_arm_base` R518). -/
  | tstShReg (cond : Cond) (rn sb rs : BitVec 4) (shift : BitVec 2) (rm : BitVec 4)
  /-- `TEQ`, ARM: `cond:4 000 1001 1 Rn:4 (0000) Rs:4 0 shift:2 1 Rm:4` (`40_arm_base` R519). -/
  | teqShReg (cond : Cond) (rn sb rs : BitVec 4) (shift : BitVec 2) (rm : BitVec 4)
  /-- `CMP`, ARM: `cond:4 000 1010 1 Rn:4 (0000) Rs:4 0 shift:2 1 Rm:4` (`40_arm_base` R520). -/
  | cmpShReg (cond : Cond) (rn sb rs : BitVec 4) (shift : BitVec 2) (rm : BitVec 4)
  /-- `CMN`, ARM: `cond:4 000 1011 1 Rn:4 (0000) Rs:4 0 shift:2 1 Rm:4` (`40_arm_base` R521). -/
  | cmnShReg (cond : Cond) (rn sb rs : BitVec 4) (shift : BitVec 2) (rm : BitVec 4)
  /-- `ORR`, ARM: `cond:4 000 1100 S:1 Rn:4 Rd:4 Rs:4 0 shift:2 1 Rm:4` (`40_arm_base` R522). -/
  | orrShReg (cond : Cond) (sBit : Bool) (rn rd rs : BitVec 4) (shift : BitVec 2) (rm : BitVec 4)
  /-- `MOV`, ARM: `cond:4 000 1101 S:1 (0000) Rd:4 Rs:4 0 shift:2 1 Rm:4` (`40_arm_base` R523). -/
  | movShReg (cond : Cond) (sBit : Bool) (sb rd rs : BitVec 4) (shift : BitVec 2) (rm : BitVec 4)
  /-- `BIC`, ARM: `cond:4 000 1110 S:1 Rn:4 Rd:4 Rs:4 0 shift:2 1 Rm:4` (`40_arm_base` R524). -/
  | bicShReg (cond : Cond) (sBit : Bool) (rn rd rs : BitVec 4) (shift : BitVec 2) (rm : BitVec 4)
  /-- `MVN`, ARM: `cond:4 000 1111 S:1 (0000) Rd:4 Rs:4 0 shift:2 1 Rm:4` (`40_arm_base` R525). -/
  | mvnShReg (cond : Cond) (sBit : Bool) (sb rd rs : BitVec 4) (shift : BitVec 2) (rm : BitVec 4)
  /-- `MSR`, ARM: `cond:4 00110 R:1 10 field_mask:4 (1111) rotate_imm:4 immed_8:8` (`40_arm_base` R551). -/
  | msrImm (cond : Cond) (rBit : Bool) (fieldMask sb rotateImm : BitVec 4) (immed8 : BitVec 8)
  /-- `UNDEFINED`, ARM: `cond:4 00110 x 00 xxxxxxxxxxxxxxxxxxxx` (`30_encoding` R462). -/
  | undefImm (cond : Cond) (raw1 : Bool) (raw2 : BitVec 20)
  /-- `AND`, ARM: `cond:4 001 0000 S:1 Rn:4 Rd:4 rotate_imm:4 immed_8:8` (`40_arm_base` R510). -/
  | andImm (cond : Cond) (sBit : Bool) (rn rd rotateImm : BitVec 4) (immed8 : BitVec 8)
  /-- `EOR`, ARM: `cond:4 001 0001 S:1 Rn:4 Rd:4 rotate_imm:4 immed_8:8` (`40_arm_base` R511). -/
  | eorImm (cond : Cond) (sBit : Bool) (rn rd rotateImm : BitVec 4) (immed8 : BitVec 8)
  /-- `SUB`, ARM: `cond:4 001 0010 S:1 Rn:4 Rd:4 rotate_imm:4 immed_8:8` (`40_arm_base` R512). -/
  | subImm (cond : Cond) (sBit : Bool) (rn rd rotateImm : BitVec 4) (immed8 : BitVec 8)
  /-- `RSB`, ARM: `cond:4 001 0011 S:1 Rn:4 Rd:4 rotate_imm:4 immed_8:8` (`40_arm_base` R513). -/
  | rsbImm (cond : Cond) (sBit : Bool) (rn rd rotateImm : BitVec 4) (immed8 : BitVec 8)
  /-- `ADD`, ARM: `cond:4 001 0100 S:1 Rn:4 Rd:4 rotate_imm:4 immed_8:8` (`40_arm_base` R514). -/
  | addImm (cond : Cond) (sBit : Bool) (rn rd rotateImm : BitVec 4) (immed8 : BitVec 8)
  /-- `ADC`, ARM: `cond:4 001 0101 S:1 Rn:4 Rd:4 rotate_imm:4 immed_8:8` (`40_arm_base` R515). -/
  | adcImm (cond : Cond) (sBit : Bool) (rn rd rotateImm : BitVec 4) (immed8 : BitVec 8)
  /-- `SBC`, ARM: `cond:4 001 0110 S:1 Rn:4 Rd:4 rotate_imm:4 immed_8:8` (`40_arm_base` R516). -/
  | sbcImm (cond : Cond) (sBit : Bool) (rn rd rotateImm : BitVec 4) (immed8 : BitVec 8)
  /-- `RSC`, ARM: `cond:4 001 0111 S:1 Rn:4 Rd:4 rotate_imm:4 immed_8:8` (`40_arm_base` R517). -/
  | rscImm (cond : Cond) (sBit : Bool) (rn rd rotateImm : BitVec 4) (immed8 : BitVec 8)
  /-- `TST`, ARM: `cond:4 001 1000 1 Rn:4 (0000) rotate_imm:4 immed_8:8` (`40_arm_base` R518). -/
  | tstImm (cond : Cond) (rn sb rotateImm : BitVec 4) (immed8 : BitVec 8)
  /-- `TEQ`, ARM: `cond:4 001 1001 1 Rn:4 (0000) rotate_imm:4 immed_8:8` (`40_arm_base` R519). -/
  | teqImm (cond : Cond) (rn sb rotateImm : BitVec 4) (immed8 : BitVec 8)
  /-- `CMP`, ARM: `cond:4 001 1010 1 Rn:4 (0000) rotate_imm:4 immed_8:8` (`40_arm_base` R520). -/
  | cmpImm (cond : Cond) (rn sb rotateImm : BitVec 4) (immed8 : BitVec 8)
  /-- `CMN`, ARM: `cond:4 001 1011 1 Rn:4 (0000) rotate_imm:4 immed_8:8` (`40_arm_base` R521). -/
  | cmnImm (cond : Cond) (rn sb rotateImm : BitVec 4) (immed8 : BitVec 8)
  /-- `ORR`, ARM: `cond:4 001 1100 S:1 Rn:4 Rd:4 rotate_imm:4 immed_8:8` (`40_arm_base` R522). -/
  | orrImm (cond : Cond) (sBit : Bool) (rn rd rotateImm : BitVec 4) (immed8 : BitVec 8)
  /-- `MOV`, ARM: `cond:4 001 1101 S:1 (0000) Rd:4 rotate_imm:4 immed_8:8` (`40_arm_base` R523). -/
  | movImm (cond : Cond) (sBit : Bool) (sb rd rotateImm : BitVec 4) (immed8 : BitVec 8)
  /-- `BIC`, ARM: `cond:4 001 1110 S:1 Rn:4 Rd:4 rotate_imm:4 immed_8:8` (`40_arm_base` R524). -/
  | bicImm (cond : Cond) (sBit : Bool) (rn rd rotateImm : BitVec 4) (immed8 : BitVec 8)
  /-- `MVN`, ARM: `cond:4 001 1111 S:1 (0000) Rd:4 rotate_imm:4 immed_8:8` (`40_arm_base` R525). -/
  | mvnImm (cond : Cond) (sBit : Bool) (sb rd rotateImm : BitVec 4) (immed8 : BitVec 8)
  /-- `LDRT`, ARM: `cond:4 010 0 U:1 0 1 1 Rn:4 Rd:4 offset_12:12` (`45_arm_loadstore` R589). -/
  | ldrtImm (cond : Cond) (uBit : Bool) (rn rd : BitVec 4) (offset12 : BitVec 12)
  /-- `LDRBT`, ARM: `cond:4 010 0 U:1 1 1 1 Rn:4 Rd:4 offset_12:12` (`45_arm_loadstore` R590). -/
  | ldrbtImm (cond : Cond) (uBit : Bool) (rn rd : BitVec 4) (offset12 : BitVec 12)
  /-- `STRT`, ARM: `cond:4 010 0 U:1 0 1 0 Rn:4 Rd:4 offset_12:12` (`45_arm_loadstore` R591). -/
  | strtImm (cond : Cond) (uBit : Bool) (rn rd : BitVec 4) (offset12 : BitVec 12)
  /-- `STRBT`, ARM: `cond:4 010 0 U:1 1 1 0 Rn:4 Rd:4 offset_12:12` (`45_arm_loadstore` R592). -/
  | strbtImm (cond : Cond) (uBit : Bool) (rn rd : BitVec 4) (offset12 : BitVec 12)
  /-- `LDR`, ARM: `cond:4 010 P:1 U:1 0 W:1 1 Rn:4 Rd:4 offset_12:12` (`45_arm_loadstore` R585). -/
  | ldrImm (cond : Cond) (pBit uBit wBit : Bool) (rn rd : BitVec 4) (offset12 : BitVec 12)
  /-- `LDRB`, ARM: `cond:4 010 P:1 U:1 1 W:1 1 Rn:4 Rd:4 offset_12:12` (`45_arm_loadstore` R586). -/
  | ldrbImm (cond : Cond) (pBit uBit wBit : Bool) (rn rd : BitVec 4) (offset12 : BitVec 12)
  /-- `STR`, ARM: `cond:4 010 P:1 U:1 0 W:1 0 Rn:4 Rd:4 offset_12:12` (`45_arm_loadstore` R587). -/
  | strImm (cond : Cond) (pBit uBit wBit : Bool) (rn rd : BitVec 4) (offset12 : BitVec 12)
  /-- `STRB`, ARM: `cond:4 010 P:1 U:1 1 W:1 0 Rn:4 Rd:4 offset_12:12` (`45_arm_loadstore` R588). -/
  | strbImm (cond : Cond) (pBit uBit wBit : Bool) (rn rd : BitVec 4) (offset12 : BitVec 12)
  /-- `LDRT`, ARM: `cond:4 011 0 U:1 0 1 1 Rn:4 Rd:4 shift_imm:5 shift:2 0 Rm:4` (`45_arm_loadstore` R589). -/
  | ldrtReg (cond : Cond) (uBit : Bool) (rn rd : BitVec 4) (shiftImm : BitVec 5) (shift : BitVec 2) (rm : BitVec 4)
  /-- `LDRBT`, ARM: `cond:4 011 0 U:1 1 1 1 Rn:4 Rd:4 shift_imm:5 shift:2 0 Rm:4` (`45_arm_loadstore` R590). -/
  | ldrbtReg (cond : Cond) (uBit : Bool) (rn rd : BitVec 4) (shiftImm : BitVec 5) (shift : BitVec 2) (rm : BitVec 4)
  /-- `STRT`, ARM: `cond:4 011 0 U:1 0 1 0 Rn:4 Rd:4 shift_imm:5 shift:2 0 Rm:4` (`45_arm_loadstore` R591). -/
  | strtReg (cond : Cond) (uBit : Bool) (rn rd : BitVec 4) (shiftImm : BitVec 5) (shift : BitVec 2) (rm : BitVec 4)
  /-- `STRBT`, ARM: `cond:4 011 0 U:1 1 1 0 Rn:4 Rd:4 shift_imm:5 shift:2 0 Rm:4` (`45_arm_loadstore` R592). -/
  | strbtReg (cond : Cond) (uBit : Bool) (rn rd : BitVec 4) (shiftImm : BitVec 5) (shift : BitVec 2) (rm : BitVec 4)
  /-- `LDR`, ARM: `cond:4 011 P:1 U:1 0 W:1 1 Rn:4 Rd:4 shift_imm:5 shift:2 0 Rm:4` (`45_arm_loadstore` R585). -/
  | ldrReg (cond : Cond) (pBit uBit wBit : Bool) (rn rd : BitVec 4) (shiftImm : BitVec 5) (shift : BitVec 2) (rm : BitVec 4)
  /-- `LDRB`, ARM: `cond:4 011 P:1 U:1 1 W:1 1 Rn:4 Rd:4 shift_imm:5 shift:2 0 Rm:4` (`45_arm_loadstore` R586). -/
  | ldrbReg (cond : Cond) (pBit uBit wBit : Bool) (rn rd : BitVec 4) (shiftImm : BitVec 5) (shift : BitVec 2) (rm : BitVec 4)
  /-- `STR`, ARM: `cond:4 011 P:1 U:1 0 W:1 0 Rn:4 Rd:4 shift_imm:5 shift:2 0 Rm:4` (`45_arm_loadstore` R587). -/
  | strReg (cond : Cond) (pBit uBit wBit : Bool) (rn rd : BitVec 4) (shiftImm : BitVec 5) (shift : BitVec 2) (rm : BitVec 4)
  /-- `STRB`, ARM: `cond:4 011 P:1 U:1 1 W:1 0 Rn:4 Rd:4 shift_imm:5 shift:2 0 Rm:4` (`45_arm_loadstore` R588). -/
  | strbReg (cond : Cond) (pBit uBit wBit : Bool) (rn rd : BitVec 4) (shiftImm : BitVec 5) (shift : BitVec 2) (rm : BitVec 4)
  /-- `UNDEFINED`, ARM: `cond:4 011 xxxxxxxxxxxxxxxxxxxx 1 xxxx` (`30_encoding` R462). -/
  | undefMedia (cond : Cond) (raw1 : BitVec 20) (raw2 : BitVec 4)
  /-- `LDM(1)`, ARM: `cond:4 100 P:1 U:1 0 W:1 1 Rn:4 register_list:16` (`45_arm_loadstore` R606). -/
  | ldm (cond : Cond) (pBit uBit wBit : Bool) (rn : BitVec 4) (registerList : BitVec 16)
  /-- `LDM(2)`, ARM: `cond:4 100 P:1 U:1 1 (0) 1 Rn:4 0 register_list:15` (`45_arm_loadstore` R607). -/
  | ldmUser (cond : Cond) (pBit uBit sb : Bool) (rn : BitVec 4) (registerList : BitVec 15)
  /-- `LDM(3)`, ARM: `cond:4 100 P:1 U:1 1 W:1 1 Rn:4 1 register_list:15` (`45_arm_loadstore` R608). -/
  | ldmReturn (cond : Cond) (pBit uBit wBit : Bool) (rn : BitVec 4) (registerList : BitVec 15)
  /-- `STM(1)`, ARM: `cond:4 100 P:1 U:1 0 W:1 0 Rn:4 register_list:16` (`45_arm_loadstore` R609). -/
  | stm (cond : Cond) (pBit uBit wBit : Bool) (rn : BitVec 4) (registerList : BitVec 16)
  /-- `STM(2)`, ARM: `cond:4 100 P:1 U:1 1 (0) 0 Rn:4 register_list:16` (`45_arm_loadstore` R610). -/
  | stmUser (cond : Cond) (pBit uBit sb : Bool) (rn : BitVec 4) (registerList : BitVec 16)
  /-- `B`, ARM: `cond:4 1010 signed_immed_24:24` (`40_arm_base` R540). -/
  | b (cond : Cond) (signedImmed24 : BitVec 24)
  /-- `BL`, ARM: `cond:4 1011 signed_immed_24:24` (`40_arm_base` R541). -/
  | bl (cond : Cond) (signedImmed24 : BitVec 24)
  /-- `MAR`, ARM: `cond:4 1100 0100 RdHi:4 RdLo:4 0000 (00000) acc:3` (`42_cp0_accumulator` R758). -/
  | mar (cond : Cond) (rdHi rdLo : BitVec 4) (sb : BitVec 5) (acc : BitVec 3)
  /-- `MRA`, ARM: `cond:4 1100 0101 RdHi:4 RdLo:4 0000 (00000) acc:3` (`42_cp0_accumulator` R759). -/
  | mra (cond : Cond) (rdHi rdLo : BitVec 4) (sb : BitVec 5) (acc : BitVec 3)
  /-- `MCRR`, ARM: `cond:4 1100 0100 Rn:4 Rd:4 cp_num:4 opcode:4 CRm:4` (`44_cp14_cp7` R870). -/
  | mcrr (cond : Cond) (rn rd cpNum opcode crm : BitVec 4)
  /-- `MRRC`, ARM: `cond:4 1100 0101 Rn:4 Rd:4 cp_num:4 opcode:4 CRm:4` (`44_cp14_cp7` R870). -/
  | mrrc (cond : Cond) (rn rd cpNum opcode crm : BitVec 4)
  /-- `LDC_p14`, ARM: `cond:4 110 P:1 U:1 N:1 W:1 1 Rn:4 CRd:4 1110 offset_8:8` (`44_cp14_cp7` R854). -/
  | ldcP14 (cond : Cond) (pBit uBit nBit wBit : Bool) (rn crd : BitVec 4) (offset8 : BitVec 8)
  /-- `STC_p14`, ARM: `cond:4 110 P:1 U:1 N:1 W:1 0 Rn:4 CRd:4 1110 offset_8:8` (`44_cp14_cp7` R855). -/
  | stcP14 (cond : Cond) (pBit uBit nBit wBit : Bool) (rn crd : BitVec 4) (offset8 : BitVec 8)
  /-- `LDC`, ARM: `cond:4 110 P:1 U:1 N:1 W:1 1 Rn:4 CRd:4 cp_num:4 offset_8:8` (`44_cp14_cp7` R868). -/
  | ldc (cond : Cond) (pBit uBit nBit wBit : Bool) (rn crd cpNum : BitVec 4) (offset8 : BitVec 8)
  /-- `STC`, ARM: `cond:4 110 P:1 U:1 N:1 W:1 0 Rn:4 CRd:4 cp_num:4 offset_8:8` (`44_cp14_cp7` R868). -/
  | stc (cond : Cond) (pBit uBit nBit wBit : Bool) (rn crd cpNum : BitVec 4) (offset8 : BitVec 8)
  /-- `CDP`, ARM: `cond:4 1110 opcode_1:4 CRn:4 CRd:4 cp_num:4 opcode_2:3 0 CRm:4` (`44_cp14_cp7` R869). -/
  | cdp (cond : Cond) (opcode1 crn crd cpNum : BitVec 4) (opcode2 : BitVec 3) (crm : BitVec 4)
  /-- `MIA`, ARM: `cond:4 1110 0010 0000 Rs:4 0000 acc:3 1 Rm:4` (`42_cp0_accumulator` R752). -/
  | mia (cond : Cond) (rs : BitVec 4) (acc : BitVec 3) (rm : BitVec 4)
  /-- `MIAPH`, ARM: `cond:4 1110 0010 1000 Rs:4 0000 acc:3 1 Rm:4` (`42_cp0_accumulator` R753). -/
  | miaph (cond : Cond) (rs : BitVec 4) (acc : BitVec 3) (rm : BitVec 4)
  /-- `MIABB`, ARM: `cond:4 1110 0010 1100 Rs:4 0000 acc:3 1 Rm:4` (`42_cp0_accumulator` R754). -/
  | miabb (cond : Cond) (rs : BitVec 4) (acc : BitVec 3) (rm : BitVec 4)
  /-- `MIABT`, ARM: `cond:4 1110 0010 1101 Rs:4 0000 acc:3 1 Rm:4` (`42_cp0_accumulator` R755). -/
  | miabt (cond : Cond) (rs : BitVec 4) (acc : BitVec 3) (rm : BitVec 4)
  /-- `MIATB`, ARM: `cond:4 1110 0010 1110 Rs:4 0000 acc:3 1 Rm:4` (`42_cp0_accumulator` R756). -/
  | miatb (cond : Cond) (rs : BitVec 4) (acc : BitVec 3) (rm : BitVec 4)
  /-- `MIATT`, ARM: `cond:4 1110 0010 1111 Rs:4 0000 acc:3 1 Rm:4` (`42_cp0_accumulator` R757). -/
  | miatt (cond : Cond) (rs : BitVec 4) (acc : BitVec 3) (rm : BitVec 4)
  /-- `MCR_p15__0__Rd__c7__c5__0__Invalidate_I_cache___BTB`, ARM: `cond:4 1110 000 0 0111 Rd:4 1111 000 1 0101` (`43_cp15_functions` R775). -/
  | mcrInvICacheBtb (cond : Cond) (rd : BitVec 4)
  /-- `MCR_p15__0__Rd__c7__c5__1__Invalidate_I_cache_line`, ARM: `cond:4 1110 000 0 0111 Rd:4 1111 001 1 0101` (`43_cp15_functions` R776). -/
  | mcrInvICacheLine (cond : Cond) (rd : BitVec 4)
  /-- `MCR_p15__0__Rd__c7__c5__6__Invalidate_BTB`, ARM: `cond:4 1110 000 0 0111 Rd:4 1111 110 1 0101` (`43_cp15_functions` R777). -/
  | mcrInvBtb (cond : Cond) (rd : BitVec 4)
  /-- `MCR_p15__0__Rd__c7__c6__0__Invalidate_D_cache`, ARM: `cond:4 1110 000 0 0111 Rd:4 1111 000 1 0110` (`43_cp15_functions` R778). -/
  | mcrInvDCache (cond : Cond) (rd : BitVec 4)
  /-- `MCR_p15__0__Rd__c7__c6__1__Invalidate_D_cache_line`, ARM: `cond:4 1110 000 0 0111 Rd:4 1111 001 1 0110` (`43_cp15_functions` R779). -/
  | mcrInvDCacheLine (cond : Cond) (rd : BitVec 4)
  /-- `MCR_p15__0__Rd__c7__c7__0__Invalidate_I_D_cache___BTB`, ARM: `cond:4 1110 000 0 0111 Rd:4 1111 000 1 0111` (`43_cp15_functions` R780). -/
  | mcrInvCachesBtb (cond : Cond) (rd : BitVec 4)
  /-- `MCR_p15__0__Rd__c7__c10__1__Clean_D_cache_line_by_MVA`, ARM: `cond:4 1110 000 0 0111 Rd:4 1111 001 1 1010` (`43_cp15_functions` R781). -/
  | mcrCleanDLineMva (cond : Cond) (rd : BitVec 4)
  /-- `MCR_p15__0__Rd__c7__c10__2__Clean_D_cache_line_by_set_wa`, ARM: `cond:4 1110 000 0 0111 Rd:4 1111 010 1 1010` (`43_cp15_functions` R782). -/
  | mcrCleanDLineSetWay (cond : Cond) (rd : BitVec 4)
  /-- `MCR_p15__0__Rd__c7__c14__1__Clean___Invalidate_D_cache_l`, ARM: `cond:4 1110 000 0 0111 Rd:4 1111 001 1 1110` (`43_cp15_functions` R783). -/
  | mcrCleanInvDLineMva (cond : Cond) (rd : BitVec 4)
  /-- `MCR_p15__0__Rd__c7__c14__2__Clean___Invalidate_D_cache_l`, ARM: `cond:4 1110 000 0 0111 Rd:4 1111 010 1 1110` (`43_cp15_functions` R784). -/
  | mcrCleanInvDLineSetWay (cond : Cond) (rd : BitVec 4)
  /-- `MCR_p15__1__Rd__c7__c7__1__Invalidate_L2_cache_line`, ARM: `cond:4 1110 001 0 0111 Rd:4 1111 001 1 0111` (`43_cp15_functions` R785). -/
  | mcrInvL2Line (cond : Cond) (rd : BitVec 4)
  /-- `MCR_p15__1__Rd__c7__c11__1__Clean_L2_cache_line_by_MVA`, ARM: `cond:4 1110 001 0 0111 Rd:4 1111 001 1 1011` (`43_cp15_functions` R786). -/
  | mcrCleanL2LineMva (cond : Cond) (rd : BitVec 4)
  /-- `MCR_p15__1__Rd__c7__c11__2__Clean_L2_cache_line_by_set_w`, ARM: `cond:4 1110 001 0 0111 Rd:4 1111 010 1 1011` (`43_cp15_functions` R787). -/
  | mcrCleanL2LineSetWay (cond : Cond) (rd : BitVec 4)
  /-- `MCR_p15__1__Rd__c7__c15__2__Clean___Invalidate_L2_cache`, ARM: `cond:4 1110 001 0 0111 Rd:4 1111 010 1 1111` (`43_cp15_functions` R788). -/
  | mcrCleanInvL2LineSetWay (cond : Cond) (rd : BitVec 4)
  /-- `MCR_p15__0__Rd__c7__c5__4__PF__Prefetch_Flush`, ARM: `cond:4 1110 000 0 0111 Rd:4 1111 100 1 0101` (`43_cp15_functions` R789). -/
  | mcrPrefetchFlush (cond : Cond) (rd : BitVec 4)
  /-- `MCR_p15__0__Rd__c7__c10__4__DWB__Data_Write_Barrier`, ARM: `cond:4 1110 000 0 0111 Rd:4 1111 100 1 1010` (`43_cp15_functions` R790). -/
  | mcrDataWriteBarrier (cond : Cond) (rd : BitVec 4)
  /-- `MCR_p15__0__Rd__c7__c10__5__DMB__Data_Memory_Barrier`, ARM: `cond:4 1110 000 0 0111 Rd:4 1111 101 1 1010` (`43_cp15_functions` R791). -/
  | mcrDataMemoryBarrier (cond : Cond) (rd : BitVec 4)
  /-- `MCR_p15__0__Rd__c7__c2__5__Data_Cache_Line_Allocate`, ARM: `cond:4 1110 000 0 0111 Rd:4 1111 101 1 0010` (`43_cp15_functions` R792). -/
  | mcrDLineAllocate (cond : Cond) (rd : BitVec 4)
  /-- `MCR_p15__0__Rd__c8__c7__0__Invalidate_I_D_TLB`, ARM: `cond:4 1110 000 0 1000 Rd:4 1111 000 1 0111` (`43_cp15_functions` R800). -/
  | mcrInvTlbs (cond : Cond) (rd : BitVec 4)
  /-- `MCR_p15__0__Rd__c8__c5__0__Invalidate_I_TLB`, ARM: `cond:4 1110 000 0 1000 Rd:4 1111 000 1 0101` (`43_cp15_functions` R801). -/
  | mcrInvITlb (cond : Cond) (rd : BitVec 4)
  /-- `MCR_p15__0__Rd__c8__c5__1__Invalidate_I_TLB_entry`, ARM: `cond:4 1110 000 0 1000 Rd:4 1111 001 1 0101` (`43_cp15_functions` R802). -/
  | mcrInvITlbEntry (cond : Cond) (rd : BitVec 4)
  /-- `MCR_p15__0__Rd__c8__c6__0__Invalidate_D_TLB`, ARM: `cond:4 1110 000 0 1000 Rd:4 1111 000 1 0110` (`43_cp15_functions` R803). -/
  | mcrInvDTlb (cond : Cond) (rd : BitVec 4)
  /-- `MCR_p15__0__Rd__c8__c6__1__Invalidate_D_TLB_entry`, ARM: `cond:4 1110 000 0 1000 Rd:4 1111 001 1 0110` (`43_cp15_functions` R804). -/
  | mcrInvDTlbEntry (cond : Cond) (rd : BitVec 4)
  /-- `MCR_p15__0__Rd__c9__c5__0__Fetch_and_Lock_I_cache_line`, ARM: `cond:4 1110 000 0 1001 Rd:4 1111 000 1 0101` (`43_cp15_functions` R810). -/
  | mcrLockILine (cond : Cond) (rd : BitVec 4)
  /-- `MCR_p15__1__Rd__c9__c5__0__Fetch_and_Lock_L2_cache_line`, ARM: `cond:4 1110 001 0 1001 Rd:4 1111 000 1 0101` (`43_cp15_functions` R811). -/
  | mcrLockL2Line (cond : Cond) (rd : BitVec 4)
  /-- `MCR_p15__0__Rd__c9__c5__1__Unlock_I_cache`, ARM: `cond:4 1110 000 0 1001 Rd:4 1111 001 1 0101` (`43_cp15_functions` R812). -/
  | mcrUnlockICache (cond : Cond) (rd : BitVec 4)
  /-- `MCR_p15__1__Rd__c9__c5__1__Unlock_L2_cache`, ARM: `cond:4 1110 001 0 1001 Rd:4 1111 001 1 0101` (`43_cp15_functions` R813). -/
  | mcrUnlockL2 (cond : Cond) (rd : BitVec 4)
  /-- `MCR_p15__1__Rd__c9__c5__2__Allocate_and_Lock_L2_cache_li`, ARM: `cond:4 1110 001 0 1001 Rd:4 1111 010 1 0101` (`43_cp15_functions` R814). -/
  | mcrAllocLockL2Line (cond : Cond) (rd : BitVec 4)
  /-- `MRC_p15__0__Rd__c9__c6__0__read_Data_Cache_Lock_Register`, ARM: `cond:4 1110 000 1 1001 Rd:4 1111 000 1 0110` (`43_cp15_functions` R815). -/
  | mrcDLock (cond : Cond) (rd : BitVec 4)
  /-- `MCR_p15__0__Rd__c9__c6__0__write_Data_Cache_Lock_Registe`, ARM: `cond:4 1110 000 0 1001 Rd:4 1111 000 1 0110` (`43_cp15_functions` R815). -/
  | mcrDLock (cond : Cond) (rd : BitVec 4)
  /-- `MCR_p15__0__Rd__c9__c6__1__Unlock_D_cache`, ARM: `cond:4 1110 000 0 1001 Rd:4 1111 001 1 0110` (`43_cp15_functions` R816). -/
  | mcrUnlockDCache (cond : Cond) (rd : BitVec 4)
  /-- `MCR_p15__0__Rd__c9__c1__0__Fetch_and_Lock_I_cache_line`, ARM: `cond:4 1110 000 0 1001 Rd:4 1111 000 1 0001` (`43_cp15_functions` R817). -/
  | mcrLockILineLegacy (cond : Cond) (rd : BitVec 4)
  /-- `MCR_p15__0__Rd__c9__c1__1__Unlock_I_cache__legacy`, ARM: `cond:4 1110 000 0 1001 Rd:4 1111 001 1 0001` (`43_cp15_functions` R817). -/
  | mcrUnlockICacheLegacy (cond : Cond) (rd : BitVec 4)
  /-- `MRC_p15__0__Rd__c9__c2__0__read_Data_Cache_Lock_Register`, ARM: `cond:4 1110 000 1 1001 Rd:4 1111 000 1 0010` (`43_cp15_functions` R817). -/
  | mrcDLockLegacy (cond : Cond) (rd : BitVec 4)
  /-- `MCR_p15__0__Rd__c9__c2__0__write_Data_Cache_Lock_Registe`, ARM: `cond:4 1110 000 0 1001 Rd:4 1111 000 1 0010` (`43_cp15_functions` R817). -/
  | mcrDLockLegacy (cond : Cond) (rd : BitVec 4)
  /-- `MCR_p15__0__Rd__c9__c2__1__Unlock_D_cache__legacy`, ARM: `cond:4 1110 000 0 1001 Rd:4 1111 001 1 0010` (`43_cp15_functions` R817). -/
  | mcrUnlockDCacheLegacy (cond : Cond) (rd : BitVec 4)
  /-- `MCR_p15__0__Rd__c10__c4__0__Translate_and_Lock_I_TLB_ent`, ARM: `cond:4 1110 000 0 1010 Rd:4 1111 000 1 0100` (`43_cp15_functions` R820). -/
  | mcrLockITlbEntry (cond : Cond) (rd : BitVec 4)
  /-- `MCR_p15__0__Rd__c10__c4__1__Unlock_I_TLB`, ARM: `cond:4 1110 000 0 1010 Rd:4 1111 001 1 0100` (`43_cp15_functions` R821). -/
  | mcrUnlockITlb (cond : Cond) (rd : BitVec 4)
  /-- `MCR_p15__0__Rd__c10__c8__0__Translate_and_Lock_D_TLB_ent`, ARM: `cond:4 1110 000 0 1010 Rd:4 1111 000 1 1000` (`43_cp15_functions` R822). -/
  | mcrLockDTlbEntry (cond : Cond) (rd : BitVec 4)
  /-- `MCR_p15__0__Rd__c10__c8__1__Unlock_D_TLB`, ARM: `cond:4 1110 000 0 1010 Rd:4 1111 001 1 1000` (`43_cp15_functions` R823). -/
  | mcrUnlockDTlb (cond : Cond) (rd : BitVec 4)
  /-- `MRC_p15__0__Rd__c0__c0__0__read_Main_ID_register`, ARM: `cond:4 1110 000 1 0000 Rd:4 1111 000 1 0000` (`10_state` R71). -/
  | mrcMainId (cond : Cond) (rd : BitVec 4)
  /-- `MCR_p15__0__Rd__c0__c0__0__write_Main_ID_register`, ARM: `cond:4 1110 000 0 0000 Rd:4 1111 000 1 0000` (`10_state` R71). -/
  | mcrMainId (cond : Cond) (rd : BitVec 4)
  /-- `MRC_p15__0__Rd__c0__c0__1__read_L1_Cache_Type_register`, ARM: `cond:4 1110 000 1 0000 Rd:4 1111 001 1 0000` (`10_state` R72). -/
  | mrcCacheType (cond : Cond) (rd : BitVec 4)
  /-- `MCR_p15__0__Rd__c0__c0__1__write_L1_Cache_Type_register`, ARM: `cond:4 1110 000 0 0000 Rd:4 1111 001 1 0000` (`10_state` R72). -/
  | mcrCacheType (cond : Cond) (rd : BitVec 4)
  /-- `MRC_p15__1__Rd__c0__c0__0__read_L2_System_ID_register`, ARM: `cond:4 1110 001 1 0000 Rd:4 1111 000 1 0000` (`10_state` R73). -/
  | mrcL2SystemId (cond : Cond) (rd : BitVec 4)
  /-- `MCR_p15__1__Rd__c0__c0__0__write_L2_System_ID_register`, ARM: `cond:4 1110 001 0 0000 Rd:4 1111 000 1 0000` (`10_state` R73). -/
  | mcrL2SystemId (cond : Cond) (rd : BitVec 4)
  /-- `MRC_p15__1__Rd__c0__c0__1__read_L2_Cache_Type_register`, ARM: `cond:4 1110 001 1 0000 Rd:4 1111 001 1 0000` (`10_state` R74). -/
  | mrcL2CacheType (cond : Cond) (rd : BitVec 4)
  /-- `MCR_p15__1__Rd__c0__c0__1__write_L2_Cache_Type_register`, ARM: `cond:4 1110 001 0 0000 Rd:4 1111 001 1 0000` (`10_state` R74). -/
  | mcrL2CacheType (cond : Cond) (rd : BitVec 4)
  /-- `MRC_p15__0__Rd__c1__c0__0__read_Control_register`, ARM: `cond:4 1110 000 1 0001 Rd:4 1111 000 1 0000` (`10_state` R75). -/
  | mrcControl (cond : Cond) (rd : BitVec 4)
  /-- `MCR_p15__0__Rd__c1__c0__0__write_Control_register`, ARM: `cond:4 1110 000 0 0001 Rd:4 1111 000 1 0000` (`10_state` R75). -/
  | mcrControl (cond : Cond) (rd : BitVec 4)
  /-- `MRC_p15__0__Rd__c1__c0__1__read_Auxiliary_Control_regist`, ARM: `cond:4 1110 000 1 0001 Rd:4 1111 001 1 0000` (`10_state` R77). -/
  | mrcAuxControl (cond : Cond) (rd : BitVec 4)
  /-- `MCR_p15__0__Rd__c1__c0__1__write_Auxiliary_Control_regis`, ARM: `cond:4 1110 000 0 0001 Rd:4 1111 001 1 0000` (`10_state` R77). -/
  | mcrAuxControl (cond : Cond) (rd : BitVec 4)
  /-- `MRC_p15__0__Rd__c2__c0__0__read_Translation_Table_Base_r`, ARM: `cond:4 1110 000 1 0010 Rd:4 1111 000 1 0000` (`10_state` R79). -/
  | mrcTtBase (cond : Cond) (rd : BitVec 4)
  /-- `MCR_p15__0__Rd__c2__c0__0__write_Translation_Table_Base`, ARM: `cond:4 1110 000 0 0010 Rd:4 1111 000 1 0000` (`10_state` R79). -/
  | mcrTtBase (cond : Cond) (rd : BitVec 4)
  /-- `MRC_p15__0__Rd__c3__c0__0__read_Domain_Access_Control_re`, ARM: `cond:4 1110 000 1 0011 Rd:4 1111 000 1 0000` (`10_state` R80). -/
  | mrcDacr (cond : Cond) (rd : BitVec 4)
  /-- `MCR_p15__0__Rd__c3__c0__0__write_Domain_Access_Control_r`, ARM: `cond:4 1110 000 0 0011 Rd:4 1111 000 1 0000` (`10_state` R80). -/
  | mcrDacr (cond : Cond) (rd : BitVec 4)
  /-- `MRC_p15__0__Rd__c5__c0__0__read_Fault_Status_register`, ARM: `cond:4 1110 000 1 0101 Rd:4 1111 000 1 0000` (`10_state` R82). -/
  | mrcFsr (cond : Cond) (rd : BitVec 4)
  /-- `MCR_p15__0__Rd__c5__c0__0__write_Fault_Status_register`, ARM: `cond:4 1110 000 0 0101 Rd:4 1111 000 1 0000` (`10_state` R82). -/
  | mcrFsr (cond : Cond) (rd : BitVec 4)
  /-- `MRC_p15__0__Rd__c6__c0__0__read_Fault_Address_register`, ARM: `cond:4 1110 000 1 0110 Rd:4 1111 000 1 0000` (`10_state` R83). -/
  | mrcFar (cond : Cond) (rd : BitVec 4)
  /-- `MCR_p15__0__Rd__c6__c0__0__write_Fault_Address_register`, ARM: `cond:4 1110 000 0 0110 Rd:4 1111 000 1 0000` (`10_state` R83). -/
  | mcrFar (cond : Cond) (rd : BitVec 4)
  /-- `MRC_p15__0__Rd__c13__c0__0__read_Process_ID_register`, ARM: `cond:4 1110 000 1 1101 Rd:4 1111 000 1 0000` (`10_state` R98). -/
  | mrcProcessId (cond : Cond) (rd : BitVec 4)
  /-- `MCR_p15__0__Rd__c13__c0__0__write_Process_ID_register`, ARM: `cond:4 1110 000 0 1101 Rd:4 1111 000 1 0000` (`10_state` R98). -/
  | mcrProcessId (cond : Cond) (rd : BitVec 4)
  /-- `MRC_p15__0__Rd__c14__c8__0__read_IBR0_register`, ARM: `cond:4 1110 000 1 1110 Rd:4 1111 000 1 1000` (`10_state` R100). -/
  | mrcIbr0 (cond : Cond) (rd : BitVec 4)
  /-- `MCR_p15__0__Rd__c14__c8__0__write_IBR0_register`, ARM: `cond:4 1110 000 0 1110 Rd:4 1111 000 1 1000` (`10_state` R100). -/
  | mcrIbr0 (cond : Cond) (rd : BitVec 4)
  /-- `MRC_p15__0__Rd__c14__c9__0__read_IBR1_register`, ARM: `cond:4 1110 000 1 1110 Rd:4 1111 000 1 1001` (`10_state` R100). -/
  | mrcIbr1 (cond : Cond) (rd : BitVec 4)
  /-- `MCR_p15__0__Rd__c14__c9__0__write_IBR1_register`, ARM: `cond:4 1110 000 0 1110 Rd:4 1111 000 1 1001` (`10_state` R100). -/
  | mcrIbr1 (cond : Cond) (rd : BitVec 4)
  /-- `MRC_p15__0__Rd__c14__c0__0__read_DBR0_register`, ARM: `cond:4 1110 000 1 1110 Rd:4 1111 000 1 0000` (`10_state` R101). -/
  | mrcDbr0 (cond : Cond) (rd : BitVec 4)
  /-- `MCR_p15__0__Rd__c14__c0__0__write_DBR0_register`, ARM: `cond:4 1110 000 0 1110 Rd:4 1111 000 1 0000` (`10_state` R101). -/
  | mcrDbr0 (cond : Cond) (rd : BitVec 4)
  /-- `MRC_p15__0__Rd__c14__c3__0__read_DBR1_register`, ARM: `cond:4 1110 000 1 1110 Rd:4 1111 000 1 0011` (`10_state` R101). -/
  | mrcDbr1 (cond : Cond) (rd : BitVec 4)
  /-- `MCR_p15__0__Rd__c14__c3__0__write_DBR1_register`, ARM: `cond:4 1110 000 0 1110 Rd:4 1111 000 1 0011` (`10_state` R101). -/
  | mcrDbr1 (cond : Cond) (rd : BitVec 4)
  /-- `MRC_p15__0__Rd__c14__c4__0__read_DBCON_register`, ARM: `cond:4 1110 000 1 1110 Rd:4 1111 000 1 0100` (`10_state` R102). -/
  | mrcDbcon (cond : Cond) (rd : BitVec 4)
  /-- `MCR_p15__0__Rd__c14__c4__0__write_DBCON_register`, ARM: `cond:4 1110 000 0 1110 Rd:4 1111 000 1 0100` (`10_state` R102). -/
  | mcrDbcon (cond : Cond) (rd : BitVec 4)
  /-- `MRC_p15__0__Rd__c15__c1__0__read_Coprocessor_Access_regi`, ARM: `cond:4 1110 000 1 1111 Rd:4 1111 000 1 0001` (`10_state` R103). -/
  | mrcCpar (cond : Cond) (rd : BitVec 4)
  /-- `MCR_p15__0__Rd__c15__c1__0__write_Coprocessor_Access_reg`, ARM: `cond:4 1110 000 0 1111 Rd:4 1111 000 1 0001` (`10_state` R103). -/
  | mcrCpar (cond : Cond) (rd : BitVec 4)
  /-- `MRC_p14__0__Rd__c0__c1__0__read_PMNC`, ARM: `cond:4 1110 000 1 0000 Rd:4 1110 000 1 0001` (`44_cp14_cp7` R851). -/
  | mrcPmnc (cond : Cond) (rd : BitVec 4)
  /-- `MCR_p14__0__Rd__c0__c1__0__write_PMNC`, ARM: `cond:4 1110 000 0 0000 Rd:4 1110 000 1 0001` (`44_cp14_cp7` R851). -/
  | mcrPmnc (cond : Cond) (rd : BitVec 4)
  /-- `MRC_p14__0__Rd__c1__c1__0__read_CCNT`, ARM: `cond:4 1110 000 1 0001 Rd:4 1110 000 1 0001` (`44_cp14_cp7` R851). -/
  | mrcCcnt (cond : Cond) (rd : BitVec 4)
  /-- `MCR_p14__0__Rd__c1__c1__0__write_CCNT`, ARM: `cond:4 1110 000 0 0001 Rd:4 1110 000 1 0001` (`44_cp14_cp7` R851). -/
  | mcrCcnt (cond : Cond) (rd : BitVec 4)
  /-- `MRC_p14__0__Rd__c4__c1__0__read_INTEN`, ARM: `cond:4 1110 000 1 0100 Rd:4 1110 000 1 0001` (`44_cp14_cp7` R851). -/
  | mrcInten (cond : Cond) (rd : BitVec 4)
  /-- `MCR_p14__0__Rd__c4__c1__0__write_INTEN`, ARM: `cond:4 1110 000 0 0100 Rd:4 1110 000 1 0001` (`44_cp14_cp7` R851). -/
  | mcrInten (cond : Cond) (rd : BitVec 4)
  /-- `MRC_p14__0__Rd__c5__c1__0__read_FLAG`, ARM: `cond:4 1110 000 1 0101 Rd:4 1110 000 1 0001` (`44_cp14_cp7` R851). -/
  | mrcFlag (cond : Cond) (rd : BitVec 4)
  /-- `MCR_p14__0__Rd__c5__c1__0__write_FLAG`, ARM: `cond:4 1110 000 0 0101 Rd:4 1110 000 1 0001` (`44_cp14_cp7` R851). -/
  | mcrFlag (cond : Cond) (rd : BitVec 4)
  /-- `MRC_p14__0__Rd__c8__c1__0__read_EVTSEL`, ARM: `cond:4 1110 000 1 1000 Rd:4 1110 000 1 0001` (`44_cp14_cp7` R851). -/
  | mrcEvtsel (cond : Cond) (rd : BitVec 4)
  /-- `MCR_p14__0__Rd__c8__c1__0__write_EVTSEL`, ARM: `cond:4 1110 000 0 1000 Rd:4 1110 000 1 0001` (`44_cp14_cp7` R851). -/
  | mcrEvtsel (cond : Cond) (rd : BitVec 4)
  /-- `MRC_p14__0__Rd__c0__c2__0__read_PMN0`, ARM: `cond:4 1110 000 1 0000 Rd:4 1110 000 1 0010` (`44_cp14_cp7` R851). -/
  | mrcPmn0 (cond : Cond) (rd : BitVec 4)
  /-- `MCR_p14__0__Rd__c0__c2__0__write_PMN0`, ARM: `cond:4 1110 000 0 0000 Rd:4 1110 000 1 0010` (`44_cp14_cp7` R851). -/
  | mcrPmn0 (cond : Cond) (rd : BitVec 4)
  /-- `MRC_p14__0__Rd__c1__c2__0__read_PMN1`, ARM: `cond:4 1110 000 1 0001 Rd:4 1110 000 1 0010` (`44_cp14_cp7` R851). -/
  | mrcPmn1 (cond : Cond) (rd : BitVec 4)
  /-- `MCR_p14__0__Rd__c1__c2__0__write_PMN1`, ARM: `cond:4 1110 000 0 0001 Rd:4 1110 000 1 0010` (`44_cp14_cp7` R851). -/
  | mcrPmn1 (cond : Cond) (rd : BitVec 4)
  /-- `MRC_p14__0__Rd__c2__c2__0__read_PMN2`, ARM: `cond:4 1110 000 1 0010 Rd:4 1110 000 1 0010` (`44_cp14_cp7` R851). -/
  | mrcPmn2 (cond : Cond) (rd : BitVec 4)
  /-- `MCR_p14__0__Rd__c2__c2__0__write_PMN2`, ARM: `cond:4 1110 000 0 0010 Rd:4 1110 000 1 0010` (`44_cp14_cp7` R851). -/
  | mcrPmn2 (cond : Cond) (rd : BitVec 4)
  /-- `MRC_p14__0__Rd__c3__c2__0__read_PMN3`, ARM: `cond:4 1110 000 1 0011 Rd:4 1110 000 1 0010` (`44_cp14_cp7` R851). -/
  | mrcPmn3 (cond : Cond) (rd : BitVec 4)
  /-- `MCR_p14__0__Rd__c3__c2__0__write_PMN3`, ARM: `cond:4 1110 000 0 0011 Rd:4 1110 000 1 0010` (`44_cp14_cp7` R851). -/
  | mcrPmn3 (cond : Cond) (rd : BitVec 4)
  /-- `MRC_p14__0__Rd__c6__c0__0__read_CCLKCFG`, ARM: `cond:4 1110 000 1 0110 Rd:4 1110 000 1 0000` (`44_cp14_cp7` R851). -/
  | mrcCclkcfg (cond : Cond) (rd : BitVec 4)
  /-- `MCR_p14__0__Rd__c6__c0__0__write_CCLKCFG`, ARM: `cond:4 1110 000 0 0110 Rd:4 1110 000 1 0000` (`44_cp14_cp7` R851). -/
  | mcrCclkcfg (cond : Cond) (rd : BitVec 4)
  /-- `MRC_p14__0__Rd__c7__c0__0__read_PWRMODE`, ARM: `cond:4 1110 000 1 0111 Rd:4 1110 000 1 0000` (`44_cp14_cp7` R851). -/
  | mrcPwrmode (cond : Cond) (rd : BitVec 4)
  /-- `MCR_p14__0__Rd__c7__c0__0__write_PWRMODE`, ARM: `cond:4 1110 000 0 0111 Rd:4 1110 000 1 0000` (`44_cp14_cp7` R851). -/
  | mcrPwrmode (cond : Cond) (rd : BitVec 4)
  /-- `MCR_p14__0__Rd__c8__c0__0__write_TX`, ARM: `cond:4 1110 000 0 1000 Rd:4 1110 000 1 0000` (`44_cp14_cp7` R851). -/
  | mcrTx (cond : Cond) (rd : BitVec 4)
  /-- `MRC_p14__0__Rd__c9__c0__0__read_RX`, ARM: `cond:4 1110 000 1 1001 Rd:4 1110 000 1 0000` (`44_cp14_cp7` R851). -/
  | mrcRx (cond : Cond) (rd : BitVec 4)
  /-- `MRC_p14__0__Rd__c10__c0__0__read_DCSR`, ARM: `cond:4 1110 000 1 1010 Rd:4 1110 000 1 0000` (`44_cp14_cp7` R851). -/
  | mrcDcsr (cond : Cond) (rd : BitVec 4)
  /-- `MCR_p14__0__Rd__c10__c0__0__write_DCSR`, ARM: `cond:4 1110 000 0 1010 Rd:4 1110 000 1 0000` (`44_cp14_cp7` R851). -/
  | mcrDcsr (cond : Cond) (rd : BitVec 4)
  /-- `MRC_p14__0__Rd__c11__c0__0__read_TBREG`, ARM: `cond:4 1110 000 1 1011 Rd:4 1110 000 1 0000` (`44_cp14_cp7` R851). -/
  | mrcTbreg (cond : Cond) (rd : BitVec 4)
  /-- `MRC_p14__0__Rd__c12__c0__0__read_CHKPT0`, ARM: `cond:4 1110 000 1 1100 Rd:4 1110 000 1 0000` (`44_cp14_cp7` R851). -/
  | mrcChkpt0 (cond : Cond) (rd : BitVec 4)
  /-- `MCR_p14__0__Rd__c12__c0__0__write_CHKPT0`, ARM: `cond:4 1110 000 0 1100 Rd:4 1110 000 1 0000` (`44_cp14_cp7` R851). -/
  | mcrChkpt0 (cond : Cond) (rd : BitVec 4)
  /-- `MRC_p14__0__Rd__c13__c0__0__read_CHKPT1`, ARM: `cond:4 1110 000 1 1101 Rd:4 1110 000 1 0000` (`44_cp14_cp7` R851). -/
  | mrcChkpt1 (cond : Cond) (rd : BitVec 4)
  /-- `MCR_p14__0__Rd__c13__c0__0__write_CHKPT1`, ARM: `cond:4 1110 000 0 1101 Rd:4 1110 000 1 0000` (`44_cp14_cp7` R851). -/
  | mcrChkpt1 (cond : Cond) (rd : BitVec 4)
  /-- `MRC_p14__0__Rd__c14__c0__0__read_TXRXCTRL`, ARM: `cond:4 1110 000 1 1110 Rd:4 1110 000 1 0000` (`44_cp14_cp7` R851). -/
  | mrcTxrxctrl (cond : Cond) (rd : BitVec 4)
  /-- `MCR_p14__0__Rd__c14__c0__0__write_TXRXCTRL`, ARM: `cond:4 1110 000 0 1110 Rd:4 1110 000 1 0000` (`44_cp14_cp7` R851). -/
  | mcrTxrxctrl (cond : Cond) (rd : BitVec 4)
  /-- `MRC_p7__0__Rd__c0__c2__0__read_ERRLOG__10_state.md_rule`, ARM: `cond:4 1110 000 1 0000 Rd:4 0111 000 1 0010` (`44_cp14_cp7` R861). -/
  | mrcErrlog (cond : Cond) (rd : BitVec 4)
  /-- `MCR_p7__0__Rd__c0__c2__0__write_ERRLOG__10_state.md_rule`, ARM: `cond:4 1110 000 0 0000 Rd:4 0111 000 1 0010` (`44_cp14_cp7` R861). -/
  | mcrErrlog (cond : Cond) (rd : BitVec 4)
  /-- `MRC_p7__0__Rd__c1__c2__0__read_ERRADRL__10_state.md_rule`, ARM: `cond:4 1110 000 1 0001 Rd:4 0111 000 1 0010` (`44_cp14_cp7` R861). -/
  | mrcErradrl (cond : Cond) (rd : BitVec 4)
  /-- `MCR_p7__0__Rd__c1__c2__0__write_ERRADRL__10_state.md_rul`, ARM: `cond:4 1110 000 0 0001 Rd:4 0111 000 1 0010` (`44_cp14_cp7` R861). -/
  | mcrErradrl (cond : Cond) (rd : BitVec 4)
  /-- `MRC_p7__0__Rd__c2__c2__0__read_ERRADRU__10_state.md_rule`, ARM: `cond:4 1110 000 1 0010 Rd:4 0111 000 1 0010` (`44_cp14_cp7` R861). -/
  | mrcErradru (cond : Cond) (rd : BitVec 4)
  /-- `MCR_p7__0__Rd__c2__c2__0__write_ERRADRU__10_state.md_rul`, ARM: `cond:4 1110 000 0 0010 Rd:4 0111 000 1 0010` (`44_cp14_cp7` R861). -/
  | mcrErradru (cond : Cond) (rd : BitVec 4)
  /-- `MCR_p15__any_other_encoding`, ARM: `cond:4 1110 opcode_1:3 0 CRn:4 Rd:4 1111 opcode_2:3 1 CRm:4` (`43_cp15_functions` R770). -/
  | mcrP15Other (cond : Cond) (opcode1 : BitVec 3) (crn rd : BitVec 4) (opcode2 : BitVec 3) (crm : BitVec 4)
  /-- `MCR_p14__any_other_encoding`, ARM: `cond:4 1110 opcode_1:3 0 CRn:4 Rd:4 1110 opcode_2:3 1 CRm:4` (`44_cp14_cp7` R850). -/
  | mcrP14Other (cond : Cond) (opcode1 : BitVec 3) (crn rd : BitVec 4) (opcode2 : BitVec 3) (crm : BitVec 4)
  /-- `MCR_p7__CRm___2__any_other_encoding`, ARM: `cond:4 1110 opcode_1:3 0 CRn:4 Rd:4 0111 opcode_2:3 1 0010` (`44_cp14_cp7` R860). -/
  | mcrP7Other (cond : Cond) (opcode1 : BitVec 3) (crn rd : BitVec 4) (opcode2 : BitVec 3)
  /-- `MCR_p0__any_other_encoding`, ARM: `cond:4 1110 opcode_1:3 0 CRn:4 Rd:4 0000 opcode_2:3 1 CRm:4` (`42_cp0_accumulator` R751). -/
  | mcrP0Other (cond : Cond) (opcode1 : BitVec 3) (crn rd : BitVec 4) (opcode2 : BitVec 3) (crm : BitVec 4)
  /-- `MCR`, ARM: `cond:4 1110 opcode_1:3 0 CRn:4 Rd:4 cp_num:4 opcode_2:3 1 CRm:4` (`44_cp14_cp7` R868). -/
  | mcr (cond : Cond) (opcode1 : BitVec 3) (crn rd cpNum : BitVec 4) (opcode2 : BitVec 3) (crm : BitVec 4)
  /-- `MRC_p15__any_other_encoding`, ARM: `cond:4 1110 opcode_1:3 1 CRn:4 Rd:4 1111 opcode_2:3 1 CRm:4` (`43_cp15_functions` R770). -/
  | mrcP15Other (cond : Cond) (opcode1 : BitVec 3) (crn rd : BitVec 4) (opcode2 : BitVec 3) (crm : BitVec 4)
  /-- `MRC_p14__any_other_encoding`, ARM: `cond:4 1110 opcode_1:3 1 CRn:4 Rd:4 1110 opcode_2:3 1 CRm:4` (`44_cp14_cp7` R850). -/
  | mrcP14Other (cond : Cond) (opcode1 : BitVec 3) (crn rd : BitVec 4) (opcode2 : BitVec 3) (crm : BitVec 4)
  /-- `MRC_p7__CRm___2__any_other_encoding`, ARM: `cond:4 1110 opcode_1:3 1 CRn:4 Rd:4 0111 opcode_2:3 1 0010` (`44_cp14_cp7` R860). -/
  | mrcP7Other (cond : Cond) (opcode1 : BitVec 3) (crn rd : BitVec 4) (opcode2 : BitVec 3)
  /-- `MRC_p0__any_other_encoding`, ARM: `cond:4 1110 opcode_1:3 1 CRn:4 Rd:4 0000 opcode_2:3 1 CRm:4` (`42_cp0_accumulator` R751). -/
  | mrcP0Other (cond : Cond) (opcode1 : BitVec 3) (crn rd : BitVec 4) (opcode2 : BitVec 3) (crm : BitVec 4)
  /-- `MRC`, ARM: `cond:4 1110 opcode_1:3 1 CRn:4 Rd:4 cp_num:4 opcode_2:3 1 CRm:4` (`44_cp14_cp7` R868). -/
  | mrc (cond : Cond) (opcode1 : BitVec 3) (crn rd cpNum : BitVec 4) (opcode2 : BitVec 3) (crm : BitVec 4)
  /-- `SWI`, ARM: `cond:4 1111 immed_24:24` (`60_exceptions` R891). -/
  | swi (cond : Cond) (immed24 : BitVec 24)
  /-- `LSL(1)`, Thumb: `00000 imm5:5 Rm:3 Rd:3` (`41_dsp_thumb` R671). -/
  | tLslImm (imm5 : BitVec 5) (rm rd : BitVec 3)
  /-- `LSR(1)`, Thumb: `00001 imm5:5 Rm:3 Rd:3` (`41_dsp_thumb` R672). -/
  | tLsrImm (imm5 : BitVec 5) (rm rd : BitVec 3)
  /-- `ASR(1)`, Thumb: `00010 imm5:5 Rm:3 Rd:3` (`41_dsp_thumb` R673). -/
  | tAsrImm (imm5 : BitVec 5) (rm rd : BitVec 3)
  /-- `ADD(3)`, Thumb: `0001100 Rm:3 Rn:3 Rd:3` (`41_dsp_thumb` R674). -/
  | tAddReg (rm rn rd : BitVec 3)
  /-- `SUB(3)`, Thumb: `0001101 Rm:3 Rn:3 Rd:3` (`41_dsp_thumb` R675). -/
  | tSubReg (rm rn rd : BitVec 3)
  /-- `ADD(1)`, Thumb: `0001110 imm3:3 Rn:3 Rd:3` (`41_dsp_thumb` R676). -/
  | tAddImm3 (imm3 rn rd : BitVec 3)
  /-- `SUB(1)`, Thumb: `0001111 imm3:3 Rn:3 Rd:3` (`41_dsp_thumb` R677). -/
  | tSubImm3 (imm3 rn rd : BitVec 3)
  /-- `MOV(1)`, Thumb: `00100 Rd:3 imm8:8` (`41_dsp_thumb` R678). -/
  | tMovImm (rd : BitVec 3) (imm8 : BitVec 8)
  /-- `CMP(1)`, Thumb: `00101 Rn:3 imm8:8` (`41_dsp_thumb` R679). -/
  | tCmpImm (rn : BitVec 3) (imm8 : BitVec 8)
  /-- `ADD(2)`, Thumb: `00110 Rd:3 imm8:8` (`41_dsp_thumb` R680). -/
  | tAddImm8 (rd : BitVec 3) (imm8 : BitVec 8)
  /-- `SUB(2)`, Thumb: `00111 Rd:3 imm8:8` (`41_dsp_thumb` R681). -/
  | tSubImm8 (rd : BitVec 3) (imm8 : BitVec 8)
  /-- `AND`, Thumb: `010000 0000 Rm:3 Rd:3` (`41_dsp_thumb` R682). -/
  | tAnd (rm rd : BitVec 3)
  /-- `EOR`, Thumb: `010000 0001 Rm:3 Rd:3` (`41_dsp_thumb` R683). -/
  | tEor (rm rd : BitVec 3)
  /-- `LSL(2)`, Thumb: `010000 0010 Rs:3 Rd:3` (`41_dsp_thumb` R684). -/
  | tLslReg (rs rd : BitVec 3)
  /-- `LSR(2)`, Thumb: `010000 0011 Rs:3 Rd:3` (`41_dsp_thumb` R685). -/
  | tLsrReg (rs rd : BitVec 3)
  /-- `ASR(2)`, Thumb: `010000 0100 Rs:3 Rd:3` (`41_dsp_thumb` R686). -/
  | tAsrReg (rs rd : BitVec 3)
  /-- `ADC`, Thumb: `010000 0101 Rm:3 Rd:3` (`41_dsp_thumb` R687). -/
  | tAdc (rm rd : BitVec 3)
  /-- `SBC`, Thumb: `010000 0110 Rm:3 Rd:3` (`41_dsp_thumb` R688). -/
  | tSbc (rm rd : BitVec 3)
  /-- `ROR`, Thumb: `010000 0111 Rs:3 Rd:3` (`41_dsp_thumb` R689). -/
  | tRor (rs rd : BitVec 3)
  /-- `TST`, Thumb: `010000 1000 Rm:3 Rn:3` (`41_dsp_thumb` R690). -/
  | tTst (rm rn : BitVec 3)
  /-- `NEG`, Thumb: `010000 1001 Rm:3 Rd:3` (`41_dsp_thumb` R691). -/
  | tNeg (rm rd : BitVec 3)
  /-- `CMP(2)`, Thumb: `010000 1010 Rm:3 Rn:3` (`41_dsp_thumb` R692). -/
  | tCmpReg (rm rn : BitVec 3)
  /-- `CMN`, Thumb: `010000 1011 Rm:3 Rn:3` (`41_dsp_thumb` R693). -/
  | tCmn (rm rn : BitVec 3)
  /-- `ORR`, Thumb: `010000 1100 Rm:3 Rd:3` (`41_dsp_thumb` R694). -/
  | tOrr (rm rd : BitVec 3)
  /-- `MUL`, Thumb: `010000 1101 Rm:3 Rd:3` (`41_dsp_thumb` R695). -/
  | tMul (rm rd : BitVec 3)
  /-- `BIC`, Thumb: `010000 1110 Rm:3 Rd:3` (`41_dsp_thumb` R696). -/
  | tBic (rm rd : BitVec 3)
  /-- `MVN`, Thumb: `010000 1111 Rm:3 Rd:3` (`41_dsp_thumb` R697). -/
  | tMvn (rm rd : BitVec 3)
  /-- `ADD(4)`, Thumb: `01000100 H1:1 H2:1 Rm:3 Rd:3` (`41_dsp_thumb` R698). -/
  | tAddHigh (h1 h2 : Bool) (rm rd : BitVec 3)
  /-- `CMP(3)`, Thumb: `01000101 H1:1 H2:1 Rm:3 Rn:3` (`41_dsp_thumb` R699). -/
  | tCmpHigh (h1 h2 : Bool) (rm rn : BitVec 3)
  /-- `MOV(3)`, Thumb: `01000110 H1:1 H2:1 Rm:3 Rd:3` (`41_dsp_thumb` R700). -/
  | tMovHigh (h1 h2 : Bool) (rm rd : BitVec 3)
  /-- `BX`, Thumb: `010001110 H2:1 Rm:3 (000)` (`41_dsp_thumb` R701). -/
  | tBx (h2 : Bool) (rm sb : BitVec 3)
  /-- `BLX(2)`, Thumb: `010001111 H2:1 Rm:3 (000)` (`41_dsp_thumb` R702). -/
  | tBlxReg (h2 : Bool) (rm sb : BitVec 3)
  /-- `LDR(3)`, Thumb: `01001 Rd:3 imm8:8` (`41_dsp_thumb` R703). -/
  | tLdrPc (rd : BitVec 3) (imm8 : BitVec 8)
  /-- `STR(2)`, Thumb: `0101 000 Rm:3 Rn:3 Rd:3` (`41_dsp_thumb` R704). -/
  | tStrReg (rm rn rd : BitVec 3)
  /-- `STRH(2)`, Thumb: `0101 001 Rm:3 Rn:3 Rd:3` (`41_dsp_thumb` R705). -/
  | tStrhReg (rm rn rd : BitVec 3)
  /-- `STRB(2)`, Thumb: `0101 010 Rm:3 Rn:3 Rd:3` (`41_dsp_thumb` R706). -/
  | tStrbReg (rm rn rd : BitVec 3)
  /-- `LDRSB`, Thumb: `0101 011 Rm:3 Rn:3 Rd:3` (`41_dsp_thumb` R707). -/
  | tLdrsbReg (rm rn rd : BitVec 3)
  /-- `LDR(2)`, Thumb: `0101 100 Rm:3 Rn:3 Rd:3` (`41_dsp_thumb` R708). -/
  | tLdrReg (rm rn rd : BitVec 3)
  /-- `LDRH(2)`, Thumb: `0101 101 Rm:3 Rn:3 Rd:3` (`41_dsp_thumb` R709). -/
  | tLdrhReg (rm rn rd : BitVec 3)
  /-- `LDRB(2)`, Thumb: `0101 110 Rm:3 Rn:3 Rd:3` (`41_dsp_thumb` R710). -/
  | tLdrbReg (rm rn rd : BitVec 3)
  /-- `LDRSH`, Thumb: `0101 111 Rm:3 Rn:3 Rd:3` (`41_dsp_thumb` R711). -/
  | tLdrshReg (rm rn rd : BitVec 3)
  /-- `STR(1)`, Thumb: `01100 imm5:5 Rn:3 Rd:3` (`41_dsp_thumb` R712). -/
  | tStrImm (imm5 : BitVec 5) (rn rd : BitVec 3)
  /-- `LDR(1)`, Thumb: `01101 imm5:5 Rn:3 Rd:3` (`41_dsp_thumb` R713). -/
  | tLdrImm (imm5 : BitVec 5) (rn rd : BitVec 3)
  /-- `STRB(1)`, Thumb: `01110 imm5:5 Rn:3 Rd:3` (`41_dsp_thumb` R714). -/
  | tStrbImm (imm5 : BitVec 5) (rn rd : BitVec 3)
  /-- `LDRB(1)`, Thumb: `01111 imm5:5 Rn:3 Rd:3` (`41_dsp_thumb` R715). -/
  | tLdrbImm (imm5 : BitVec 5) (rn rd : BitVec 3)
  /-- `STRH(1)`, Thumb: `10000 imm5:5 Rn:3 Rd:3` (`41_dsp_thumb` R716). -/
  | tStrhImm (imm5 : BitVec 5) (rn rd : BitVec 3)
  /-- `LDRH(1)`, Thumb: `10001 imm5:5 Rn:3 Rd:3` (`41_dsp_thumb` R717). -/
  | tLdrhImm (imm5 : BitVec 5) (rn rd : BitVec 3)
  /-- `STR(3)`, Thumb: `10010 Rd:3 imm8:8` (`41_dsp_thumb` R718). -/
  | tStrSp (rd : BitVec 3) (imm8 : BitVec 8)
  /-- `LDR(4)`, Thumb: `10011 Rd:3 imm8:8` (`41_dsp_thumb` R719). -/
  | tLdrSp (rd : BitVec 3) (imm8 : BitVec 8)
  /-- `ADD(5)`, Thumb: `10100 Rd:3 imm8:8` (`41_dsp_thumb` R720). -/
  | tAddPcImm (rd : BitVec 3) (imm8 : BitVec 8)
  /-- `ADD(6)`, Thumb: `10101 Rd:3 imm8:8` (`41_dsp_thumb` R721). -/
  | tAddSpImm (rd : BitVec 3) (imm8 : BitVec 8)
  /-- `ADD(7)`, Thumb: `101100000 imm7:7` (`41_dsp_thumb` R722). -/
  | tIncSp (imm7 : BitVec 7)
  /-- `SUB(4)`, Thumb: `101100001 imm7:7` (`41_dsp_thumb` R723). -/
  | tDecSp (imm7 : BitVec 7)
  /-- `PUSH`, Thumb: `1011010 R:1 register_list:8` (`41_dsp_thumb` R724). -/
  | tPush (rBit : Bool) (registerList : BitVec 8)
  /-- `POP`, Thumb: `1011110 R:1 register_list:8` (`41_dsp_thumb` R725). -/
  | tPop (rBit : Bool) (registerList : BitVec 8)
  /-- `BKPT`, Thumb: `10111110 imm8:8` (`41_dsp_thumb` R732). -/
  | tBkpt (imm8 : BitVec 8)
  /-- `UNDEFINED`, Thumb: `1011 xxxxxxxxxxxx` (`41_dsp_thumb` R733). -/
  | tUndef1011 (raw : BitVec 12)
  /-- `STMIA`, Thumb: `11000 Rn:3 register_list:8` (`41_dsp_thumb` R726). -/
  | tStmia (rn : BitVec 3) (registerList : BitVec 8)
  /-- `LDMIA`, Thumb: `11001 Rn:3 register_list:8` (`41_dsp_thumb` R727). -/
  | tLdmia (rn : BitVec 3) (registerList : BitVec 8)
  /-- `SWI`, Thumb: `11011111 imm8:8` (`41_dsp_thumb` R731). -/
  | tSwi (imm8 : BitVec 8)
  /-- `UNDEFINED`, Thumb: `11011110 xxxxxxxx` (`41_dsp_thumb` R733). -/
  | tUndefCond (raw : BitVec 8)
  /-- `B(1)`, Thumb: `1101 cond:4 simm8:8` (`41_dsp_thumb` R728). -/
  | tBCond (cond : Cond) (simm8 : BitVec 8)
  /-- `B(2)`, Thumb: `11100 simm11:11` (`41_dsp_thumb` R729). -/
  | tB (simm11 : BitVec 11)
  /-- `BLX_1__suffix`, Thumb: `11101 offset11_hi:10 0` (`41_dsp_thumb` R730). -/
  | tBlxSuffix (offset11Hi : BitVec 10)
  /-- `UNDEFINED`, Thumb: `11101 xxxxxxxxxx 1` (`41_dsp_thumb` R733). -/
  | tUndefBlx (raw : BitVec 10)
  /-- `BL___BLX_1__prefix`, Thumb: `11110 offset11:11` (`41_dsp_thumb` R730). -/
  | tBlPrefix (offset11 : BitVec 11)
  /-- `BL_suffix`, Thumb: `11111 offset11:11` (`41_dsp_thumb` R730). -/
  | tBlSuffix (offset11 : BitVec 11)
deriving DecidableEq, Repr

end Sys2Proof
end

