-- ==== Sys2Proof/Machine/Ops.lean ====
section
/-!
DEFINITION. The named operations over tables, memory bytes, registers and status registers; drawing a
free value; the trace buffer; taking an exception and returning from one.
-/
namespace Sys2Proof.Machine

/-! Sparse tables -/

/-- The value at index `k` of a sparse table. -/
def tableGet {α : Type} (k : Nat) : List (Nat × α) → Option α
  | [] => none
  | (j, v) :: rest => if j = k then some v else tableGet k rest

/-- Write index `k`, keeping the indices rising. -/
def tableSet {α : Type} (k : Nat) (v : α) : List (Nat × α) → List (Nat × α)
  | [] => [(k, v)]
  | (j, w) :: rest =>
    if k < j then (k, v) :: (j, w) :: rest
    else if k = j then (k, v) :: rest
    else (j, w) :: tableSet k v rest

/-- Remove index `k`. -/
def tableErase {α : Type} (k : Nat) : List (Nat × α) → List (Nat × α)
  | [] => []
  | (j, w) :: rest => if k = j then tableErase k rest else (j, w) :: tableErase k rest

/-- Change every value of a table. -/
def tableMap {α : Type} (f : α → α) : List (Nat × α) → List (Nat × α)
  | [] => []
  | (j, w) :: rest => (j, f w) :: tableMap f rest

/-- Keep the entries whose value passes a test. -/
def tableKeep {α : Type} (f : α → Bool) : List (Nat × α) → List (Nat × α)
  | [] => []
  | (j, w) :: rest => if f w then (j, w) :: tableKeep f rest else tableKeep f rest

/-! Memory (`20_memory` R200 to R203) -/

/-- What an address that is not listed reads as (notes/assumptions 7). DESIGN CHOICE -/
def unlistedByte : Byte := 0

/-- The byte at a physical address. -/
def memByte (m : List Host.Cell) (a : Nat) : Byte := (tableGet a m).getD unlistedByte

/-- Write a byte, keeping the canonical form. -/
def memSetByte (m : List Host.Cell) (a : Nat) (v : Byte) : List Host.Cell :=
  if v = unlistedByte then tableErase a m else tableSet a v m

/-- The canonical form of memory, from a lower bound on: addresses rise strictly, lie below 2^36, and no
entry holds what an unlisted address reads as. -/
def memWfFrom : Nat → List Host.Cell → Bool
  | _, [] => true
  | lo, (a, v) :: rest =>
    decide (lo ≤ a) && decide (a < 2 ^ 36) && v != unlistedByte && memWfFrom (a + 1) rest

/-- Memory is in its canonical form. -/
def Memory.wf (m : List Host.Cell) : Bool := memWfFrom 0 m

/-- The 32-bit word whose least significant byte is at physical address `a` (`20_memory` R213: the base
store holds words; a big-endian byte is the byte of the other lane). -/
def memWord (m : List Host.Cell) (a : Nat) : Word :=
  memByte m (a + 3) ++ memByte m (a + 2) ++ memByte m (a + 1) ++ memByte m a

/-- Write the bytes `k`, `k + 1`, … of a value whose mask bit is set, `n` bytes in all, at `a + k`, …. -/
def memWriteMasked (w : Nat) (mask : BitVec w) (v : Nat) (a : Nat) :
    Nat → List Host.Cell → List Host.Cell
  | 0, m => m
  | n + 1, m =>
    let m' := memWriteMasked w mask v a n m
    if mask.getLsbD n then memSetByte m' (a + n) (BitVec.ofNat 8 (v / 2 ^ (8 * n))) else m'

/-- The 32 bytes of physical block `line`, the byte at the lowest address least significant. -/
def memLine (m : List Host.Cell) (line : BitVec 31) : BitVec 256 :=
  let a := line.toNat * 32
  memWord m (a + 28) ++ memWord m (a + 24) ++ memWord m (a + 20) ++ memWord m (a + 16) ++
    memWord m (a + 12) ++ memWord m (a + 8) ++ memWord m (a + 4) ++ memWord m a

/-- Write the bytes of block `line` that the mask selects. -/
def memWriteLine (m : List Host.Cell) (line : BitVec 31) (mask : BitVec 32) (data : BitVec 256) :
    List Host.Cell :=
  memWriteMasked 32 mask data.toNat (line.toNat * 32) 32 m

/-- Word `k` of a block. -/
def lineWord (data : BitVec 256) (k : BitVec 3) : Word := data.extractLsb' (32 * k.toNat) 32

/-- The bit mask of a byte mask. -/
def maskBits (mask : BitVec 32) : BitVec 256 :=
  (List.range 32).foldl
    (fun acc k => if mask.getLsbD k then acc ||| (0xFF#256 <<< (8 * k)) else acc) 0

/-- Put the selected bytes of `new` over `old`. -/
def mergeLine (mask : BitVec 32) (old new : BitVec 256) : BitVec 256 :=
  (old &&& ~~~(maskBits mask)) ||| (new &&& maskBits mask)

/-! Registers (`10_state` R30 to R38) -/

/-- `CPSR[4:0]`. -/
def State.mode (s : State) : BitVec 5 := s.cpsr.extractLsb' 0 5

/-- `CPSR.T`. -/
def State.thumb (s : State) : Bool := s.cpsr.getLsbD 5

def modeUser : BitVec 5 := 0b10000
def modeFiq : BitVec 5 := 0b10001
def modeIrq : BitVec 5 := 0b10010
def modeSvc : BitVec 5 := 0b10011
def modeAbort : BitVec 5 := 0b10111
def modeUndef : BitVec 5 := 0b11011
def modeSystem : BitVec 5 := 0b11111
def modeDebug : BitVec 5 := 0b10101

/-- The modes software may select (`10_state` R42); DEBUG mode is entered by debug exceptions only. -/
def isSoftwareMode (m : BitVec 5) : Bool :=
  m == modeUser || m == modeFiq || m == modeIrq || m == modeSvc || m == modeAbort || m == modeUndef ||
    m == modeSystem

/-- The modes of `10_state` R42. -/
def isMode (m : BitVec 5) : Bool := isSoftwareMode m || m == modeDebug

/-- Privileged: every mode but User (`10_state` R42). -/
def State.privileged (s : State) : Bool := s.mode != modeUser

/-- The bank of R13, R14 and the SPSR in a mode (`10_state` R32). -/
def bankOf (m : BitVec 5) : Bank :=
  if m = modeFiq then .fiq
  else if m = modeIrq then .irq
  else if m = modeSvc then .svc
  else if m = modeAbort then .abt
  else if m = modeUndef then .und
  else if m = modeDebug then .dbg
  else .usr

/-- Which pair of R13, R14 a bank has. -/
def Bank.index : Bank → BitVec 5
  | .usr => 0
  | .fiq => 1
  | .irq => 2
  | .svc => 3
  | .abt => 4
  | .und => 5
  | .dbg => 6

/-- The physical register behind the name `Rn` in a mode, for `n` below 15 (`10_state` R31, R32). -/
def physIndex (m : BitVec 5) (n : Reg) : BitVec 5 :=
  if n < 8 then n.setWidth 5
  else if n < 13 then if m = modeFiq then n.setWidth 5 + 5 else n.setWidth 5
  else 18 + 2 * (bankOf m).index + (n.setWidth 5 - 13)

/-- `R_mode[n]` for `n` below 15. -/
def State.regIn (s : State) (m : BitVec 5) (n : Reg) : Word := s.regs.get (physIndex m n).toFin

/-- Write `R_mode[n]` for `n` below 15. -/
def State.setRegIn (s : State) (m : BitVec 5) (n : Reg) (v : Word) : State :=
  { s with regs := s.regs.set (physIndex m n).toNat v (physIndex m n).isLt }

/-- What an operand R15 reads as: two instructions ahead (`10_state` R36). -/
def State.pcRead (s : State) : Word := if s.thumb then s.pc + 4 else s.pc + 8

/-- `R[n]` as an operand (`10_state` R32, R36). -/
def State.reg (s : State) (n : Reg) : Word := if n = 15 then s.pcRead else s.regIn s.mode n

/-- Write `R[n]` for `n` below 15; writes of R15 are the control transfers below. -/
def State.setReg (s : State) (n : Reg) (v : Word) : State := s.setRegIn s.mode n v

/-- A Thumb register field (`10_state` R34). -/
def low (n : BitVec 3) : Reg := n.setWidth 4

/-! Status registers (`10_state` R40, R41) -/

def State.flagN (s : State) : Bool := s.cpsr.getLsbD 31
def State.flagZ (s : State) : Bool := s.cpsr.getLsbD 30
def State.flagC (s : State) : Bool := s.cpsr.getLsbD 29
def State.flagV (s : State) : Bool := s.cpsr.getLsbD 28

/-- Write the four condition flags. -/
def State.setFlags (s : State) (n z c v : Bool) : State :=
  { s with cpsr := BitVec.ofBool n ++ BitVec.ofBool z ++ BitVec.ofBool c ++ BitVec.ofBool v ++
      s.cpsr.extractLsb' 0 28 }

/-- Write N and Z from a 32-bit result, C as given, V unchanged: the logical operations
(`10_state` R43 a). -/
def State.setNZC (s : State) (r : Word) (c : Bool) : State :=
  s.setFlags r.msb (r == 0) c s.flagV

/-- Write N and Z from a 32-bit result, C and V unchanged: the multiplies (`10_state` R43 b). -/
def State.setNZ (s : State) (r : Word) : State := s.setFlags r.msb (r == 0) s.flagC s.flagV

/-- Set the sticky flag Q when `q` holds; it is never cleared here (`10_state` R40). -/
def State.orQ (s : State) (q : Bool) : State :=
  if q then { s with cpsr := s.cpsr ||| 0x08000000 } else s

/-- Write `CPSR.T`. -/
def State.setThumb (s : State) (t : Bool) : State :=
  { s with cpsr := if t then s.cpsr ||| 0x20 else s.cpsr &&& ~~~0x20 }

/-- Which SPSR a bank has; the User bank has none (`10_state` R41). -/
def Bank.spsrIndex : Bank → Option (Fin 6)
  | .usr => none
  | .fiq => some 0
  | .irq => some 1
  | .svc => some 2
  | .abt => some 3
  | .und => some 4
  | .dbg => some 5

/-- The SPSR of a bank. -/
def State.spsrOf (s : State) (b : Bank) : Option Word := b.spsrIndex.map s.spsrs.get

/-- The SPSR of the current mode, if it has one. -/
def State.spsr (s : State) : Option Word := s.spsrOf (bankOf s.mode)

/-- Write the SPSR of a bank. -/
def State.setSpsrOf (s : State) (b : Bank) (v : Word) : State :=
  match b.spsrIndex with
  | some k => { s with spsrs := s.spsrs.set k.val v k.isLt }
  | none => s

/-- `ConditionPassed` (`30_encoding` R452). -/
def condPassed (c : Cond) (s : State) : Bool :=
  match c with
  | .eq => s.flagZ
  | .ne => !s.flagZ
  | .cs => s.flagC
  | .cc => !s.flagC
  | .mi => s.flagN
  | .pl => !s.flagN
  | .vs => s.flagV
  | .vc => !s.flagV
  | .hi => s.flagC && !s.flagZ
  | .ls => !s.flagC || s.flagZ
  | .ge => s.flagN == s.flagV
  | .lt => s.flagN != s.flagV
  | .gt => !s.flagZ && s.flagN == s.flagV
  | .le => s.flagZ || s.flagN != s.flagV
  | .al => true

/-! Control fields -/

/-- Bit `k` of the Control register (`10_state` R75). -/
def State.ctrlBit (s : State) (k : Nat) : Bool := s.cp15.ctrl.getLsbD k

/-- The MMU is enabled. -/
def State.mmuOn (s : State) : Bool := s.ctrlBit 0

/-- Big-endian operation. -/
def State.bigEndian (s : State) : Bool := s.ctrlBit 7

/-- The base of the exception vectors (`60_exceptions` R881). -/
def State.vectorBase (s : State) : Word := if s.ctrlBit 13 then 0xFFFF0000 else 0

/-- Bit `k` of DCSR. -/
def State.dcsrBit (s : State) (k : Nat) : Bool := s.dbg.dcsr.getLsbD k

/-- `DCSR.GE`: the debug functionality is enabled. -/
def State.debugOn (s : State) : Bool := s.dcsrBit 31

/-- `DCSR.H`: Halt Mode. -/
def State.haltMode (s : State) : Bool := s.dcsrBit 30

/-- `PidRemap` (`21_mmu` R282). -/
def State.pidRemap (s : State) (va : Word) : Word :=
  if va.extractLsb' 25 7 = 0 then s.cp15.pid ++ va.extractLsb' 0 25 else va

/-! Instructions that are already fetched (`70_reset_and_hazards` R1131 a; notes/assumptions 29) -/

/-- What instructions are fetched under now. -/
def State.fetchView (s : State) : FetchView := { cp15 := s.cp15, itlb := s.itlb, icache := s.icache }

/-- A CP15 operation changes what instructions are fetched under: those that follow may have been fetched
before it. -/
def State.keepView (s : State) : State := { s with stale := s.stale ++ [s.fetchView] }

/-! Free values (notes/assumptions 8) -/

/-- The next free value of width `w`. -/
def State.freeBits (s : State) (w : Nat) : BitVec w := Config.freeBits w s.free

/-- One free value has been drawn. -/
def State.drawn (s : State) : State := { s with free := s.free + 1 }

/-! The note of the step -/

def State.setFlow (s : State) (f : Flow) : State := { s with note := { s.note with flow := f } }

/-- The instruction is a B or BL, taken or not (`61_debug_pmu_power` R1004, event 0x05). -/
def State.noteB (s : State) : State := { s with note := { s.note with isB := true, isBranch := true } }

/-- The instruction is a branch of another kind (event 0x0E). -/
def State.noteBranch (s : State) : State := { s with note := { s.note with isBranch := true } }

/-- The first half of a Thumb BL or BLX pair (`61_debug_pmu_power` R1061). -/
def State.noteHalf (s : State) : State := { s with note := { s.note with half := true } }

/-- One data access (event 0x0A). -/
def State.noteAccess (s : State) : State :=
  { s with note := { s.note with accesses := s.note.accesses + 1 } }

/-! Moving the pc (`10_state` R35, R37) -/

/-- The address of the next instruction in sequence. -/
def State.nextPc (s : State) : Word := if s.thumb then s.pc + 2 else s.pc + 4

/-- Go on with the next instruction in sequence. -/
def State.advance (s : State) : State := { s with pc := s.nextPc }

/-- Pass an instruction whose condition failed (`30_encoding` R452). -/
def State.skip (s : State) : State := { s.advance with note := { s.note with failed := true } }

/-- A direct branch taken: B, BL. -/
def State.branchDirect (s : State) (target : Word) : State :=
  { s with pc := target, note := { s.note with flow := .direct, wrotePc := true } }

/-- An indirect branch taken, in the state the CPSR selects already. -/
def State.branchIndirect (s : State) (target : Word) : State :=
  { s with pc := target, note := { s.note with flow := .indirect, wrotePc := true, isBranch := true } }

/-- The interworking branch of BX, BLX, LDR, LDM and POP (`10_state` R37 b): bit 0 selects the state; ARM
state with bit 1 set is unpredictable. -/
def State.interwork (s : State) (v : Word) : Host.Outcome State Fault Refusal :=
  if v.getLsbD 0 then .next ((s.setThumb true).branchIndirect (v &&& ~~~1))
  else if v.getLsbD 1 then .refused .pcAlignment
  else .next ((s.setThumb false).branchIndirect v)

/-- A write of the pc that changes no state (`10_state` R37 c). -/
def State.writePc (s : State) (v : Word) : Host.Outcome State Fault Refusal :=
  if s.thumb then .next (s.branchIndirect (v &&& ~~~1))
  else if v.extractLsb' 0 2 = 0 then .next (s.branchIndirect v)
  else .refused .pcAlignment

/-! The performance counters (`10_state` R115, `61_debug_pmu_power` R1001) -/

/-- The event a counter counts. -/
def Pmu.event (p : Pmu) (k : Fin 4) : BitVec 8 := p.evtsel.extractLsb' (8 * k.val) 8

/-- The performance counters, but for CCNT, are enabled. -/
def Pmu.counting (p : Pmu) : Bool := p.e && !p.m

/-- A performance counter is enabled. -/
def Pmu.enabled (p : Pmu) (k : Fin 4) : Bool := p.counting && p.event k != 0xFF

/-! The trace buffer (`61_debug_pmu_power` R1060 to R1068) -/

/-- The trace buffer is enabled: `DCSR.E` and `DCSR.GE`. -/
def State.tracing (s : State) : Bool := s.dcsrBit 0 && s.debugOn

/-- Write one entry at the pointer. In fill-once mode the 256th entry since the enabling raises the
trace-buffer-full break (R1068), which does nothing in Special Debug State (R1022, R1030 a). What is traced after that
entry, the rest of a message that does not fit and what is traced until the break is taken, overwrites the oldest
entries: DESIGN CHOICE, notes/assumptions 27. -/
def State.traceEntry (s : State) (e : BitVec 8) : State :=
  { s with dbg := { s.dbg with
      tb := if e = 0 then tableErase s.dbg.tbPtr.toNat s.dbg.tb else tableSet s.dbg.tbPtr.toNat e s.dbg.tb
      tbPtr := s.dbg.tbPtr + 1
      tbFill := s.dbg.tbFill + 1
      tbMarks := s.dbg.tbMarks.filter (· != s.dbg.tbPtr)
      pendFull := s.dbg.pendFull || (s.dcsrBit 1 && !s.dbg.sds && decide (s.dbg.tbFill + 1 = 256)) } }

/-- Set the incremental word count. -/
def State.setTraceCount (s : State) (n : BitVec 4) : State :=
  { s with dbg := { s.dbg with tbCnt := n } }

/-- Whether a branch message is checkpointed: a free choice while the ring holds fewer than two checkpointed headers, the
one that this header overwrites not counted (R1066; notes/assumptions 27). -/
def State.traceMark (s : State) (target : Word) (kind : BitVec 4) : State :=
  let mark := decide ((s.dbg.tbMarks.filter (· != s.dbg.tbPtr)).length < 2) && (s.freeBits 1 == 1)
  let s1 := s.drawn
  let header := (if mark then kind ||| 0b0100 else kind) ++ s1.dbg.tbCnt
  let s2 :=
    if mark then { s1 with dbg := { s1.dbg with chkpt1 := s1.dbg.chkpt0, chkpt0 := target } } else s1
  let pos := s2.dbg.tbPtr
  let s3 := (s2.traceEntry header).setTraceCount 0
  if mark then { s3 with dbg := { s3.dbg with tbMarks := pos :: s3.dbg.tbMarks } } else s3

/-- The branch target as the trace writes it: bit 0 is `DCSR.TT` and the state branched to (R1067). -/
def State.traceTarget (s : State) : Word :=
  s.pc.extractLsb' 1 31 ++ BitVec.ofBool (s.dcsrBit 6 && s.thumb)

/-- An instruction that did not change control flow (R1060, R1064). -/
def State.traceSequential (s : State) : State :=
  if s.dbg.tbCnt = 15 then (s.traceEntry 0xFF).setTraceCount 0 else s.setTraceCount (s.dbg.tbCnt + 1)

/-- The first half of a Thumb BL or BLX pair: whether the pair counts as one instruction or two is not stated (R1061), so
whether this half is counted is a free choice (notes/assumptions 27). -/
def State.traceHalf (s : State) : State :=
  if s.freeBits 1 = 1 then s.drawn.traceSequential else s.drawn

/-- A direct branch message. -/
def State.traceDirect (s : State) : State := s.traceMark s.traceTarget 0b1000

/-- An indirect branch message: four address entries, then the header (R1065), also where fewer than five entries are
left in fill-once mode (`traceEntry`). -/
def State.traceIndirect (s : State) : State :=
  let t := s.traceTarget
  let s1 := s.traceEntry (t.extractLsb' 24 8)
  let s2 := s1.traceEntry (t.extractLsb' 16 8)
  let s3 := s2.traceEntry (t.extractLsb' 8 8)
  let s4 := s3.traceEntry (t.extractLsb' 0 8)
  s4.traceMark t 0b1001

/-- An exception message (R1063). A count of 16 is not stated: its four bits are free. -/
def State.traceException (s : State) (vvv : BitVec 3) (counted : Bool) : State :=
  if counted && s.dbg.tbCnt == 15 then
    (s.drawn.traceEntry (BitVec.ofBool false ++ vvv ++ s.freeBits 4)).setTraceCount 0
  else
    (s.traceEntry (BitVec.ofBool false ++ vvv ++ (if counted then s.dbg.tbCnt + 1 else s.dbg.tbCnt))).setTraceCount 0

/-- The trace contents become unpredictable (`10_state` R131, `61_debug_pmu_power` R1067 to R1069). The bytes of the buffer are
free, and so are its pointer, the instruction count and the checkpoint registers, which the rules do not name: DESIGN CHOICE,
notes/assumptions 27. -/
def State.scrambleTrace (s : State) : State :=
  let byte (k : Nat) : BitVec 8 := Config.freeBits 8 (s.free + k)
  { s with
    free := s.free + 260
    dbg := { s.dbg with
      tb := (List.range 256).foldl
        (fun t k => if byte k = 0 then tableErase k t else tableSet k (byte k) t) []
      tbPtr := byte 256
      tbCnt := Config.freeBits 4 (s.free + 257)
      tbMarks := []
      chkpt0 := Config.freeBits 32 (s.free + 258)
      chkpt1 := Config.freeBits 32 (s.free + 259) } }

/-! Taking an exception -/

/-- The exceptions with a vector (`60_exceptions` R881). -/
inductive Exception where
  | reset | undefined | swi | prefetchAbort | dataAbort | irq | fiq
deriving DecidableEq, Repr

/-- The vector number: bits [4:2] of the vector address (`60_exceptions` R881). -/
def Exception.number : Exception → BitVec 3
  | .reset => 0
  | .undefined => 1
  | .swi => 2
  | .prefetchAbort => 3
  | .dataAbort => 4
  | .irq => 6
  | .fiq => 7

/-- The mode entered (`60_exceptions` R881). -/
def Exception.mode : Exception → BitVec 5
  | .reset => modeSvc
  | .undefined => modeUndef
  | .swi => modeSvc
  | .prefetchAbort => modeAbort
  | .dataAbort => modeAbort
  | .irq => modeIrq
  | .fiq => modeFiq

/-- The DCSR bit that traps the vector (`60_exceptions` R881, `10_state` R130). -/
def Exception.trapBit : Exception → Nat
  | .reset => 16
  | .undefined => 17
  | .swi => 18
  | .prefetchAbort => 19
  | .dataAbort => 20
  | .irq => 22
  | .fiq => 23

/-- The address of the vector. -/
def State.vectorAddress (s : State) (e : Exception) : Word :=
  s.vectorBase + (e.number ++ (0 : BitVec 2)).setWidth 32

/-- The CPSR on exception entry: mode, T = 0, I = 1, F as given, the rest unchanged (`60_exceptions`
R882). -/
def entryCpsr (cpsr : Word) (mode : BitVec 5) (fiqOff : Bool) : Word :=
  cpsr.extractLsb' 8 24 ++ BitVec.ofBool true ++ BitVec.ofBool (fiqOff || cpsr.getLsbD 6) ++
    BitVec.ofBool false ++ mode

/-- Exception entry (`60_exceptions` R882): save the link and the CPSR in the banks of the mode entered,
change the CPSR, go to the vector. -/
def State.enterException (s : State) (e : Exception) (link : Word) : State :=
  let s1 := s.setRegIn e.mode 14 link
  let s2 := s1.setSpsrOf (bankOf e.mode) s.cpsr
  { s2 with
    cpsr := entryCpsr s.cpsr e.mode (e == .reset || e == .fiq)
    pc := s.vectorAddress e
    note := { s2.note with flow := .exception, entries := s2.note.entries + 1 } }

/-- What every debug exception does to DCSR and to the pended breaks (`61_debug_pmu_power` R1022, R1025,
R1028). -/
def State.recordDebug (s : State) (moe : BitVec 3) : State :=
  { s with dbg := { s.dbg with
      dcsr := s.dbg.dcsr.extractLsb' 5 27 ++ moe ++ s.dbg.dcsr.extractLsb' 1 1 ++ BitVec.ofBool false
      pendFull := false
      jtagBreak := false
      hit := false } }

/-- Write FSR.D, the other fields of FSR becoming free (`61_debug_pmu_power` R1025, Monitor Mode). Bit 8
reads as zero. FAR is not written (`60_exceptions` R880). -/
def State.debugFsr (s : State) : State :=
  { s.drawn with cp15 := { s.cp15 with fsr := (s.freeBits 32 &&& 0x000004FF) ||| 0x00000200 } }

/-- The entry into DEBUG mode and Special Debug State (`61_debug_pmu_power` R1025): all debug exceptions of
Halt Mode, and the SOC debug break. -/
def State.enterDebugMode (s : State) (moe : BitVec 3) (link : Word) : State :=
  let s1 := s.recordDebug moe
  let s2 := s1.setRegIn modeDebug 14 link
  let s3 := s2.setSpsrOf .dbg s.cpsr
  let s4 := if s.haltMode then s3 else s3.debugFsr
  { s4 with
    cpsr := entryCpsr s.cpsr modeDebug true
    pc := if s.haltMode then 0 else s.vectorBase
    dbg := { s4.dbg with sds := true }
    note := { s4.note with flow := .exception, entries := s4.note.entries + 1 } }

/-- The Monitor Mode entry: an abort with `FSR.D` set (`61_debug_pmu_power` R1025). -/
def State.enterMonitor (s : State) (e : Exception) (moe : BitVec 3) (link : Word) : State :=
  ((s.recordDebug moe).debugFsr).enterException e link

/-- A debug exception other than the SOC break: Halt Mode or Monitor Mode, `e` being the abort that
Monitor Mode takes (`61_debug_pmu_power` R1025). -/
def State.debugException (s : State) (e : Exception) (moe : BitVec 3) (link : Word) : State :=
  if s.haltMode then s.enterDebugMode moe link else s.enterMonitor e moe link

/-- Where the reset vector trap continues: the Debug SRAM base as R1105 (`70_reset_and_hazards`) names it, 0xFFFF7000, or as
R1025 and R1075 (`61_debug_pmu_power`) do, 0 (notes/assumptions 47). -/
def resetTrapPc : Word := if Config.resetTrapHigh then 0xFFFF7000 else 0

/-- The vector trap, taken right after the entry (`61_debug_pmu_power` R1026): Halt Mode, the trap bit set,
and for all but reset the global enable. After reset the Halt Mode entry is the same, but for the code in MOE and the pc
(`70_reset_and_hazards` R1105; notes/assumptions 10, 47). -/
def State.vectorTrap (s : State) (e : Exception) : State :=
  if s.haltMode && s.dcsrBit e.trapBit && (e == .reset || s.debugOn) then
    let s1 := s.enterDebugMode (if e = .reset && !Config.moeResetTrapped then 0b000 else 0b101) (s.pc + 4)
    if e = .reset then { s1 with pc := resetTrapPc } else s1
  else s

/-- TAKING AN EXCEPTION: entry, the trace message, the vector trap (`60_exceptions` R882,
`61_debug_pmu_power` R1026, R1063). `counted` says that the aborting instruction is counted in the
message. -/
def State.takeException (s : State) (e : Exception) (link : Word) (counted : Bool) : State :=
  let s1 := s.enterException e link
  let s2 := if s.tracing then s1.traceException e.number counted else s1
  s2.vectorTrap e

/-- The outcome of an exception that Special Debug State leaves unpredictable: SWI and undefined
instructions (`61_debug_pmu_power` R1030 a). -/
def State.raise (s : State) (e : Exception) (link : Word) : Host.Outcome State Fault Refusal :=
  if s.dbg.sds then .refused .specialDebugState else .next (s.takeException e link false)

/-- The undefined instruction exception of the instruction being executed (`60_exceptions` R890). -/
def State.raiseUndefined (s : State) : Host.Outcome State Fault Refusal :=
  s.raise .undefined s.nextPc

/-! Returning from an exception -/

/-- Exception return (`60_exceptions` R884, `10_state` R37 d, `61_debug_pmu_power` R1031): the CPSR is
restored, Special Debug State ends, the pc is aligned to the restored state. An SPSR whose mode bits are no mode of
`10_state` R42, or are those of DEBUG mode, is refused, as R551 (`40_arm_base`) refuses to write them by MSR: R507 and R884 do
not say what such a return does, DESIGN CHOICE, notes/assumptions 58. -/
def State.exceptionReturn (s : State) (target : Word) : Host.Outcome State Fault Refusal :=
  match s.spsr with
  | none => .refused .noSpsr
  | some p =>
    if isSoftwareMode (p.extractLsb' 0 5) then
      let s1 := { s with cpsr := p, dbg := { s.dbg with sds := false } }
      .next (s1.branchIndirect (if s1.thumb then target &&& ~~~1 else target &&& ~~~3))
    else .refused .illegalMode

/-! Aborts -/

/-- Write FSR and FAR on an abort (`60_exceptions` R895, R900, R905): status and X as given, D = 0; the
domain and FAR are free where they are not valid. -/
def State.writeFault (s : State) (fs : BitVec 5) (dom : Option (BitVec 4)) (far : Option Word) : State :=
  { s.drawn.drawn with cp15 := { s.cp15 with
      fsr := (0 : BitVec 21) ++ fs.extractLsb' 4 1 ++ (0 : BitVec 2) ++
        dom.getD (Config.freeBits 4 s.free) ++ fs.extractLsb' 0 4
      far := far.getD (Config.freeBits 32 (s.free + 1)) } }

/-- A precise data abort of the instruction at the pc (`60_exceptions` R900; in Special Debug State
`61_debug_pmu_power` R1030 b). `toPc`: the instruction loads the pc, and is then not counted in the trace
message (R1063). -/
def State.dataAbort (s : State) (fs : BitVec 5) (dom : Option (BitVec 4)) (far : Option Word)
    (toPc : Bool) : State :=
  let s1 := s.writeFault fs dom far
  let s2 := { s1 with dbg := { s1.dbg with hit := false } }
  if s.dbg.sds then
    ({ s2 with dbg := { s2.dbg with dcsr := s2.dbg.dcsr ||| 0x20 } }).advance
  else s2.takeException .dataAbort (s.pc + 8) (!toPc)

/-- A prefetch abort of the instruction at the pc (`60_exceptions` R895). -/
def State.prefetchAbort (s : State) (fs : BitVec 5) : State :=
  (s.writeFault fs none none).takeException .prefetchAbort (s.pc + 4) false

/-- Record a pending imprecise data abort. An external one outranks one of parity (`60_exceptions`
R902). -/
def State.pend (s : State) (a : ImpreciseAbort) : State :=
  { s with pendingAbort := if s.pendingAbort = some .external then some .external else some a }

/-- An imprecise data abort taken before the next instruction (`60_exceptions` R905). In Special Debug State
it is only recorded (`61_debug_pmu_power` R1030 b), and no instruction executes in this step. -/
def State.impreciseAbort (s : State) (a : ImpreciseAbort) : State :=
  let fs : BitVec 5 := match a with | .external => 0b10110 | .parity => 0b11000
  let s1 := { s.writeFault fs none none with pendingAbort := none }
  if s.dbg.sds then
    { s1 with dbg := { s1.dbg with dcsr := s1.dbg.dcsr ||| 0x20 }, note := { s1.note with flow := .idle } }
  else s1.takeException .dataAbort (s.pc + 4) false

/-! The monad of the meanings that access memory -/

/-- Why a memory or coprocessor operation ends the instruction. -/
inductive Stop where
  /-- a precise data abort -/
  | abort (fs : BitVec 5) (dom : Option (BitVec 4)) (far : Option Word)
  /-- the undefined instruction exception -/
  | undefined
  | fault (r : Fault)
  | refuse (r : Refusal)
deriving DecidableEq, Repr

/-- An operation on the state that may end the instruction; the state reached is kept. -/
abbrev Exec (α : Type) := EStateM Stop State α

/-- Draw a free value. -/
def draw (w : Nat) : Exec (BitVec w) := fun s => .ok (s.freeBits w) s.drawn

/-- Refuse unless a condition holds. -/
def require (c : Bool) (r : Refusal) : Exec Unit := if c then pure () else throw (.refuse r)

/-- The outcome of an instruction that an operation ended: an abort or an undefined instruction is taken as
an exception. `toPc`: the instruction loads the pc. -/
def stopOutcome (toPc : Bool) (e : Stop) (s : State) : Host.Outcome State Fault Refusal :=
  match e with
  | .abort fs dom far => .next (s.dataAbort fs dom far toPc)
  | .undefined => s.raiseUndefined
  | .fault r => .fault r
  | .refuse r => .refused r

/-- Run an operation and go on with its value. -/
def withValue {α : Type} (toPc : Bool) (m : Exec α) (s : State)
    (k : α → State → Host.Outcome State Fault Refusal) : Host.Outcome State Fault Refusal :=
  match m s with
  | .ok a s' => k a s'
  | .error e s' => stopOutcome toPc e s'

/-- Run an operation that is the whole effect, and go on with the next instruction. -/
def runExec (m : Exec Unit) (s : State) : Host.Outcome State Fault Refusal :=
  withValue false m s fun _ s' => .next s'.advance

/-- An instruction whose condition fails only advances the pc (`30_encoding` R452); the note records it for
the performance counters. -/
def whenCond (c : Cond) (s : State) (body : Host.Outcome State Fault Refusal) :
    Host.Outcome State Fault Refusal :=
  if condPassed c s then body else .next s.skip

/-- The same for an instruction that branches when `toPc` holds: it is a branch, not taken, when its condition
fails (`61_debug_pmu_power` R1004, event 0x0E). -/
def whenCondPc (toPc : Bool) (c : Cond) (s : State) (body : Host.Outcome State Fault Refusal) :
    Host.Outcome State Fault Refusal :=
  if condPassed c s then body else .next (if toPc then s.noteBranch.skip else s.skip)

/-- Refuse unless a condition holds, in a meaning. -/
def orRefuse (c : Bool) (r : Refusal) (body : Host.Outcome State Fault Refusal) :
    Host.Outcome State Fault Refusal :=
  if c then body else .refused r

end Sys2Proof.Machine
end

