-- ==== Sys2Proof/Machine/Flags.lean ====
section
/-!
DEFINITION. The arithmetic that sets flags: addition with carry, and signed saturation. Operands are read
as integers, the exact result is computed, and the flags compare it with the narrowed one.
-/
namespace Sys2Proof.Machine

/-- The value of a carry. -/
def carryNat (c : Bool) : Nat := if c then 1 else 0

/-- `AddWithCarry`: result, carry out, signed overflow (`40_arm_base` R501). -/
structure Sum where
  value    : Word
  carry    : Bool
  overflow : Bool
deriving DecidableEq, Repr

def addWithCarry (a b : Word) (c : Bool) : Sum :=
  let r := BitVec.ofNat 32 (a.toNat + b.toNat + carryNat c)
  { value := r
    carry := decide (2 ^ 32 ≤ a.toNat + b.toNat + carryNat c)
    overflow := decide (a.toInt + b.toInt + (carryNat c : Int) ≠ r.toInt) }

/-- `SignedSat(x, 32)`: the value, and whether it was clamped (`41_dsp_thumb` R650). -/
def signedSat (x : Int) : Word × Bool :=
  if x < -(2 ^ 31) then (0x80000000, true)
  else if 2 ^ 31 - 1 < x then (0x7FFFFFFF, true)
  else (BitVec.ofInt 32 x, false)

/-- Signed 32-bit addition that wraps, and whether it overflowed: the accumulate of SMLAxy and SMLAWy
(`41_dsp_thumb` R651, R653). -/
def wrapAdd (x y : Int) : Word × Bool :=
  let r := BitVec.ofInt 32 (x + y)
  (r, decide (x + y ≠ r.toInt))

end Sys2Proof.Machine
end

