-- ==== Sys2Proof/Machine/Operands.lean ====
section
/-!
DEFINITION. The operand forms: the shifter operand of data processing with its carry out
(`40_arm_base` R502 to R506), and the addresses of the load and store instructions
(`45_arm_loadstore` R581, R582, R605).
-/
namespace Sys2Proof.Machine

/-- A shifter operand and the shifter's carry out. -/
structure Shifted where
  value : Word
  carry : Bool
deriving DecidableEq, Repr

/-- An 8-bit immediate rotated right by twice `rotateImm` (`40_arm_base` R503). -/
def shiftImmediate (rotateImm : BitVec 4) (immed8 : BitVec 8) (c : Bool) : Shifted :=
  let v := (immed8.setWidth 32).rotateRight (2 * rotateImm.toNat)
  { value := v, carry := if rotateImm = 0 then c else v.msb }

/-- A register shifted by an immediate (`40_arm_base` R505). -/
def shiftByImm (m : Word) (shift : BitVec 2) (n : BitVec 5) (c : Bool) : Shifted :=
  let k := n.toNat
  if shift = 0b00 then
    if n = 0 then { value := m, carry := c } else { value := m <<< k, carry := m.getLsbD (32 - k) }
  else if shift = 0b01 then
    if n = 0 then { value := 0, carry := m.msb } else { value := m >>> k, carry := m.getLsbD (k - 1) }
  else if shift = 0b10 then
    if n = 0 then { value := if m.msb then 0xFFFFFFFF else 0, carry := m.msb }
    else { value := m.sshiftRight k, carry := m.getLsbD (k - 1) }
  else
    if n = 0 then { value := BitVec.ofBool c ++ m.extractLsb' 1 31, carry := m.getLsbD 0 }
    else { value := m.rotateRight k, carry := m.getLsbD (k - 1) }

/-- A register shifted by a register, `n` being its low byte (`40_arm_base` R506). -/
def shiftByReg (m : Word) (shift : BitVec 2) (n : BitVec 8) (c : Bool) : Shifted :=
  let k := n.toNat
  if k = 0 then { value := m, carry := c }
  else if shift = 0b00 then
    if k < 32 then { value := m <<< k, carry := m.getLsbD (32 - k) }
    else { value := 0, carry := k == 32 && m.getLsbD 0 }
  else if shift = 0b01 then
    if k < 32 then { value := m >>> k, carry := m.getLsbD (k - 1) }
    else { value := 0, carry := k == 32 && m.msb }
  else if shift = 0b10 then
    if k < 32 then { value := m.sshiftRight k, carry := m.getLsbD (k - 1) }
    else { value := if m.msb then 0xFFFFFFFF else 0, carry := m.msb }
  else
    if k % 32 = 0 then { value := m, carry := m.msb }
    else { value := m.rotateRight (k % 32), carry := m.getLsbD (k % 32 - 1) }

/-- The address of a load or store and the value written back to the base register, if any
(`45_arm_loadstore` R581). -/
structure Address where
  addr : Word
  wb   : Option Word
deriving DecidableEq, Repr

/-- The indexing forms: offset, pre-indexed, post-indexed (`45_arm_loadstore` R581). -/
def indexed (pBit uBit wBit : Bool) (base offset : Word) : Address :=
  let off := if uBit then base + offset else base - offset
  if pBit then { addr := off, wb := if wBit then some off else none }
  else { addr := base, wb := some off }

/-- The offset of addressing mode 3 with an immediate (`45_arm_loadstore` R582). -/
def halfOffset (addrHi addrLo : BitVec 4) : Word := (addrHi ++ addrLo).setWidth 32

/-- The number of registers in a list. -/
def listCount (w : Nat) (list : BitVec w) : Nat :=
  (List.range w).countP (fun k => list.getLsbD k)

/-- The register numbers of a list, ascending. -/
def listRegs (list : BitVec 16) : List Reg :=
  ((List.range 16).filter (fun k => list.getLsbD k)).map (BitVec.ofNat 4)

/-- Addressing mode 4: the start address and the base value written back (`45_arm_loadstore` R605). -/
def multipleAddress (pBit uBit : Bool) (base : Word) (n : Nat) : Word × Word :=
  let size : Word := BitVec.ofNat 32 (4 * n)
  if uBit then (if pBit then base + 4 else base, base + size)
  else (if pBit then base - size else base - size + 4, base - size)

/-- Addressing mode 5: P, U, W of the coprocessor loads and stores; P = 0, W = 0 with U = 1 is the
unindexed form (`44_cp14_cp7` R853). -/
def coprocessorAddress (pBit uBit wBit : Bool) (base offset : Word) : Address :=
  let off := if uBit then base + offset else base - offset
  if pBit then { addr := off, wb := if wBit then some off else none }
  else { addr := base, wb := if wBit then some off else none }

/-- The target of a branch with a 24-bit offset (`30_encoding` R456 b). -/
def branchTarget (pcRead : Word) (offset : BitVec 24) : Word :=
  pcRead + (offset.signExtend 32 <<< 2)

end Sys2Proof.Machine
end

