-- ==== Sys2Proof/Machine/Branch.lean ====
section
/-!
DEFINITION. The ARM branches (`40_arm_base` R540 to R544).
-/
namespace Sys2Proof.Machine

/-- B (`40_arm_base` R540). -/
def execB (cond : Cond) (signedImmed24 : BitVec 24) (s : State) :
    Host.Outcome State Fault Refusal :=
  let target := branchTarget s.pcRead signedImmed24
  let s := s.noteB
  whenCond cond s <| .next (s.branchDirect target)

/-- BL (`40_arm_base` R541). -/
def execBl (cond : Cond) (signedImmed24 : BitVec 24) (s : State) :
    Host.Outcome State Fault Refusal :=
  let target := branchTarget s.pcRead signedImmed24
  let s := s.noteB
  whenCond cond s <| .next ((s.setReg 14 (s.pc + 4)).branchDirect target)

/-- BX (`40_arm_base` R542). -/
def execBx (cond : Cond) (sb : BitVec 12) (rm : BitVec 4) (s : State) :
    Host.Outcome State Fault Refusal :=
  let s := s.noteBranch
  whenCond cond s <|
    orRefuse (sb == 0xFFF) .shouldBeBits <|
    s.interwork (s.reg rm)

/-- BLX(1) (`40_arm_base` R543). -/
def execBlxImm (hBit : Bool) (signedImmed24 : BitVec 24) (s : State) :
    Host.Outcome State Fault Refusal :=
  let s := s.noteBranch
  let target := branchTarget s.pcRead signedImmed24 + (if hBit then 2 else 0)
  .next (((s.setReg 14 (s.pc + 4)).setThumb true).branchIndirect target)

/-- BLX(2) (`40_arm_base` R544). -/
def execBlxReg (cond : Cond) (sb : BitVec 12) (rm : BitVec 4) (s : State) :
    Host.Outcome State Fault Refusal :=
  let s := s.noteBranch
  whenCond cond s <|
    orRefuse (sb == 0xFFF) .shouldBeBits <|
    orRefuse (rm != 15) .pcOperand <|
    (s.setReg 14 (s.pc + 4)).interwork (s.reg rm)

end Sys2Proof.Machine
end

