-- ==== Sys2Proof/Machine/Multiply.lean ====
section
/-!
DEFINITION. The multiplies, the enhanced DSP instructions and CLZ (`40_arm_base` R530 to R536, R555; `41_dsp_thumb`
R650 to R658).
-/
namespace Sys2Proof.Machine

/-- The end of a 32-bit multiply: `Rd`, and N and Z with S (`40_arm_base` R530). -/
def mulFinish (s : State) (sBit : Bool) (rd : Reg) (r : Word) : Host.Outcome State Fault Refusal :=
  .next ((if sBit then (s.setReg rd r).setNZ r else s.setReg rd r).advance)

/-- The end of a 64-bit multiply: `RdHi` and `RdLo`, and N and Z of all 64 bits with S (R530). -/
def mulLongFinish (s : State) (sBit : Bool) (rdHi rdLo : Reg) (p : BitVec 64) :
    Host.Outcome State Fault Refusal :=
  let s1 := (s.setReg rdHi (p.extractLsb' 32 32)).setReg rdLo (p.extractLsb' 0 32)
  .next ((if sBit then s1.setFlags p.msb (p == 0) s.flagC s.flagV else s1).advance)

/-- The 64-bit value `R[RdHi] : R[RdLo]`. -/
def State.pair (s : State) (rdHi rdLo : Reg) : BitVec 64 := s.reg rdHi ++ s.reg rdLo

/-- `half(v, top)` as a signed number (`41_dsp_thumb` R650). -/
def half (v : Word) (top : Bool) : Int :=
  if top then (v.extractLsb' 16 16).toInt else (v.extractLsb' 0 16).toInt

/-- The end of an instruction that writes `Rd` and may set Q. -/
def dspFinish (s : State) (rd : Reg) (r : Word) (q : Bool) : Host.Outcome State Fault Refusal :=
  .next ((s.setReg rd r).orQ q).advance

/-- `p[47:16]` of `SInt(R[Rm]) * half(R[Rs], y)` (`41_dsp_thumb` R652). -/
def wideProduct (m s : Word) (yBit : Bool) : Word :=
  (BitVec.ofInt 48 (m.toInt * half s yBit)).extractLsb' 16 32

/-- The number of leading zeros (`40_arm_base` R555). -/
def leadingZeros (v : Word) : Word :=
  BitVec.ofNat 32 ((List.range 32).takeWhile fun k => !v.getLsbD (31 - k)).length

/-- MUL (`40_arm_base` R531). -/
def execMul (cond : Cond) (sBit : Bool) (rd sb rs rm : BitVec 4) (s : State) :
    Host.Outcome State Fault Refusal :=
  whenCond cond s <|
    orRefuse (sb == 0) .shouldBeBits <|
    orRefuse (rd != 15 && rs != 15 && rm != 15) .pcOperand <|
    mulFinish s sBit rd (s.reg rm * s.reg rs)

/-- MLA (`40_arm_base` R532). -/
def execMla (cond : Cond) (sBit : Bool) (rd rn rs rm : BitVec 4) (s : State) :
    Host.Outcome State Fault Refusal :=
  whenCond cond s <|
    orRefuse (rd != 15 && rn != 15 && rs != 15 && rm != 15) .pcOperand <|
    mulFinish s sBit rd (s.reg rm * s.reg rs + s.reg rn)

/-- UMULL (`40_arm_base` R533). -/
def execUmull (cond : Cond) (sBit : Bool) (rdHi rdLo rs rm : BitVec 4) (s : State) :
    Host.Outcome State Fault Refusal :=
  whenCond cond s <|
    orRefuse (rdHi != 15 && rdLo != 15 && rs != 15 && rm != 15) .pcOperand <|
    orRefuse (rdHi != rdLo) .registerOverlap <|
    mulLongFinish s sBit rdHi rdLo
      ((s.reg rm).setWidth 64 * (s.reg rs).setWidth 64)

/-- UMLAL (`40_arm_base` R534). -/
def execUmlal (cond : Cond) (sBit : Bool) (rdHi rdLo rs rm : BitVec 4) (s : State) :
    Host.Outcome State Fault Refusal :=
  whenCond cond s <|
    orRefuse (rdHi != 15 && rdLo != 15 && rs != 15 && rm != 15) .pcOperand <|
    orRefuse (rdHi != rdLo) .registerOverlap <|
    mulLongFinish s sBit rdHi rdLo
      ((s.reg rm).setWidth 64 * (s.reg rs).setWidth 64 + s.pair rdHi rdLo)

/-- SMULL (`40_arm_base` R535). -/
def execSmull (cond : Cond) (sBit : Bool) (rdHi rdLo rs rm : BitVec 4) (s : State) :
    Host.Outcome State Fault Refusal :=
  whenCond cond s <|
    orRefuse (rdHi != 15 && rdLo != 15 && rs != 15 && rm != 15) .pcOperand <|
    orRefuse (rdHi != rdLo) .registerOverlap <|
    mulLongFinish s sBit rdHi rdLo
      ((s.reg rm).signExtend 64 * (s.reg rs).signExtend 64)

/-- SMLAL (`40_arm_base` R536). -/
def execSmlal (cond : Cond) (sBit : Bool) (rdHi rdLo rs rm : BitVec 4) (s : State) :
    Host.Outcome State Fault Refusal :=
  whenCond cond s <|
    orRefuse (rdHi != 15 && rdLo != 15 && rs != 15 && rm != 15) .pcOperand <|
    orRefuse (rdHi != rdLo) .registerOverlap <|
    mulLongFinish s sBit rdHi rdLo
      ((s.reg rm).signExtend 64 * (s.reg rs).signExtend 64 + s.pair rdHi rdLo)

/-- SMULxy (`41_dsp_thumb` R650). -/
def execSmulXY (cond : Cond) (rd sb rs : BitVec 4) (yBit xBit : Bool) (rm : BitVec 4) (s : State) :
    Host.Outcome State Fault Refusal :=
  whenCond cond s <|
    orRefuse (sb == 0) .shouldBeBits <|
    orRefuse (rd != 15 && rs != 15 && rm != 15) .pcOperand <|
    dspFinish s rd (BitVec.ofInt 32 (half (s.reg rm) xBit * half (s.reg rs) yBit)) false

/-- SMLAxy (`41_dsp_thumb` R651). -/
def execSmlaXY (cond : Cond) (rd rn rs : BitVec 4) (yBit xBit : Bool) (rm : BitVec 4) (s : State) :
    Host.Outcome State Fault Refusal :=
  whenCond cond s <|
    orRefuse (rd != 15 && rn != 15 && rs != 15 && rm != 15) .pcOperand <|
    let r := wrapAdd (half (s.reg rm) xBit * half (s.reg rs) yBit) (s.reg rn).toInt
    dspFinish s rd r.1 r.2

/-- SMULWy (`41_dsp_thumb` R652). -/
def execSmulwY (cond : Cond) (rd sb rs : BitVec 4) (yBit : Bool) (rm : BitVec 4) (s : State) :
    Host.Outcome State Fault Refusal :=
  whenCond cond s <|
    orRefuse (sb == 0) .shouldBeBits <|
    orRefuse (rd != 15 && rs != 15 && rm != 15) .pcOperand <|
    dspFinish s rd (wideProduct (s.reg rm) (s.reg rs) yBit) false

/-- SMLAWy (`41_dsp_thumb` R653). -/
def execSmlawY (cond : Cond) (rd rn rs : BitVec 4) (yBit : Bool) (rm : BitVec 4) (s : State) :
    Host.Outcome State Fault Refusal :=
  whenCond cond s <|
    orRefuse (rd != 15 && rn != 15 && rs != 15 && rm != 15) .pcOperand <|
    let r := wrapAdd (wideProduct (s.reg rm) (s.reg rs) yBit).toInt (s.reg rn).toInt
    dspFinish s rd r.1 r.2

/-- SMLALxy (`41_dsp_thumb` R654). -/
def execSmlalXY (cond : Cond) (rdHi rdLo rs : BitVec 4) (yBit xBit : Bool) (rm : BitVec 4) (s : State) :
    Host.Outcome State Fault Refusal :=
  whenCond cond s <|
    orRefuse (rdHi != 15 && rdLo != 15 && rs != 15 && rm != 15) .pcOperand <|
    orRefuse (rdHi != rdLo) .registerOverlap <|
    mulLongFinish s false rdHi rdLo
      (BitVec.ofInt 64 (half (s.reg rm) xBit * half (s.reg rs) yBit) + s.pair rdHi rdLo)

/-- QADD (`41_dsp_thumb` R655). -/
def execQadd (cond : Cond) (rn rd sb rm : BitVec 4) (s : State) :
    Host.Outcome State Fault Refusal :=
  whenCond cond s <|
    orRefuse (sb == 0) .shouldBeBits <|
    orRefuse (rn != 15 && rd != 15 && rm != 15) .pcOperand <|
    let r := signedSat ((s.reg rm).toInt + (s.reg rn).toInt)
    dspFinish s rd r.1 r.2

/-- QSUB (`41_dsp_thumb` R656). -/
def execQsub (cond : Cond) (rn rd sb rm : BitVec 4) (s : State) :
    Host.Outcome State Fault Refusal :=
  whenCond cond s <|
    orRefuse (sb == 0) .shouldBeBits <|
    orRefuse (rn != 15 && rd != 15 && rm != 15) .pcOperand <|
    let r := signedSat ((s.reg rm).toInt - (s.reg rn).toInt)
    dspFinish s rd r.1 r.2

/-- QDADD (`41_dsp_thumb` R657). -/
def execQdadd (cond : Cond) (rn rd sb rm : BitVec 4) (s : State) :
    Host.Outcome State Fault Refusal :=
  whenCond cond s <|
    orRefuse (sb == 0) .shouldBeBits <|
    orRefuse (rn != 15 && rd != 15 && rm != 15) .pcOperand <|
    let d := signedSat (2 * (s.reg rn).toInt)
    let r := signedSat ((s.reg rm).toInt + d.1.toInt)
    dspFinish s rd r.1 (d.2 || r.2)

/-- QDSUB (`41_dsp_thumb` R658). -/
def execQdsub (cond : Cond) (rn rd sb rm : BitVec 4) (s : State) :
    Host.Outcome State Fault Refusal :=
  whenCond cond s <|
    orRefuse (sb == 0) .shouldBeBits <|
    orRefuse (rn != 15 && rd != 15 && rm != 15) .pcOperand <|
    let d := signedSat (2 * (s.reg rn).toInt)
    let r := signedSat ((s.reg rm).toInt - d.1.toInt)
    dspFinish s rd r.1 (d.2 || r.2)

/-- CLZ (`40_arm_base` R555). -/
def execClz (cond : Cond) (sb1 rd sb2 rm : BitVec 4) (s : State) :
    Host.Outcome State Fault Refusal :=
  whenCond cond s <|
    orRefuse (sb1 == 15 && sb2 == 15) .shouldBeBits <|
    orRefuse (rd != 15 && rm != 15) .pcOperand <|
    .next (s.setReg rd (leadingZeros (s.reg rm))).advance

end Sys2Proof.Machine
end

