-- ==== Sys2Proof/Machine/Cp0.lean ====
section
/-!
DEFINITION. Coprocessor 0: the 40-bit accumulator (`42_cp0_accumulator` R750 to R759).
-/
namespace Sys2Proof.Machine

/-- A coprocessor that `CPAR` governs (`10_state` R103, `42_cp0_accumulator` R750). -/
def needCp (n : Nat) (s : State) (body : Host.Outcome State Fault Refusal) :
    Host.Outcome State Fault Refusal :=
  if s.cp15.cpar.getLsbD n then body else s.raiseUndefined

/-- Add a signed product to the accumulator, modulo 2^40 (R752). -/
def State.accumulate (s : State) (p : Int) : State := { s with acc0 := BitVec.ofInt 40 (p + s.acc0.toInt) }

/-- The common part of the multiply-accumulates (R750, R751). -/
def miaFinish (acc : BitVec 3) (rs rm : Reg) (p : Int) (s : State) : Host.Outcome State Fault Refusal :=
  needCp 0 s <|
  orRefuse (acc == 0) .accumulator <|
  orRefuse (rs != 15 && rm != 15) .pcOperand <|
  .next (s.accumulate p).advance

/-- MIA (`42_cp0_accumulator` R752). -/
def execMia (cond : Cond) (rs : BitVec 4) (acc : BitVec 3) (rm : BitVec 4) (s : State) :
    Host.Outcome State Fault Refusal :=
  whenCond cond s <|
    miaFinish acc rs rm ((s.reg rm).toInt * (s.reg rs).toInt) s

/-- MIAPH (`42_cp0_accumulator` R753). -/
def execMiaph (cond : Cond) (rs : BitVec 4) (acc : BitVec 3) (rm : BitVec 4) (s : State) :
    Host.Outcome State Fault Refusal :=
  whenCond cond s <|
    miaFinish acc rs rm (half (s.reg rm) true * half (s.reg rs) true + half (s.reg rm) false * half (s.reg rs) false) s

/-- MIABB (`42_cp0_accumulator` R754). -/
def execMiabb (cond : Cond) (rs : BitVec 4) (acc : BitVec 3) (rm : BitVec 4) (s : State) :
    Host.Outcome State Fault Refusal :=
  whenCond cond s <|
    miaFinish acc rs rm (half (s.reg rm) false * half (s.reg rs) false) s

/-- MIABT (`42_cp0_accumulator` R755). -/
def execMiabt (cond : Cond) (rs : BitVec 4) (acc : BitVec 3) (rm : BitVec 4) (s : State) :
    Host.Outcome State Fault Refusal :=
  whenCond cond s <|
    miaFinish acc rs rm (half (s.reg rm) false * half (s.reg rs) true) s

/-- MIATB (`42_cp0_accumulator` R756). -/
def execMiatb (cond : Cond) (rs : BitVec 4) (acc : BitVec 3) (rm : BitVec 4) (s : State) :
    Host.Outcome State Fault Refusal :=
  whenCond cond s <|
    miaFinish acc rs rm (half (s.reg rm) true * half (s.reg rs) false) s

/-- MIATT (`42_cp0_accumulator` R757). -/
def execMiatt (cond : Cond) (rs : BitVec 4) (acc : BitVec 3) (rm : BitVec 4) (s : State) :
    Host.Outcome State Fault Refusal :=
  whenCond cond s <|
    miaFinish acc rs rm (half (s.reg rm) true * half (s.reg rs) true) s

/-- MAR (`42_cp0_accumulator` R758). -/
def execMar (cond : Cond) (rdHi rdLo : BitVec 4) (sb : BitVec 5) (acc : BitVec 3) (s : State) :
    Host.Outcome State Fault Refusal :=
  whenCond cond s <|
    needCp 0 s <|
    orRefuse (sb == 0) .shouldBeBits <|
    orRefuse (acc == 0) .accumulator <|
    orRefuse (rdHi != 15 && rdLo != 15) .pcOperand <|
    .next { s with acc0 := (s.reg rdHi).extractLsb' 0 8 ++ s.reg rdLo }.advance

/-- `SignExtend_8(acc0[39:32])` (R759). -/
def State.accHigh (s : State) : Word := (s.acc0.extractLsb' 32 8).signExtend 32

/-- MRA (`42_cp0_accumulator` R759). -/
def execMra (cond : Cond) (rdHi rdLo : BitVec 4) (sb : BitVec 5) (acc : BitVec 3) (s : State) :
    Host.Outcome State Fault Refusal :=
  whenCond cond s <|
    needCp 0 s <|
    orRefuse (sb == 0) .shouldBeBits <|
    orRefuse (acc == 0) .accumulator <|
    orRefuse (rdHi != 15 && rdLo != 15) .pcOperand <|
    orRefuse (rdHi != rdLo) .registerOverlap <|
    .next ((s.setReg rdHi s.accHigh).setReg rdLo (s.acc0.extractLsb' 0 32)).advance

/-- An undefined transfer to coprocessor 0 (`42_cp0_accumulator` R751). -/
def execMcrP0Other (cond : Cond) (_opcode1 : BitVec 3) (_crn _rd : BitVec 4) (_opcode2 : BitVec 3)
    (_crm : BitVec 4) (s : State) :
    Host.Outcome State Fault Refusal :=
  whenCond cond s <|
    needCp 0 s <| .refused .coprocessorForm

/-- An undefined transfer from coprocessor 0 (`42_cp0_accumulator` R751). -/
def execMrcP0Other (cond : Cond) (_opcode1 : BitVec 3) (_crn _rd : BitVec 4) (_opcode2 : BitVec 3)
    (_crm : BitVec 4) (s : State) :
    Host.Outcome State Fault Refusal :=
  whenCond cond s <|
    needCp 0 s <| .refused .coprocessorForm

end Sys2Proof.Machine
end

