-- ==== Sys2Proof/Machine/Mmu.lean ====
section
/-!
DEFINITION. Memory attributes, the TLBs, the bus and the L2 cache as the table walker sees them, and
address translation (`21_mmu`; `22_caches` R400 to R410).
-/
namespace Sys2Proof.Machine

/-! Attributes (`21_mmu` R300 to R308) -/

/-- The memory types (`20_memory` R243). -/
inductive MemType where
  | stronglyOrdered | deviceShared | deviceNonShared | normal
deriving DecidableEq, Repr

/-- The attributes of an access. -/
structure Attrs where
  type_  : MemType
  /-- L1 instruction cacheable -/
  ic     : Bool
  /-- L1 data cacheable -/
  dc     : Bool
  /-- write-through in the L1 data cache -/
  wt     : Bool
  /-- L2 cacheable -/
  l2     : Bool
  /-- stores coalesce -/
  coal   : Bool
  shared : Bool
  llr    : Bool
deriving DecidableEq, Repr

def Attrs.strong : Attrs :=
  { type_ := .stronglyOrdered, ic := false, dc := false, wt := false, l2 := false, coal := false,
    shared := true, llr := false }

/-- An instruction fetch with the MMU disabled (`21_mmu` R308). -/
def Attrs.flatFetch : Attrs :=
  { type_ := .normal, ic := true, dc := false, wt := false, l2 := false, coal := false, shared := false,
    llr := false }

def Attrs.deviceS : Attrs :=
  { Attrs.strong with type_ := .deviceShared }

def Attrs.deviceN : Attrs :=
  { Attrs.strong with type_ := .deviceNonShared, shared := false }

/-- The L2 exists and is enabled (with the MMU: `21_mmu` R307). -/
def State.l2On (s : State) : Bool := s.cfg.l2Size != .absent && s.ctrlBit 26 && s.mmuOn

/-- Normal memory: inner cacheable or not, write-through or not, outer cacheable or not. A shared page is
in the L1 data cache only when it is L2 cacheable, and then write-through (`21_mmu` R302, R305, R307). -/
def normalAttrs (l2On shared inner wt outer llr : Bool) : Attrs :=
  let l2 := outer && l2On
  { type_ := .normal, ic := inner, dc := inner && (!shared || l2), wt := wt || shared, l2 := l2,
    coal := true, shared := shared, llr := llr }

/-- The attribute row of TEX, C, B and S (`21_mmu` R301 to R306); a reserved row gives none. The outer
policy counts only with an L2. The row 000 0 1 is Shared with S = 0 as well (Tables 17 and 21). -/
def State.attrsOf (s : State) (tex : BitVec 3) (c b shared : Bool) : Option Attrs :=
  let n := normalAttrs s.l2On shared
  if tex.getLsbD 2 then
    let outer := tex.getLsbD 0
    some (n (c || b) (c && !b) outer false)
  else if tex = 0b000 then
    if !c && !b then some Attrs.strong
    else if !c then some (normalAttrs s.l2On true false false false false)
    else if !b then some (n true true false false)
    else some (n true false true false)
  else if tex = 0b001 then
    if !c && !b then some (n false false false false)
    else if !c then some Attrs.deviceS
    else if !b then
      some (n true (s.cp15.auxctrl.extractLsb' 4 2 == 0b10) (s.cp15.auxctrl.extractLsb' 10 2 == 0b01) true)
    else some (n true false true false)
  else if tex = 0b010 && !c && !b then some Attrs.deviceN
  else none

/-! The bus (`22_caches` R420, `60_exceptions` R920) -/

/-- The bits of ERRLOG that the bus signals on a block, DA, EAE and IAE; 0 where it answers (`00_scope` R12,
`10_state` R140). -/
def State.busError (s : State) (line : BitVec 31) : BitVec 8 :=
  (tableGet line.toNat s.cfg.busErrors).getD 0 &&& 0x38

/-- Log errors of the bits [5:0] of ERRLOG, several when they occur together: when one is logged already only
OV is set (`60_exceptions` R920). -/
def State.logError (s : State) (bits : BitVec 8) (address : Option (BitVec 36)) : State :=
  if s.err.errlog &&& 0x3F ≠ 0 then { s with err := { s.err with errlog := s.err.errlog ||| 0x40 } }
  else
    { s with err := { s.err with
        errlog := s.err.errlog ||| bits
        erradrl := match address with | some a => a.extractLsb' 0 32 | none => s.err.erradrl
        erradru := match address with | some a => a.extractLsb' 32 4 | none => s.err.erradru } }

/-- Log what the bus signals on a transaction at `a`; the address of an explicit or implicit address error is
logged with it (`22_caches` R423). -/
def State.logBusError (s : State) (bits : BitVec 8) (a : BitVec 36) : State :=
  s.logError bits (if bits &&& 0x18 = 0 then none else some a)

/-- What an access that is cancelled leaves of `s`: the errors that it logged and reported, and the draws it made, are
those of `s1`. -/
def State.onlyErrors (s s1 : State) : State :=
  { s with err := s1.err, pendingAbort := s1.pendingAbort, free := s1.free }

/-- The block of a physical address. -/
def blockOf (a : BitVec 36) : BitVec 31 := a.extractLsb' 5 31

/-- The first physical address of a block. -/
def lineBase (line : BitVec 31) : BitVec 36 := line ++ (0 : BitVec 5)

/-- The lowest address of the bytes that a mask selects in a block; in big-endian operation the bytes of a word
are numbered the other way (`20_memory` R213). -/
def State.maskAddress (s : State) (line : BitVec 31) (mask : BitVec 32) : BitVec 36 :=
  let first := (List.range 32).find? fun k => mask.getLsbD (if s.bigEndian then k ^^^ 3 else k)
  line ++ BitVec.ofNat 5 (first.getD 0)

/-- Every byte of a block. -/
def wholeLine : BitVec 32 := 0xFFFFFFFF

/-- The 32 bytes of a block, and those among them whose value is unpredictable (`22_caches` R396). -/
structure Block where
  data : BitVec 256
  unk  : BitVec 32
deriving DecidableEq, Repr

/-- A block as one read sees it: its unpredictable bytes are drawn anew (`43_cp15_functions` R792). -/
def State.look (s : State) (b : Block) : BitVec 256 × State :=
  if b.unk = 0 then (b.data, s) else (mergeLine b.unk b.data (s.freeBits 256), s.drawn)

/-- Read on the bus for a transaction at `a`: the block, or none where the bus signals an error. -/
def State.busReadLine (s : State) (a : BitVec 36) : Option (BitVec 256) × State :=
  if s.busError (blockOf a) = 0 then (some (memLine s.mem (blockOf a)), s)
  else (none, s.logBusError (s.busError (blockOf a)) a)

/-- A write of bytes of a block takes place on the bus, those of `unk` being free ones; an error becomes an
imprecise external data abort (`60_exceptions` R905). -/
def State.busPut (s : State) (line : BitVec 31) (mask unk : BitVec 32) (data : BitVec 256) : State :=
  if s.busError line = 0 then
    let (d, s1) := s.look { data := data, unk := mask &&& unk }
    { s1 with mem := memWriteLine s1.mem line mask d }
  else (s.logBusError (s.busError line) (s.maskAddress line mask)).pend .external

/-- A write-back of the L2 set/way functions reaches memory. -/
def State.issueOut (s : State) (e : OutEntry) : State := s.busPut e.line wholeLine e.unk e.data

/-- The write-backs of the L2 set/way functions that a test selects reach memory, oldest first. -/
def State.releaseOutWhere (s : State) (out : OutEntry → Bool) : State :=
  (s.l2Out.filter out).foldl State.issueOut { s with l2Out := s.l2Out.filter (!out ·) }

/-- The write-backs of a block by the L2 set/way functions reach memory. -/
def State.releaseOut (s : State) (line : BitVec 31) : State := s.releaseOutWhere (·.line == line)

/-- Write bytes of a block on the bus, after the earlier write-backs of it (`20_memory` R246). -/
def State.busWriteLine (s : State) (line : BitVec 31) (mask unk : BitVec 32) (data : BitVec 256) : State :=
  (s.releaseOut line).busPut line mask unk data

/-! The L2 cache (`22_caches` R400 to R410) -/

/-- The set of a block: ten bits for 256 KB, eleven for 512 KB (`22_caches` R400). -/
def State.l2Set (s : State) (line : BitVec 31) : Nat :=
  if s.cfg.l2Size = .kb512 then (line.extractLsb' 0 11).toNat else (line.extractLsb' 0 10).toNat

/-- The way that holds a block, if any. The errors of the lines that are passed over are not looked at: `22_caches` R410 does
not say, DESIGN CHOICE, notes/assumptions 22. -/
def State.l2Find (s : State) (line : BitVec 31) : Option (Nat × L2Line) :=
  (List.range 8).findSome? fun way =>
    match tableGet (s.l2Set line * 8 + way) s.l2.lines with
    | some l => if l.pa = line then some (s.l2Set line * 8 + way, l) else none
    | none => none

/-- Mark a line used (`22_caches` R409): when all others are used already, the others are cleared. -/
def State.l2Touch (s : State) (k : Nat) : State :=
  let old := (tableGet (k / 8) s.l2.used).getD 0
  let bit : BitVec 8 := 1#8 <<< (k % 8)
  let new := if old ||| bit = 0xFF then bit else old ||| bit
  { s with l2 := { s.l2 with used := tableSet (k / 8) new s.l2.used } }

def State.l2Put (s : State) (k : Nat) (l : L2Line) : State :=
  { s with l2 := { s.l2 with lines := tableSet k l s.l2.lines } }

/-- L2 line `k` becomes invalid. The Used bit of its way stays as it was: `22_caches` R409 does not say what an invalidation
does to it (DESIGN CHOICE, notes/assumptions 22). -/
def State.l2Drop (s : State) (k : Nat) : State :=
  { s with l2 := { s.l2 with lines := tableErase k s.l2.lines } }

/-- A line in state M or O is dirty. -/
def L2Line.dirty (l : L2Line) : Bool := l.st == .modified || l.st == .owned

/-- The victim of a set (`22_caches` R409): the first invalid way, else the first way neither used nor
locked, else the first way not locked (DESIGN CHOICE, notes/assumptions 22). -/
def State.l2Victim (s : State) (line : BitVec 31) : Nat :=
  let base := s.l2Set line * 8
  let used := (tableGet (s.l2Set line) s.l2.used).getD 0
  let free := (List.range 8).find? fun w => (tableGet (base + w) s.l2.lines).isNone
  let unlocked (w : Nat) : Bool :=
    match tableGet (base + w) s.l2.lines with | some l => !l.locked | none => true
  let cold := (List.range 8).find? fun w => unlocked w && !used.getLsbD w
  let any := (List.range 8).find? unlocked
  base + (free <|> cold <|> any).getD 0

/-- The bits of ERRLOG of the errors that the L2 cannot correct: TP, SP and DBE (`22_caches` R410). -/
def L2Error.bits (e : L2Error) : BitVec 8 :=
  (if e.tag then 0x01 else 0) ||| (if e.state then 0x02 else 0) ||| (if e.double then 0x04 else 0)

/-- A single-bit error is corrected, and raises a request (`22_caches` R410). -/
def State.l2Correct (s : State) (k : Nat) (l : L2Line) : State :=
  if l.err.single then
    { (s.l2Put k { l with err := { l.err with single := false } }) with
      err := { s.err with errlog := s.err.errlog ||| 0x80, sbeIrq := true } }
  else s

/-- What the errors of a line do on an access (`22_caches` R410, R423): those that cannot be corrected are logged,
together, and the data is lost. Only a line that is hit and a dirty victim are looked at; R410 does not say whether a lookup of
another block, or the loss of a clean victim, detects an error: DESIGN CHOICE, notes/assumptions 22. -/
def State.l2Error (s : State) (k : Nat) (l : L2Line) : State × Bool :=
  let s1 := s.l2Correct k l
  if l.err.bits = 0 then (s1, true) else (s1.logError l.err.bits none, false)

/-- Write a dirty line back to memory; with an uncorrectable error its data is lost, which is an imprecise
external data abort (`22_caches` R410, `60_exceptions` R920). -/
def State.l2WriteBack (s : State) (k : Nat) (l : L2Line) : State :=
  let (s1, ok) := s.l2Error k l
  if ok then s1.busWriteLine l.pa wholeLine l.unk l.data else s1.pend .external

/-- Allocate a line for a block: the victim is written back when it is dirty. The errors of a clean victim go with it,
unseen: `22_caches` R410 does not say, DESIGN CHOICE, notes/assumptions 22. -/
def State.l2Allocate (s : State) (l : L2Line) : State :=
  let k := s.l2Victim l.pa
  let s1 :=
    match tableGet k s.l2.lines with
    | some old => if old.dirty then s.l2WriteBack k old else s
    | none => s
  (s1.l2Put k l).l2Touch k

/-- A line filled from memory, and not written. -/
def filledLine (line : BitVec 31) (d : BitVec 256) : L2Line :=
  { pa := line, st := .exclusive, locked := false, err := L2Error.none, unk := 0, data := d }

/-- A line that this agent wrote. -/
def writtenLine (line : BitVec 31) (unk : BitVec 32) (d : BitVec 256) : L2Line :=
  { filledLine line d with st := .modified, unk := unk }

/-- A write, and the read of a swap, hit in M or E only: a line in O or S takes a transaction on the bus first
(`22_caches` R403), which may fail. Where the bus answers it with an error, the error is logged and the line stays as it is,
in O or S with its old data: R403 and R423 do not say, DESIGN CHOICE, notes/assumptions 22. -/
def State.l2Claim (s : State) (l : L2Line) : State × Bool :=
  if l.st = .modified ∨ l.st = .exclusive ∨ s.busError l.pa = 0 then (s, true)
  else (s.logBusError (s.busError l.pa) (lineBase l.pa), false)

/-- A line that this agent alone holds now. -/
def L2Line.claimed (l : L2Line) : L2Line :=
  { l with st := match l.st with | .owned => .modified | .shared => .exclusive | x => x }

/-- Read a block through the L2 when it is cacheable there, else from the bus (`22_caches` R403, R406), for a
transaction at `a`; `swap`: the read of SWP. None where an error is reported: a swap whose transaction for ownership meets one
leaves its line as `State.l2Claim` says (DESIGN CHOICE, notes/assumptions 22). A fill that meets an error on the bus leaves the
L2 as it was, with no line allocated, no victim evicted and no Used bit changed: R406 and R409 do not say, DESIGN CHOICE,
notes/assumptions 22. -/
def State.nextRead (s : State) (a : BitVec 36) (cacheable swap : Bool) : Option Block × State :=
  if cacheable && s.l2On then
    match s.l2Find (blockOf a) with
    | some (k, l) =>
      let (s1, ok) := (s.l2Touch k).l2Error k l
      if !ok then (none, s1)
      else if swap then
        let (s2, own) := s1.l2Claim l
        if own then
          (some { data := l.data, unk := l.unk }, s2.l2Put k { l.claimed with err := L2Error.none })
        else (none, s2)
      else (some { data := l.data, unk := l.unk }, s1)
    | none =>
      match s.busReadLine (lineBase (blockOf a)) with
      | (some d, s1) => (some { data := d, unk := 0 }, s1.l2Allocate (filledLine (blockOf a) d))
      | (none, s1) => (none, s1)
  else
    match s.busReadLine a with
    | (some d, s1) => (some { data := d, unk := 0 }, s1)
    | (none, s1) => (none, s1)

/-- Write bytes of a block through the L2 when it is cacheable there, else on the bus (`22_caches` R403, R407);
the bytes of `unk` become unpredictable. A miss allocates, reading the block first unless all of it is written.
A line whose data an error lost keeps the bytes written, a fill that meets an error on the bus leaves the L2 as it was and
loses the bytes of the store, and a transaction for ownership that meets one leaves the line in O or S with its old data and
loses the bytes of the store (DESIGN CHOICE, notes/assumptions 22). What leaves while the MMU is disabled goes past the L2
(`21_mmu` R307); for L2 cacheable data R402 alone would present it there: DESIGN CHOICE, notes/assumptions 63. -/
def State.nextWrite (s : State) (line : BitVec 31) (cacheable : Bool) (mask unk : BitVec 32)
    (data : BitVec 256) : State :=
  if cacheable && s.l2On then
    match s.l2Find line with
    | some (k, l) =>
      let (s1, ok) := (s.l2Touch k).l2Error k l
      let s2 := if ok then s1 else s1.pend .external
      let (s3, own) := s2.l2Claim l
      if own then
        s3.l2Put k { l with
          st := .modified, err := L2Error.none, data := mergeLine mask l.data data
          unk := ((if ok then l.unk else wholeLine) &&& ~~~mask) ||| unk }
      else s3.pend .external
    | none =>
      if mask = wholeLine then s.l2Allocate (writtenLine line unk data)
      else
        match s.busReadLine (lineBase line) with
        | (some d, s1) => s1.l2Allocate (writtenLine line unk (mergeLine mask d data))
        | (none, s1) => s1.pend .external
  else s.busWriteLine line mask unk data

/-! Translation (`21_mmu` R310) -/

/-- The kinds of access a translation serves. -/
inductive Access where
  | fetch | read | write | swap
deriving DecidableEq, Repr

/-- The number of low address bits a mapping size covers. -/
def PageSize.bits : PageSize → Nat
  | .kb1 => 10
  | .kb4 => 12
  | .kb64 => 16
  | .mb1 => 20
  | .mb16 => 24

/-- An entry maps an MVA (`21_mmu` R331). -/
def TlbEntry.hits (e : TlbEntry) (mva : Word) : Bool := e.mva >>> e.size.bits == mva >>> e.size.bits

/-- The entry that maps an MVA, the lowest-numbered one (notes/assumptions 24). -/
def Tlb.lookup (t : Tlb) (mva : Word) : Option TlbEntry :=
  t.entries.toList.findSome? fun e => e.bind fun e => if e.hits mva then some e else none

/-- Replace an entry (`21_mmu` R332). -/
def Tlb.insert (t : Tlb) (e : TlbEntry) : Tlb :=
  { t with
    entries := t.entries.set t.rr.toNat (some { e with locked := false }) t.rr.isLt
    rr := if t.rr = 31 then t.lockp else t.rr + 1 }

/-- Lock a translation (`21_mmu` R333). -/
def Tlb.lock (t : Tlb) (e : TlbEntry) : Tlb :=
  if t.lockp < 31 then
    { entries := t.entries.set t.lockp.toNat (some { e with locked := true }) t.lockp.isLt
      lockp := t.lockp + 1, rr := 31 }
  else
    { t with entries := t.entries.set 31 (some { e with locked := false }), rr := 31 }

/-- Invalidate every unlocked entry (`21_mmu` R335). -/
def Tlb.invalidate (t : Tlb) : Tlb :=
  { t with entries := t.entries.map fun e => e.bind fun e => if e.locked then some e else none }

/-- Invalidate the entry that maps an MVA. Where several match, which `21_mmu` R331 forbids to software and R335 does not
describe, every one of them becomes invalid: DESIGN CHOICE, notes/assumptions 24. -/
def Tlb.invalidateEntry (t : Tlb) (mva : Word) : Tlb :=
  { t with entries := t.entries.map fun e => e.bind fun e => if e.hits mva then none else some e }

/-- Unlock every entry (`21_mmu` R334); the round-robin pointer stays (DESIGN CHOICE, notes/assumptions 51). -/
def Tlb.unlock (t : Tlb) : Tlb :=
  { t with entries := t.entries.map fun e => e.map fun e => { e with locked := false }, lockp := 0 }

/-- The physical address an entry gives an MVA (`21_mmu` R290). -/
def TlbEntry.pa (e : TlbEntry) (mva : Word) : BitVec 36 :=
  e.base ||| (mva &&& (BitVec.ofNat 32 (2 ^ e.size.bits - 1))).setWidth 36

/-- The AP field that governs an MVA (`21_mmu` R292): a quarter of a large or small page. -/
def TlbEntry.apFor (e : TlbEntry) (mva : Word) : BitVec 2 :=
  let n := match e.size with
    | .kb64 => (mva.extractLsb' 14 2).toNat
    | .kb4 => (mva.extractLsb' 10 2).toNat
    | _ => 0
  e.ap.extractLsb' (2 * n) 2

/-- Access permissions of a Client domain (`21_mmu` R295): none where they are unpredictable. -/
def permitted (ap : BitVec 2) (sBit rBit priv write : Bool) : Option Bool :=
  if ap = 0b00 then
    if sBit && rBit then none
    else if sBit then some (priv && !write)
    else if rBit then some (!write)
    else some false
  else if ap = 0b01 then some priv
  else if ap = 0b10 then some (priv || !write)
  else some true

/-- The physical address of the first-level descriptor (`21_mmu` R284). -/
def State.firstLevelAddress (s : State) (mva : Word) : BitVec 36 :=
  (0 : BitVec 4) ++ s.cp15.ttbase.extractLsb' 14 18 ++ mva.extractLsb' 20 12 ++ (0 : BitVec 2)

/-- Table walks are L2 cacheable (`21_mmu` R311). -/
def State.walkCached (s : State) : Bool := s.cp15.ttbase.extractLsb' 3 2 == 0b11

/-- `WalkRead` (`21_mmu` R311): a descriptor word, through the L2 when table walks are L2 cacheable. -/
def State.walkRead (s : State) (pa : BitVec 36) : Option Word × State :=
  match s.nextRead pa s.walkCached false with
  | (some b, s1) => (some (lineWord (s1.look b).1 (pa.extractLsb' 2 3)), (s1.look b).2)
  | (none, s1) => (none, s1)

/-- The four copies of one AP field. -/
def fourAp (ap : BitVec 2) : BitVec 8 := ap ++ ap ++ ap ++ ap

/-- The entry of a section or supersection (`21_mmu` R285, R289, R290); none where should-be-zero bits are
set. -/
def sectionEntry (d : Word) (mva : Word) : Option TlbEntry :=
  let e : TlbEntry :=
    { locked := false, mva := mva, size := .mb1
      base := (0 : BitVec 4) ++ d.extractLsb' 20 12 ++ (0 : BitVec 20)
      domain := d.extractLsb' 5 4, ap := fourAp (d.extractLsb' 10 2), tex := d.extractLsb' 12 3
      c := d.getLsbD 3, b := d.getLsbD 2, s := d.getLsbD 16, p := d.getLsbD 9, section_ := true }
  if d.getLsbD 4 || d.getLsbD 15 || d.getLsbD 17 || d.getLsbD 19 then none
  else if d.getLsbD 18 then
    if d.extractLsb' 5 4 ≠ 0 then none
    else
      some { e with
        size := .mb16
        base := d.extractLsb' 20 4 ++ d.extractLsb' 24 8 ++ (0 : BitVec 24)
        domain := 0 }
  else some e

/-- The physical address of the second-level descriptor (`21_mmu` R288). -/
def secondLevelAddress (d mva : Word) : BitVec 36 :=
  if d.getLsbD 1 then
    (0 : BitVec 4) ++ d.extractLsb' 12 20 ++ mva.extractLsb' 10 10 ++ (0 : BitVec 2)
  else (0 : BitVec 4) ++ d.extractLsb' 10 22 ++ mva.extractLsb' 12 8 ++ (0 : BitVec 2)

/-- The should-be-zero bits of a page table descriptor are zero (`21_mmu` R285). -/
def tableDescriptorOk (d : Word) : Bool :=
  d.extractLsb' 2 3 == 0 && (!d.getLsbD 1 || d.extractLsb' 10 2 == 0)

/-- The entry of a page (`21_mmu` R286, R287, R290), `fine` telling the kind of table; none where
should-be-zero bits are set. -/
def pageEntry (d1 d2 mva : Word) (fine : Bool) : Option TlbEntry :=
  let e : TlbEntry :=
    { locked := false, mva := mva, size := .kb4
      base := (0 : BitVec 4) ++ d2.extractLsb' 12 20 ++ (0 : BitVec 12)
      domain := d1.extractLsb' 5 4, ap := d2.extractLsb' 4 8, tex := 0
      c := d2.getLsbD 3, b := d2.getLsbD 2, s := false, p := d1.getLsbD 9, section_ := false }
  if d2.extractLsb' 0 2 = 0b01 then
    some { e with
      size := .kb64, base := (0 : BitVec 4) ++ d2.extractLsb' 16 16 ++ (0 : BitVec 16)
      tex := d2.extractLsb' 12 3, s := d2.getLsbD 15 }
  else if d2.extractLsb' 0 2 = 0b10 then some e
  else if fine then
    if d2.getLsbD 9 then none
    else
      some { e with
        size := .kb1, base := (0 : BitVec 4) ++ d2.extractLsb' 10 22 ++ (0 : BitVec 10)
        ap := fourAp (d2.extractLsb' 4 2), tex := d2.extractLsb' 6 3 }
  else if d2.extractLsb' 10 2 ≠ 0 then none
  else
    some { e with
      ap := fourAp (d2.extractLsb' 4 2), tex := d2.extractLsb' 6 3, s := d2.getLsbD 9 }

/-- The descriptor that a walk would read, looked at without an access. -/
def State.peekDescriptor (s : State) (pa : BitVec 36) : Word :=
  let line :=
    match s.l2Find (blockOf pa) with
    | some (_, l) => if s.walkCached && s.l2On then l.data else memLine s.mem (blockOf pa)
    | none => memLine s.mem (blockOf pa)
  lineWord line (pa.extractLsb' 2 3)

/-- A supersection needs sixteen identical first-level descriptors (`21_mmu` R289). -/
def State.supersectionOk (s : State) (d mva : Word) : Bool :=
  (List.range 16).all fun k =>
    s.peekDescriptor (s.firstLevelAddress (mva.extractLsb' 24 8 ++ BitVec.ofNat 4 k ++ (0 : BitVec 20))) == d

/-- Give a walk its result: an abort with the status, domain and MVA of `60_exceptions` R901. -/
def mmuAbort {α : Type} (fs : BitVec 5) (dom : Option (BitVec 4)) (mva : Word) : Exec α :=
  throw (.abort fs dom (some mva))

/-- The table walk (`21_mmu` R310). -/
def tableWalk (mva : Word) : Exec TlbEntry := do
  let s ← get
  let (d1, s1) := s.walkRead (s.firstLevelAddress mva)
  set s1
  match d1 with
  | none => mmuAbort 0b01100 none mva
  | some d1 =>
    if d1.extractLsb' 0 2 = 0b00 then mmuAbort 0b00101 none mva
    else if d1.extractLsb' 0 2 = 0b10 then
      match sectionEntry d1 mva with
      | some e =>
        require (e.size != .mb16 || s1.supersectionOk d1 mva) .descriptor
        pure e
      | none => throw (.refuse .descriptor)
    else
      require (tableDescriptorOk d1) .descriptor
      let (d2, s2) := s1.walkRead (secondLevelAddress d1 mva)
      set s2
      match d2 with
      | none => mmuAbort 0b01110 (some (d1.extractLsb' 5 4)) mva
      | some d2 =>
        if d2.extractLsb' 0 2 = 0b00 then mmuAbort 0b00111 (some (d1.extractLsb' 5 4)) mva
        else
          match pageEntry d1 d2 mva (d1.getLsbD 1) with
          | some e => pure e
          | none => throw (.refuse .descriptor)

/-- Look an MVA up in the TLB of the access, walking and inserting on a miss. -/
def tlbEntry (mva : Word) (kind : Access) : Exec TlbEntry := do
  let s ← get
  match (if kind = .fetch then s.itlb else s.dtlb).lookup mva with
  | some e => pure e
  | none =>
    let e ← tableWalk mva
    modify fun s =>
      if kind = .fetch then { s with itlb := s.itlb.insert e } else { s with dtlb := s.dtlb.insert e }
    pure e

/-- The domain and permission checks (`21_mmu` R294 to R296). -/
def checkAccess (e : TlbEntry) (mva : Word) (kind : Access) (priv : Bool) : Exec Unit := do
  let s ← get
  let d : BitVec 2 := s.cp15.dacr.extractLsb' (2 * e.domain.toNat) 2
  if d = 0b00 then
    mmuAbort (if e.section_ then 0b01001 else 0b01011) (some e.domain) mva
  else if d = 0b10 then throw (.refuse .descriptor)
  else if d = 0b01 then
    match permitted (e.apFor mva) (s.ctrlBit 8) (s.ctrlBit 9) priv (kind == .write || kind == .swap) with
    | none => throw (.refuse .descriptor)
    | some true => pure ()
    | some false => mmuAbort (if e.section_ then 0b01101 else 0b01111) (some e.domain) mva
  else pure ()

/-- A translated access: the physical address and the attributes. -/
structure Mapped where
  pa    : BitVec 36
  attrs : Attrs
deriving DecidableEq, Repr

/-- The attributes of an entry; a reserved encoding, and a shared page on a platform without coherence,
are unpredictable (`21_mmu` R298, R301). -/
def entryAttrs (e : TlbEntry) : Exec Attrs := do
  let s ← get
  require (!e.s || s.cfg.coherent) .descriptor
  match s.attrsOf e.tex e.c e.b e.s with
  | some a => pure a
  | none => throw (.refuse .descriptor)

/-- `Translate` (`21_mmu` R310). With the MMU disabled the mapping is flat, data accesses are Strongly
Ordered, and fetches are L1 cacheable (R281). -/
def translate (mva : Word) (kind : Access) (priv : Bool) : Exec Mapped := do
  let s ← get
  if s.mmuOn then
    let e ← tlbEntry mva kind
    checkAccess e mva kind priv
    let a ← entryAttrs e
    pure { pa := e.pa mva, attrs := a }
  else
    pure { pa := mva.setWidth 36, attrs := if kind = .fetch then Attrs.flatFetch else Attrs.strong }

end Sys2Proof.Machine
end

