-- ==== Sys2Proof/Machine/Caches.lean ====
section
/-!
DEFINITION. The L1 caches, the fetch buffers and the memory buffers (`22_caches` R360 to R397).
-/
namespace Sys2Proof.Machine

/-! The order of use in a set (`22_caches` R364, R387) -/

/-- The replacement state after reset or a global invalidation: way 0, then 2, 1, 3 are filled. -/
def Repl.reset : Repl := { plru := 0, order := [0, 2, 1, 3] }

/-- Way `w` is the most recently used one. Bit 0 names the pair to replace in, bit 1 the way of the first
pair, bit 2 the way of the second pair. -/
def Repl.touch (r : Repl) (w : BitVec 2) : Repl :=
  { plru :=
      if w = 0 then (r.plru &&& 0b100) ||| 0b011
      else if w = 1 then (r.plru &&& 0b100) ||| 0b001
      else if w = 2 then (r.plru &&& 0b010) ||| 0b100
      else r.plru &&& 0b010
    order := r.order.filter (· != w) ++ [w] }

/-- Point at way `w` as the next one to replace (`22_caches` R364, invalidate line). -/
def Repl.pointAt (r : Repl) (w : BitVec 2) : Repl :=
  { plru :=
      if w = 0 then r.plru &&& 0b100
      else if w = 1 then (r.plru &&& 0b100) ||| 0b010
      else if w = 2 then (r.plru &&& 0b010) ||| 0b001
      else (r.plru &&& 0b010) ||| 0b101
    order := w :: r.order.filter (· != w) }

/-- The way the pseudo-LRU bits select. -/
def Repl.pseudoLru (r : Repl) : BitVec 2 :=
  if r.plru.getLsbD 0 then (if r.plru.getLsbD 2 then 3 else 2)
  else if r.plru.getLsbD 1 then 1 else 0

/-- The way to allocate: pseudo LRU when no way is locked, else the least recently used unlocked one. -/
def Repl.victim (r : Repl) (lockedWay : BitVec 2 → Bool) : BitVec 2 :=
  if (List.range 4).any (fun k => lockedWay (BitVec.ofNat 2 k)) then
    (r.order.find? (fun w => !lockedWay w)).getD 0
  else r.pseudoLru

/-- The way to allocate and lock, one of ways 1 to 3 (`22_caches` R369, R395): while no way is locked the one that
pseudo LRU selects, else the least recently used unlocked one; none when all three are locked. Where pseudo LRU
selects way 0 the least recently used of the three is taken: DESIGN CHOICE, notes/assumptions 23. -/
def Repl.lockVictim (r : Repl) (lockedWay : BitVec 2 → Bool) : Option (BitVec 2) :=
  if ([1, 2, 3].any lockedWay) || r.pseudoLru == 0 then r.order.find? (fun w => w != 0 && !lockedWay w)
  else some r.pseudoLru

/-- The set of an L1 cache. -/
def l1Set (mva : Word) : Nat := (mva.extractLsb' 5 8).toNat

/-- The tag of an L1 cache. -/
def l1Tag (mva : Word) : BitVec 19 := mva.extractLsb' 13 19

/-- The index of a way of the set of an MVA. -/
def l1Index (mva : Word) (w : BitVec 2) : Nat := l1Set mva * 4 + w.toNat

/-- The four ways. -/
def ways : List (BitVec 2) := [0, 1, 2, 3]

/-! Memory buffers (`22_caches` R390) -/

/-- A buffered entry goes to the next level. -/
def State.issue (s : State) (e : BufEntry) : State := s.nextWrite e.line e.l2 e.mask e.unk e.data

/-- The buffered entries that a test selects leave, oldest first. -/
def State.releaseWhere (s : State) (out : BufEntry → Bool) : State :=
  (s.buffers.filter out).foldl State.issue { s with buffers := s.buffers.filter (!out ·) }

/-- An uncacheable entry of a block waits. -/
def waitsUncached (bs : List BufEntry) (line : BitVec 31) : Bool := bs.any fun x => x.line == line && x.unc

/-- Release every buffered entry of a block, oldest first. Uncacheable requests are issued in program order
(`22_caches` R420): with an uncacheable entry every uncacheable one leaves, and what waits of their blocks with them, since the
entries of one block leave in order (R381). -/
def State.releaseLine (s : State) (line : BitVec 31) : State :=
  s.releaseWhere fun e => e.line == line || (waitsUncached s.buffers line && waitsUncached s.buffers e.line)

/-- Release every uncacheable entry, with what waits of its block: an uncacheable load comes after them on the bus
(`22_caches` R381, R420). -/
def State.releaseUncached (s : State) : State := s.releaseWhere fun e => waitsUncached s.buffers e.line

/-- Release everything that waits, oldest first: the fences (`20_memory` R249 to R251, R255). -/
def State.drainBuffers (s : State) : State :=
  let s1 := s.l2Out.foldl State.issueOut { s with l2Out := [] }
  s1.buffers.foldl State.issue { s1 with buffers := [] }

/-- The stores that are held to coalesce leave, oldest first, each with the others of its block: what the store part of a
swap does (`22_caches` R390, `20_memory` R249 a). -/
def State.releaseHeld (s : State) : State :=
  (s.buffers.filter (·.coal)).foldl (fun s e => s.releaseLine e.line) s

/-- Release what the buffers must not hold: more than two coalescable entries, more than twelve entries
(`22_caches` R390). -/
def State.settleBuffers (s : State) : State :=
  let s1 :=
    if 2 < (s.buffers.filter (·.coal)).length then
      match s.buffers.find? (·.coal) with
      | some e => s.releaseLine e.line
      | none => s
    else s
  if 12 < s1.buffers.length then
    match s1.buffers with
    | e :: _ => s1.releaseLine e.line
    | [] => s1
  else s1

/-- A store joins an entry of its block. -/
def BufEntry.join (x e : BufEntry) : BufEntry :=
  { x with
    mask := x.mask ||| e.mask, data := mergeLine e.mask x.data e.data
    unk := (x.unk &&& ~~~e.mask) ||| e.unk }

/-- The buffers with a store joined to the newest entry of its block, if that one coalesces; none where it does
not (`22_caches` R390, `20_memory` R246). -/
def joinBuffer (e : BufEntry) : List BufEntry → Option (List BufEntry)
  | [] => none
  | x :: rest =>
    match joinBuffer e rest with
    | some r => some (x :: r)
    | none =>
      if x.line == e.line && x.coal && x.l2 == e.l2 && x.unc == e.unc && !rest.any (·.line == e.line) then
        some (x.join e :: rest)
      else none

/-- Add a store to the buffers: it joins an entry, or takes a new one. -/
def State.bufferStore (s : State) (e : BufEntry) : State :=
  match if e.coal then joinBuffer e s.buffers else none with
  | some bs => { s with buffers := bs }
  | none => ({ s with buffers := s.buffers ++ [e] }).settleBuffers

/-! The data cache (`22_caches` R380 to R397) -/

/-- The line of an MVA, with its index. -/
def State.dFind (s : State) (mva : Word) : Option (Nat × BitVec 2 × DLine) :=
  ways.findSome? fun w =>
    match tableGet (l1Index mva w) s.dcache.lines with
    | some l => if l.tag = l1Tag mva then some (l1Index mva w, w, l) else none
    | none => none

def State.dPut (s : State) (k : Nat) (l : DLine) : State :=
  { s with dcache := { s.dcache with lines := tableSet k l s.dcache.lines } }

def State.dDrop (s : State) (k : Nat) : State :=
  { s with dcache := { s.dcache with lines := tableErase k s.dcache.lines } }

def State.dRepl (s : State) (mva : Word) : Repl := (tableGet (l1Set mva) s.dcache.repl).getD Repl.reset

def State.setDRepl (s : State) (mva : Word) (r : Repl) : State :=
  { s with dcache := { s.dcache with repl := tableSet (l1Set mva) r s.dcache.repl } }

/-- Way `w` of the set of an MVA holds a locked line. -/
def State.dLocked (s : State) (mva : Word) (w : BitVec 2) : Bool :=
  match tableGet (l1Index mva w) s.dcache.lines with | some l => l.locked | none => false

/-- Hand a dirty line to the memory buffers: its write-back (`22_caches` R385, R394). The updates of a line with
a parity error are lost, with an imprecise abort (R388). -/
def State.dWriteBack (s : State) (l : DLine) : State :=
  if l.bad ≠ 0 then s.pend .parity
  else
    s.bufferStore
      { line := l.pa, mask := wholeLine, unk := l.unk, data := l.data, coal := false, unc := false, l2 := l.l2
        shared := l.shared }

/-- Clean line `k`: write it back when it is dirty. A clean that meets a parity error leaves the line valid and clean, with
its data and its bad bytes (a load that meets one leaves it as it was): `22_caches` R388 does not say, DESIGN CHOICE,
notes/assumptions 55. -/
def State.dClean (s : State) (k : Nat) : State :=
  match tableGet k s.dcache.lines with
  | some l => if l.dirty then (s.dPut k { l with dirty := false }).dWriteBack l else s
  | none => s

/-- Allocate a line: the victim is evicted, a dirty one is written back. With `DCLOCK.L` set the line is
locked in way 1, 2 or 3 when one is free of a lock, else way 0 gets it unlocked (`22_caches` R395); LLR
lines go to way 0 (R384). -/
def State.dAllocate (s : State) (mva : Word) (l : DLine) (llr : Bool) : State :=
  let r := s.dRepl mva
  let locked := s.cp15.dclock
  let choice : BitVec 2 × Bool :=
    if llr then (0, false)
    else if locked then
      match r.lockVictim (s.dLocked mva) with | some w => (w, true) | none => (0, false)
    else (r.victim (s.dLocked mva), false)
  let k := l1Index mva choice.1
  let s1 := s.dClean k
  (s1.dPut k { l with locked := choice.2 }).setDRepl mva (r.touch choice.1)

/-- The data of a load that cannot be relied on is free. -/
def freeLine : Exec (BitVec 256) := draw 256

/-- A block as this access sees it. -/
def lookAt (b : Block) : Exec (BitVec 256) := fun s => .ok (s.look b).1 (s.look b).2

/-- Loads of this memory fill lines of the data cache. -/
def State.fills (s : State) (m : Mapped) : Bool := s.ctrlBit 2 && m.attrs.dc

/-- Accesses of this memory are cacheable at no level (`22_caches` R420). -/
def State.uncached (s : State) (m : Mapped) : Bool := !s.fills m && !m.attrs.l2

/-- Locking a line of shared or LLR memory in the data cache is unpredictable (`22_caches` R384, R397). -/
def State.lockable (s : State) (m : Mapped) : Bool := !(s.cp15.dclock && (m.attrs.shared || m.attrs.llr))

/-- Read from the next level for the data side: a block, or, where the memory is cacheable at no level, what the
access asks for (`22_caches` R385). An error becomes an imprecise external abort and the data is free
(`60_exceptions` R905). -/
def fillRead (m : Mapped) (swap : Bool) : Exec (Block × Bool) := do
  let s ← get
  let s1 := if s.uncached m then s.releaseUncached else s
  let a := if s.uncached m then m.pa else lineBase (blockOf m.pa)
  let (b, s2) := (s1.releaseLine (blockOf m.pa)).nextRead a m.attrs.l2 swap
  set s2
  match b with
  | some b => pure (b, true)
  | none =>
    modify fun s => s.pend .external
    let d ← freeLine
    pure ({ data := d, unk := 0 }, false)

/-- The start of a data access: it is counted, and a Strongly Ordered one waits for the buffers
(`20_memory` R249). -/
def State.startAccess (s : State) (m : Mapped) : State :=
  if m.attrs.type_ = .stronglyOrdered then s.noteAccess.drainBuffers else s.noteAccess

/-- A line that a load brings into the data cache. -/
def freshLine (mva : Word) (m : Mapped) (b : Block) : DLine :=
  { tag := l1Tag mva, dirty := false, locked := false, bad := 0, unk := b.unk, pa := blockOf m.pa
    l2 := m.attrs.l2, shared := m.attrs.shared, data := b.data }

/-- A load that misses the data cache fills a line where its memory is cacheable and no error came. -/
def State.fillLine (s : State) (mva : Word) (m : Mapped) (b : Block) (ok : Bool) : State :=
  if s.fills m && ok then s.dAllocate mva (freshLine mva m b) m.attrs.llr else s

/-- An access while the cache is disabled makes the whole line unpredictable (`22_caches` R383). -/
def State.spoilLine (s : State) (k : Nat) (l : DLine) : State := s.dPut k { l with unk := wholeLine }

/-- A load of the bytes `mask` that hits line `k` in way `w`. With the cache disabled, data that is still cached is
free (`22_caches` R383); a parity error of a byte that is read frees the data (R388). The read of a swap goes past
the line, which stays, cleaned (R397; notes/assumptions 21). With the cache enabled, a load of a page that is not L1
cacheable goes past a line of its MVA, also a dirty one, which stays as it is: R382 decides a hit on the tag and the valid bit,
and says that only L1 cacheable data is cached, DESIGN CHOICE, notes/assumptions 61. -/
def loadHit (mva : Word) (m : Mapped) (swap : Bool) (mask : BitVec 32) (k : Nat) (w : BitVec 2) (l : DLine) :
    Exec (BitVec 256) := do
  let s ← get
  if s.ctrlBit 2 = false then
    modify fun s => s.spoilLine k l
    freeLine
  else if m.attrs.dc && !swap then
    modify fun s => s.setDRepl mva ((s.dRepl mva).touch w)
    if l.bad &&& mask ≠ 0 then
      modify fun s => s.pend .parity
      freeLine
    else lookAt { data := l.data, unk := l.unk }
  else
    modify fun s => if m.attrs.dc then s.dClean k else s
    let r ← fillRead m swap
    lookAt r.1

/-- The block that holds a load of the bytes `mask`, as it sees it (`20_memory` R230 step 5, `22_caches` R382 to
R386). `swap`: the read of SWP goes past the L1 data cache (R397). -/
def loadLine (mva : Word) (m : Mapped) (swap : Bool) (mask : BitVec 32) : Exec (BitVec 256) := do
  modify fun s => s.startAccess m
  let s ← get
  match s.dFind mva with
  | some (k, w, l) => loadHit mva m swap mask k w l
  | none =>
    require (!s.fills m || s.lockable m) .maintenance
    let r ← fillRead m swap
    modify fun s => s.fillLine mva m r.1 r.2
    lookAt r.1

/-- Hand a store to the memory buffers, the bytes of `unk` being unpredictable; a Strongly Ordered one leaves them
at once (`20_memory` R231, R236, R249, `22_caches` R386, R390). -/
def State.storeOut (s : State) (m : Mapped) (mask unk : BitVec 32) (data : BitVec 256) : State :=
  let s1 := s.bufferStore
    { line := blockOf m.pa, mask := mask, unk := unk, data := data, coal := m.attrs.coal, unc := s.uncached m
      l2 := m.attrs.l2, shared := m.attrs.shared }
  if m.attrs.type_ = .stronglyOrdered then s1.drainBuffers else s1

/-- A line after a store into it: new bytes have good parity and a known value. -/
def DLine.written (l : DLine) (mask : BitVec 32) (data : BitVec 256) : DLine :=
  { l with data := mergeLine mask l.data data, bad := l.bad &&& ~~~mask, unk := l.unk &&& ~~~mask }

/-- A store that hits line `k` in way `w`. With the cache disabled, what is stored is free (`22_caches` R383). The
write of a swap goes through to the next level (R402). With the cache enabled, a store to a page that is not L1 cacheable goes
past the line, which stays as it is: DESIGN CHOICE, notes/assumptions 61. -/
def storeHit (mva : Word) (m : Mapped) (swap : Bool) (mask : BitVec 32) (data : BitVec 256) (k : Nat)
    (w : BitVec 2) (l : DLine) : Exec Unit := modify fun s =>
  let l1 := l.written mask data
  if s.ctrlBit 2 = false then (s.spoilLine k l).storeOut m mask mask data
  else if m.attrs.dc then
    let s1 := s.setDRepl mva ((s.dRepl mva).touch w)
    if m.attrs.wt || m.attrs.shared || swap then (s1.dPut k l1).storeOut m mask l1.unk data
    else s1.dPut k { l1 with dirty := true }
  else s.storeOut m mask 0 data

/-- Store the selected bytes of a block (`22_caches` R382, R386). -/
def storeLine (mva : Word) (m : Mapped) (swap : Bool) (mask : BitVec 32) (data : BitVec 256) : Exec Unit := do
  modify fun s => s.startAccess m
  let s ← get
  match s.dFind mva with
  | some (k, w, l) => storeHit mva m swap mask data k w l
  | none => modify fun s => s.storeOut m mask 0 data

/-! The instruction cache (`22_caches` R360 to R369) -/

/-- The line of an MVA, with its index. -/
def State.iFind (s : State) (mva : Word) : Option (Nat × BitVec 2 × ILine) :=
  ways.findSome? fun w =>
    match tableGet (l1Index mva w) s.icache.lines with
    | some l => if l.tag = l1Tag mva then some (l1Index mva w, w, l) else none
    | none => none

def State.iPut (s : State) (k : Nat) (l : ILine) : State :=
  { s with icache := { s.icache with lines := tableSet k l s.icache.lines } }

def State.iRepl (s : State) (mva : Word) : Repl := (tableGet (l1Set mva) s.icache.repl).getD Repl.reset

def State.setIRepl (s : State) (mva : Word) (r : Repl) : State :=
  { s with icache := { s.icache with repl := tableSet (l1Set mva) r s.icache.repl } }

def State.iLocked (s : State) (mva : Word) (w : BitVec 2) : Bool :=
  match tableGet (l1Index mva w) s.icache.lines with | some l => l.locked | none => false

/-- The fetch buffer that holds an MVA. -/
def State.fetchBufferFind (s : State) (mva : Word) : Option FetchBuffer :=
  s.icache.buffers.find? (·.line == mva.extractLsb' 5 27)

/-- Put a fetched block into a fetch buffer; there are two, the older one leaves. DESIGN CHOICE: which one leaves
(notes/assumptions 18). -/
def State.fetchBufferPut (s : State) (b : FetchBuffer) : State :=
  { s with icache := { s.icache with buffers := b :: s.icache.buffers.take 1 } }

/-- The fetch buffer of a block is invalid. -/
def State.fetchBufferFree (s : State) (line : BitVec 27) : State :=
  { s with icache := { s.icache with buffers := s.icache.buffers.filter (·.line != line) } }

/-- The fetch buffers are invalid. -/
def State.flushFetch (s : State) : State := { s with icache := { s.icache with buffers := [] } }

/-- What waits in the memory buffers is to leave before a fetch of its block: an instruction cache invalidation came after
it, and the old code is not to come back (`20_memory` R257; notes/assumptions 18). -/
def State.markForFetch (s : State) : State :=
  { s with
    buffers := s.buffers.map fun e => { e with forFetch := true }
    l2Out := s.l2Out.map fun e => { e with forFetch := true } }

/-- What is to leave before a fetch of a block does, oldest first, uncacheable requests in program order and the entries of
one block in order (`22_caches` R381, R420). -/
def State.releaseForFetch (s : State) (line : BitVec 31) : State :=
  let marked := s.buffers.filter (·.forFetch)
  (s.releaseOutWhere fun e => e.line == line && e.forFetch).releaseWhere fun e =>
    e.forFetch && (e.line == line || (waitsUncached marked line && waitsUncached marked e.line))

/-- Read the block that an instruction lies in from the next level: a store that waits in the memory buffers is not seen
(`20_memory` R256), but for one that an invalidation of the instruction cache followed (R257). -/
def State.fetchRead (s : State) (m : Mapped) : Option Block × State :=
  (s.releaseForFetch (blockOf m.pa)).nextRead (lineBase (blockOf m.pa)) m.attrs.l2 false

/-- Write a fetched block into the instruction cache (`22_caches` R363). -/
def State.iFill (s : State) (mva : Word) (d : BitVec 256) : State :=
  let r := s.iRepl mva
  let w := r.victim (s.iLocked mva)
  (s.iPut (l1Index mva w) { tag := l1Tag mva, locked := false, bad := 0, data := d }).setIRepl mva
    (r.touch w)

/-- Keep a fetched block (`22_caches` R361, R363): it comes through a fetch buffer; where the instruction cache is enabled
and the memory cacheable it is written there, and the fetch buffer is free again. -/
def State.keepFetched (s : State) (mva : Word) (m : Mapped) (d : BitVec 256) : State :=
  let line := mva.extractLsb' 5 27
  let s1 := s.fetchBufferPut { line := line, data := d }
  if s.ctrlBit 12 && m.attrs.ic then (s1.iFill mva d).fetchBufferFree line else s1

/-- The block that holds an instruction, as a fetch sees it (`20_memory` R235 step 5): a hit in a fetch buffer, else
in the cache, enabled or not; else 32 bytes from the next level. The fetch buffers come first: DESIGN CHOICE,
notes/assumptions 18. The abort statuses are those of prefetch aborts (`60_exceptions` R896). -/
def fetchLine (mva : Word) (m : Mapped) : Exec (BitVec 256) := do
  let s ← get
  match s.fetchBufferFind mva with
  | some b => pure b.data
  | none =>
    match s.iFind mva with
    | some (_, w, l) =>
      modify fun s => s.setIRepl mva ((s.iRepl mva).touch w)
      if l.bad.getLsbD (mva.extractLsb' 2 3).toNat then throw (.abort 0b11000 none none) else pure l.data
    | none =>
      let (b, s1) := s.fetchRead m
      set s1
      match b with
      | none => throw (.abort 0b10110 none none)
      | some b =>
        let d ← lookAt b
        modify fun s => s.keepFetched mva m d
        pure d

/-- Which half of a word a halfword at an even address is (`20_memory` R213, R214). -/
def State.highHalf (s : State) (a : Word) : Bool := a.getLsbD 1 != s.bigEndian

/-- `InstrFetch` outside the Debug SRAM: the aligned word that holds the instruction (`20_memory` R235). All
MMU faults have the one status of an instruction MMU exception (`60_exceptions` R896). -/
def fetchWord (mva : Word) : Exec Word := do
  let s ← get
  let m ← fun s0 =>
    match translate mva .fetch s.privileged s0 with
    | .error (.abort ..) s1 => .error (.abort 0b10000 none none) s1
    | r => r
  require (m.attrs.type_ != .deviceNonShared) .deviceFetch
  let d ← fetchLine mva m
  pure (lineWord d (mva.extractLsb' 2 3))

/-! Data accesses of the instructions (`20_memory` R230 to R234) -/

/-- `DBR0` or `DBR1` compares with this kind of access (`61_debug_pmu_power` R1042). -/
def typeMatch (e : BitVec 2) (store : Bool) : Bool :=
  (e == 0b01 && store) || e == 0b10 || (e == 0b11 && !store)

/-- A byte address of the access matches a data breakpoint (`61_debug_pmu_power` R1042). -/
def State.dataBreak (s : State) (store : Bool) (b : Word) : Bool :=
  let e0 := s.cp15.dbcon.extractLsb' 0 2
  let e1 := s.cp15.dbcon.extractLsb' 2 2
  if s.cp15.dbcon.getLsbD 8 then
    typeMatch e0 store && (b &&& ~~~s.cp15.dbr1) == (s.cp15.dbr0 &&& ~~~s.cp15.dbr1)
  else (typeMatch e0 store && b == s.cp15.dbr0) || (typeMatch e1 store && b == s.cp15.dbr1)

/-- What every data access of `n` bytes at an aligned MVA leaves: that one of less than a word was made
(`10_state` R76 b), and a data breakpoint that it matches (R1040, R1043, R1045). -/
def State.watch (s : State) (store : Bool) (mva : Word) (n : Nat) : State :=
  let s1 := { s with subWord := s.subWord || decide (n < 4) }
  if s.debugOn && !s.dbg.sds && (List.range n).any (fun k => s.dataBreak store (mva + BitVec.ofNat 32 k)) then
    { s1 with dbg := { s.dbg with hit := true } }
  else s1

/-- The privilege of an access: User for the T forms (`20_memory` R232). -/
def State.accessPriv (s : State) (user : Bool) : Bool := s.privileged && !user

/-- The alignment check (`20_memory` R221): an alignment fault has an unknown status bit 1
(`60_exceptions` R901). -/
def checkAligned (va : Word) (bits : Nat) : Exec Unit := do
  let s ← get
  if s.ctrlBit 1 && va &&& BitVec.ofNat 32 (2 ^ bits - 1) != 0 then
    let x ← draw 1
    throw (.abort ((0 : BitVec 3) ++ x ++ (1 : BitVec 1)) none (some (s.pidRemap va)))
  else pure ()

/-- The mask of `n` bytes from byte `k` of a block. -/
def byteMask (k n : Nat) : BitVec 32 := BitVec.ofNat 32 ((2 ^ n - 1) * 2 ^ k)

/-- A value of up to a word placed at byte `k` of a block. -/
def placeAt (k : Nat) (v : Word) : BitVec 256 := v.setWidth 256 <<< (8 * k)

/-- Where the word of an address lies in its block. -/
def wordOffset (mva : Word) : Nat := ((mva &&& ~~~3).extractLsb' 0 5).toNat

/-- The aligned word of a load, translated and checked, at an address that passed the alignment check. An MMU abort of a
misaligned access reports the aligned address: DESIGN CHOICE, notes/assumptions 50. -/
def loadAligned (va : Word) (user : Bool) : Exec Word := do
  let s ← get
  let mva := s.pidRemap va &&& ~~~3
  let m ← translate mva .read (s.accessPriv user)
  modify fun s => s.watch false mva 4
  let d ← loadLine mva m false (byteMask (wordOffset mva) 4)
  pure (lineWord d (mva.extractLsb' 2 3))

/-- Store an aligned word; the address of an MMU abort is that of `loadAligned`. -/
def storeAligned (va : Word) (user : Bool) (v : Word) : Exec Unit := do
  let s ← get
  let mva := s.pidRemap va &&& ~~~3
  let m ← translate mva .write (s.accessPriv user)
  modify fun s => s.watch true mva 4
  let k := wordOffset mva
  storeLine mva m false (byteMask k 4) (placeAt k v)

/-- Load a word; a misaligned address reads the aligned word rotated (`20_memory` R222 a). -/
def loadWord (va : Word) (user : Bool) : Exec Word := do
  checkAligned va 2
  let w ← loadAligned va user
  pure (w.rotateRight (8 * (va.extractLsb' 0 2).toNat))

/-- Store a word; the low two address bits are ignored (`20_memory` R222 b). -/
def storeWord (va : Word) (user : Bool) (v : Word) : Exec Unit := do
  checkAligned va 2
  storeAligned va user v

/-- The lane of a byte address in its word (`20_memory` R213). -/
def State.byteLane (s : State) (a : Word) : Nat :=
  let k := (a.extractLsb' 0 2).toNat
  if s.bigEndian then 3 - k else k

/-- The byte lane where a halfword at an even address starts (`20_memory` R213). -/
def State.halfLane (s : State) (a : Word) : Nat := if s.highHalf a then 2 else 0

/-- Load a byte. -/
def loadByte (va : Word) (user : Bool) : Exec Byte := do
  let s ← get
  let mva := s.pidRemap va
  let m ← translate mva .read (s.accessPriv user)
  modify fun s => s.watch false mva 1
  let d ← loadLine mva m false (byteMask (wordOffset mva + s.byteLane mva) 1)
  pure ((lineWord d (mva.extractLsb' 2 3)).extractLsb' (8 * s.byteLane mva) 8)

/-- Store a byte. -/
def storeByte (va : Word) (user : Bool) (v : Byte) : Exec Unit := do
  let s ← get
  let mva := s.pidRemap va
  let m ← translate mva .write (s.accessPriv user)
  modify fun s => s.watch true mva 1
  let k := wordOffset mva + s.byteLane mva
  storeLine mva m false (byteMask k 1) (placeAt k (v.setWidth 32))

/-- Load a halfword; a misaligned one is unpredictable without the alignment check (`20_memory` R222 c). -/
def loadHalf (va : Word) : Exec Half := do
  checkAligned va 1
  require (!va.getLsbD 0) .misaligned
  let s ← get
  let mva := s.pidRemap va
  let m ← translate mva .read s.privileged
  modify fun s => s.watch false mva 2
  let d ← loadLine mva m false (byteMask (wordOffset mva + s.halfLane mva) 2)
  pure ((lineWord d (mva.extractLsb' 2 3)).extractLsb' (8 * s.halfLane mva) 16)

/-- Store a halfword. -/
def storeHalf (va : Word) (v : Half) : Exec Unit := do
  checkAligned va 1
  require (!va.getLsbD 0) .misaligned
  let s ← get
  let mva := s.pidRemap va
  let m ← translate mva .write s.privileged
  modify fun s => s.watch true mva 2
  let k := wordOffset mva + s.halfLane mva
  storeLine mva m false (byteMask k 2) (placeAt k (v.setWidth 32))

/-- The end of a swap: on a region configured as Shared it is a DMB, on another one no fence (`20_memory` R249 a). The store
of the swap leaves the buffers in any case, so that no other agent comes between the read and the write (R261); that it does so
on a page that is not coherent as well is a DESIGN CHOICE, notes/assumptions 21. -/
def State.swapFence (s : State) (m : Mapped) : State :=
  if m.attrs.shared then s.drainBuffers else s.releaseLine (blockOf m.pa)

/-- The read and the write of SWP at an aligned MVA (`45_arm_loadstore` R615): both permissions are checked
first, the store part releases the stores that are held (`22_caches` R390), the breakpoint unit sees a store, and both halves
go to the next level (R402) within the step (`20_memory` R261). -/
def swapWord (mva : Word) (n : Nat) (mask : BitVec 32) (data : BitVec 256) : Exec Word := do
  let s ← get
  let m ← translate mva .swap s.privileged
  modify fun s => s.watch true mva n
  let d ← loadLine mva m true mask
  modify State.releaseHeld
  storeLine mva m true mask data
  modify fun s => s.swapFence m
  pure (lineWord d (mva.extractLsb' 2 3))

/-- The words of a multiple load, lowest address first (`20_memory` R233). -/
def loadWords (va : Word) : Nat → Exec (List Word)
  | 0 => pure []
  | n + 1 => do
    let w ← loadAligned va false
    let rest ← loadWords (va + 4) n
    pure (w :: rest)

/-- The words of a multiple store, lowest address first. -/
def storeWords (va : Word) : List Word → Exec Unit
  | [] => pure ()
  | w :: rest => do
    storeAligned va false w
    storeWords (va + 4) rest

end Sys2Proof.Machine
end

