-- ==== Sys2Proof/Machine/CoprocOps.lean ====
section
/-!
DEFINITION. Reading and writing coprocessor registers: the access checks common to CP15, CP14 and CP7
(`43_cp15_functions` R770, `44_cp14_cp7` R850, R860).
-/
namespace Sys2Proof.Machine

/-- What reading a coprocessor register gives: the value, and the state after its read side effects. -/
abbrev CpRead := State → Word × State

/-- What writing a value to a coprocessor register does; a write may be unpredictable. -/
abbrev CpWrite := State → Word → Except Refusal State

/-- A register without read side effects. -/
def plainRead (f : State → Word) : CpRead := fun s => (f s, s)

/-- A register with reserved bits, which read as free values (notes/assumptions 15). -/
def reservedRead (reserved : Word) (f : State → Word) : CpRead := fun s =>
  ((f s &&& ~~~reserved) ||| (s.freeBits 32 &&& reserved), s.drawn)

/-- A register with reserved bits: writing a 1 to one is unpredictable (`00_scope` R17; notes/assumptions 15). -/
def reservedWrite (reserved : Word) (write : CpWrite) : CpWrite := fun s v =>
  if v &&& reserved = 0 then write s v else .error .reservedBits

/-- A register whose write is always defined. -/
def plainWrite (f : State → Word → State) : CpWrite := fun s v => .ok (f s v)

/-- `InPrivilegedMode()`, else the undefined instruction exception (R770, R850, R860). -/
def needPrivilege (s : State) (body : Host.Outcome State Fault Refusal) :
    Host.Outcome State Fault Refusal :=
  if s.privileged then body else s.raiseUndefined

/-- MRC of CP15: R15 is unpredictable (R770). -/
def cp15Read (cond : Cond) (rd : Reg) (read : CpRead) (s : State) : Host.Outcome State Fault Refusal :=
  whenCond cond s <|
  needPrivilege s <|
  orRefuse (rd != 15) .pcOperand <|
  .next ((read s).2.setReg rd (read s).1).advance

/-- The end of a write. -/
def finishWrite (r : Except Refusal State) : Host.Outcome State Fault Refusal :=
  match r with
  | .ok s => .next s.advance
  | .error e => .refused e

/-- MCR to a register of CP15 or CP14: R15 is unpredictable (R770, R850). -/
def cpWrite (cond : Cond) (rd : Reg) (write : CpWrite) (s : State) : Host.Outcome State Fault Refusal :=
  whenCond cond s <|
  needPrivilege s <|
  orRefuse (rd != 15) .pcOperand <|
  finishWrite (write s (s.reg rd))

/-- MCR to a register of CP7: no rule shuts R15 out, which reads as `10_state` R36 says (R860). -/
def cp7Write (cond : Cond) (rd : Reg) (write : CpWrite) (s : State) : Host.Outcome State Fault Refusal :=
  whenCond cond s <|
  needPrivilege s <|
  finishWrite (write s (s.reg rd))

/-- Write N, Z, C and V from bits 31 to 28 (`10_state` R45). -/
def State.flagsFrom (s : State) (v : Word) : State :=
  s.setFlags (v.getLsbD 31) (v.getLsbD 30) (v.getLsbD 29) (v.getLsbD 28)

/-- MRC of CP14 or CP7: R15 receives the flags (R850, R860). -/
def cp14Read (cond : Cond) (rd : Reg) (read : CpRead) (s : State) : Host.Outcome State Fault Refusal :=
  whenCond cond s <|
  needPrivilege s <|
  .next (if rd = 15 then (read s).2.flagsFrom (read s).1 else (read s).2.setReg rd (read s).1).advance

/-- A function of CP15 that needs privilege (R770). -/
def cp15Function (cond : Cond) (rd : Reg) (f : Word → Exec Unit) (s : State) :
    Host.Outcome State Fault Refusal :=
  whenCond cond s <|
  needPrivilege s <|
  orRefuse (rd != 15) .pcOperand <|
  runExec (f (s.reg rd)) s

/-- A function of CP15 that User mode may use (R770). -/
def cp15UserFunction (cond : Cond) (rd : Reg) (f : Word → Exec Unit) (s : State) :
    Host.Outcome State Fault Refusal :=
  whenCond cond s <|
  orRefuse (rd != 15) .pcOperand <|
  runExec (f (s.reg rd)) s

/-- In Halt Mode outside Special Debug State, writes to the debug registers are ignored (`10_state`
R132). -/
def haltGate (write : CpWrite) : CpWrite := fun s v =>
  if s.haltMode && !s.dbg.sds then .ok s else write s v

/-- A write that is unpredictable unless a condition holds. -/
def guarded (ok : Bool) (r : Refusal) (rest : Except Refusal State) : Except Refusal State :=
  if ok then rest else .error r

end Sys2Proof.Machine
end

