-- ==== Sys2Proof/Machine/Cp14.lean ====
section
/-!
DEFINITION. The registers of CP14: performance monitoring, power, debug; LDC and STC of CP14 (`10_state` R110 to R137,
`44_cp14_cp7` R850 to R856).
-/
namespace Sys2Proof.Machine

/-- Change the performance monitoring unit. -/
def State.setPmu (s : State) (f : Pmu → Pmu) : State := { s with pmu := f s.pmu }

/-- Change the debug unit. -/
def State.setDbg (s : State) (f : Debug → Debug) : State := { s with dbg := f s.dbg }

/-- PMNC (`10_state` R111). -/
def pmncValue (p : Pmu) : Word :=
  0x24000000 ||| (if p.m then 16 else 0) ||| (if p.d then 8 else 0) ||| (if p.e then 1 else 0)

/-- The four performance counters hold free values. -/
def State.freeCounters (s : State) : State :=
  { s with
    pmu := { s.pmu with pmn := Vector.ofFn fun k => Config.freeBits 32 (s.free + k.val) }
    free := s.free + 4 }

/-- Writing PMNC (`61_debug_pmu_power` R1003). Resetting the performance counters while disabling them
leaves them free; setting D makes the prescaler free (R1001). -/
def writePmnc : CpWrite := reservedWrite 0x00FFFFE0 <| plainWrite fun s v =>
  let bad := v.getLsbD 1 && s.pmu.counting && !(v.getLsbD 0 && !v.getLsbD 4)
  let s1 :=
    if bad then s.freeCounters
    else if v.getLsbD 1 then s.setPmu fun p => { p with pmn := Vector.replicate 4 0 } else s
  let s2 := if v.getLsbD 2 then s1.setPmu fun p => { p with ccnt := 0 } else s1
  let s3 :=
    if v.getLsbD 3 && !s.pmu.d then (s2.setPmu fun p => { p with presc := s2.freeBits 6 }).drawn else s2
  s3.setPmu fun p => { p with e := v.getLsbD 0, d := v.getLsbD 3, m := v.getLsbD 4 }

/-- Writing EVTSEL while the performance counters count leaves them free (`10_state` R115). -/
def writeEvtsel : CpWrite := plainWrite fun s v =>
  (if s.pmu.counting then s.freeCounters else s).setPmu fun p => { p with evtsel := v }

/-- A performance counter. -/
def readPmn (k : Fin 4) : CpRead := plainRead fun s => s.pmu.pmn.get k

/-- Writing a performance counter; one that is enabled leaves them free (`70_reset_and_hazards` R1130, row 9), one
that is disabled is written (`61_debug_pmu_power` R1001). -/
def writePmn (k : Fin 4) : CpWrite := plainWrite fun s v =>
  if s.pmu.enabled k then s.freeCounters else s.setPmu fun p => { p with pmn := p.pmn.set k.val v k.isLt }

/-- Writing CCNT; with the counters enabled it leaves CCNT free (`70_reset_and_hazards` R1130, row 9). -/
def writeCcnt : CpWrite := plainWrite fun s v =>
  if s.pmu.e then s.drawn.setPmu fun p => { p with ccnt := s.freeBits 32 } else s.setPmu fun p => { p with ccnt := v }

/-- Writing PWRMODE (`61_debug_pmu_power` R1090). -/
def writePwrmode : CpWrite := reservedWrite 0xFFFFFFF0 fun s v =>
  let m := v.extractLsb' 0 4
  guarded (m == 0 || s.cfg.pwrModes.contains m) .powerMode <|
  .ok { s with pwr := { s.pwr with mode := m } }

/-- Writing TX sets TR (`10_state` R133). -/
def writeTx : CpWrite := plainWrite fun s v => s.setDbg fun d => { d with tx := v, tr := true }

/-- Reading RX clears RR (`10_state` R134); with RR clear the value is a free one (`61_debug_pmu_power` R1050,
`93_implementation_defined` section 2.3). -/
def readRx : CpRead := fun s =>
  if s.dbg.rr then (s.dbg.rx, s.setDbg fun d => { d with rr := false }) else (s.freeBits 32, s.drawn)

/-- DCSR with bit B from the pin (`10_state` R130). -/
def State.dcsrValue (s : State) : Word := s.dbg.dcsr ||| (if s.pins.soc then 0x20000000 else 0)

/-- The DCSR bits that software writes: GE, TT, SA, MOE, M and E. -/
def dcsrSoftware : Word := 0x8000007F

/-- Writing DCSR (`10_state` R130 to R132). Changing TT or M while tracing makes the trace free; enabling
the trace buffer starts the counts again (`61_debug_pmu_power` R1060), and goes on from the pointer over entries that
were not read (R1069): DESIGN CHOICE, notes/assumptions 27. The reserved code 0b111 of MOE is stored like any other: DESIGN
CHOICE, notes/assumptions 64. -/
def writeDcsr : CpWrite := haltGate <| reservedWrite 0x1F20FF80 <| plainWrite fun s v =>
  let new := (s.dbg.dcsr &&& ~~~dcsrSoftware) ||| (v &&& dcsrSoftware)
  let s1 := if s.tracing && (new ^^^ s.dbg.dcsr) &&& 0x42 != 0 then s.scrambleTrace else s
  let s2 := s1.setDbg fun d => { d with dcsr := new }
  if s2.tracing && !s.tracing then s2.setDbg fun d => { d with tbCnt := 0, tbFill := 0 } else s2

/-- Reading TBREG pops the oldest entry (`61_debug_pmu_power` R1069); while tracing, the value and the trace
are free. -/
def readTbreg : CpRead := fun s =>
  if s.tracing then (s.freeBits 32, s.drawn.scrambleTrace)
  else
    ((s.freeBits 24) ++ (tableGet s.dbg.tbPtr.toNat s.dbg.tb).getD 0,
      s.drawn.setDbg fun d =>
        { d with
          tb := tableErase d.tbPtr.toNat d.tb
          tbPtr := d.tbPtr + 1
          tbMarks := d.tbMarks.filter (· != d.tbPtr) })

/-- Reading a checkpoint register (`10_state` R137); while tracing, the value and the trace are free. -/
def readChkpt (f : Debug → Word) : CpRead := fun s =>
  if s.tracing then (s.freeBits 32, s.drawn.scrambleTrace) else (f s.dbg, s)

/-- Writing a checkpoint register; while tracing, the trace becomes free. -/
def writeChkpt (f : Word → Debug → Debug) : CpWrite := plainWrite fun s v =>
  if s.tracing then s.scrambleTrace else s.setDbg (f v)

/-- TXRXCTRL (`10_state` R135). -/
def txrxctrlValue (d : Debug) : Word :=
  BitVec.ofBool d.rr ++ BitVec.ofBool d.ov ++ BitVec.ofBool d.d ++ BitVec.ofBool d.tr ++ (0 : BitVec 28)

/-- Writing TXRXCTRL changes OV only. -/
def writeTxrxctrl : CpWrite := reservedWrite 0x0FFFFFFF <| plainWrite fun s v => s.setDbg fun d => { d with ov := v.getLsbD 30 }

/-- What reading PMNC gives. -/
def pmncRead : CpRead := reservedRead 0x00FFFFE0 fun s => pmncValue s.pmu

/-- MRC of PMNC (`44_cp14_cp7` R851). -/
def execMrcPmnc (cond : Cond) (rd : BitVec 4) (s : State) :
    Host.Outcome State Fault Refusal :=
  cp14Read cond rd pmncRead s

/-- What writing PMNC does. -/
def pmncWrite : CpWrite := writePmnc

/-- MCR to PMNC (`44_cp14_cp7` R851). -/
def execMcrPmnc (cond : Cond) (rd : BitVec 4) (s : State) :
    Host.Outcome State Fault Refusal :=
  cpWrite cond rd pmncWrite s

/-- What reading CCNT gives. -/
def ccntRead : CpRead := plainRead fun s => s.pmu.ccnt

/-- MRC of CCNT (`44_cp14_cp7` R851). -/
def execMrcCcnt (cond : Cond) (rd : BitVec 4) (s : State) :
    Host.Outcome State Fault Refusal :=
  cp14Read cond rd ccntRead s

/-- What writing CCNT does. -/
def ccntWrite : CpWrite := writeCcnt

/-- MCR to CCNT (`44_cp14_cp7` R851). -/
def execMcrCcnt (cond : Cond) (rd : BitVec 4) (s : State) :
    Host.Outcome State Fault Refusal :=
  cpWrite cond rd ccntWrite s

/-- What reading INTEN gives. -/
def intenRead : CpRead := reservedRead 0xFFFFFFE0 fun s => s.pmu.inten.setWidth 32

/-- MRC of INTEN (`44_cp14_cp7` R851). -/
def execMrcInten (cond : Cond) (rd : BitVec 4) (s : State) :
    Host.Outcome State Fault Refusal :=
  cp14Read cond rd intenRead s

/-- What writing INTEN does. -/
def intenWrite : CpWrite := reservedWrite 0xFFFFFFE0 <| plainWrite fun s v =>
  s.setPmu fun p => { p with inten := v.extractLsb' 0 5 }

/-- MCR to INTEN (`44_cp14_cp7` R851). -/
def execMcrInten (cond : Cond) (rd : BitVec 4) (s : State) :
    Host.Outcome State Fault Refusal :=
  cpWrite cond rd intenWrite s

/-- What reading FLAG gives. -/
def flagRead : CpRead := reservedRead 0xFFFFFFE0 fun s => s.pmu.flag.setWidth 32

/-- MRC of FLAG (`44_cp14_cp7` R851). -/
def execMrcFlag (cond : Cond) (rd : BitVec 4) (s : State) :
    Host.Outcome State Fault Refusal :=
  cp14Read cond rd flagRead s

/-- What writing FLAG does. -/
def flagWrite : CpWrite := reservedWrite 0xFFFFFFE0 <| plainWrite fun s v =>
  s.setPmu fun p => { p with flag := p.flag &&& ~~~(v.extractLsb' 0 5) }

/-- MCR to FLAG (`44_cp14_cp7` R851). -/
def execMcrFlag (cond : Cond) (rd : BitVec 4) (s : State) :
    Host.Outcome State Fault Refusal :=
  cpWrite cond rd flagWrite s

/-- What reading EVTSEL gives. -/
def evtselRead : CpRead := plainRead fun s => s.pmu.evtsel

/-- MRC of EVTSEL (`44_cp14_cp7` R851). -/
def execMrcEvtsel (cond : Cond) (rd : BitVec 4) (s : State) :
    Host.Outcome State Fault Refusal :=
  cp14Read cond rd evtselRead s

/-- What writing EVTSEL does. -/
def evtselWrite : CpWrite := writeEvtsel

/-- MCR to EVTSEL (`44_cp14_cp7` R851). -/
def execMcrEvtsel (cond : Cond) (rd : BitVec 4) (s : State) :
    Host.Outcome State Fault Refusal :=
  cpWrite cond rd evtselWrite s

/-- What reading PMN0 gives. -/
def pmn0Read : CpRead := readPmn 0

/-- MRC of PMN0 (`44_cp14_cp7` R851). -/
def execMrcPmn0 (cond : Cond) (rd : BitVec 4) (s : State) :
    Host.Outcome State Fault Refusal :=
  cp14Read cond rd pmn0Read s

/-- What writing PMN0 does. -/
def pmn0Write : CpWrite := writePmn 0

/-- MCR to PMN0 (`44_cp14_cp7` R851). -/
def execMcrPmn0 (cond : Cond) (rd : BitVec 4) (s : State) :
    Host.Outcome State Fault Refusal :=
  cpWrite cond rd pmn0Write s

/-- What reading PMN1 gives. -/
def pmn1Read : CpRead := readPmn 1

/-- MRC of PMN1 (`44_cp14_cp7` R851). -/
def execMrcPmn1 (cond : Cond) (rd : BitVec 4) (s : State) :
    Host.Outcome State Fault Refusal :=
  cp14Read cond rd pmn1Read s

/-- What writing PMN1 does. -/
def pmn1Write : CpWrite := writePmn 1

/-- MCR to PMN1 (`44_cp14_cp7` R851). -/
def execMcrPmn1 (cond : Cond) (rd : BitVec 4) (s : State) :
    Host.Outcome State Fault Refusal :=
  cpWrite cond rd pmn1Write s

/-- What reading PMN2 gives. -/
def pmn2Read : CpRead := readPmn 2

/-- MRC of PMN2 (`44_cp14_cp7` R851). -/
def execMrcPmn2 (cond : Cond) (rd : BitVec 4) (s : State) :
    Host.Outcome State Fault Refusal :=
  cp14Read cond rd pmn2Read s

/-- What writing PMN2 does. -/
def pmn2Write : CpWrite := writePmn 2

/-- MCR to PMN2 (`44_cp14_cp7` R851). -/
def execMcrPmn2 (cond : Cond) (rd : BitVec 4) (s : State) :
    Host.Outcome State Fault Refusal :=
  cpWrite cond rd pmn2Write s

/-- What reading PMN3 gives. -/
def pmn3Read : CpRead := readPmn 3

/-- MRC of PMN3 (`44_cp14_cp7` R851). -/
def execMrcPmn3 (cond : Cond) (rd : BitVec 4) (s : State) :
    Host.Outcome State Fault Refusal :=
  cp14Read cond rd pmn3Read s

/-- What writing PMN3 does. -/
def pmn3Write : CpWrite := writePmn 3

/-- MCR to PMN3 (`44_cp14_cp7` R851). -/
def execMcrPmn3 (cond : Cond) (rd : BitVec 4) (s : State) :
    Host.Outcome State Fault Refusal :=
  cpWrite cond rd pmn3Write s

/-- What reading CCLKCFG gives. -/
def cclkcfgRead : CpRead := reservedRead 0xFFFFFFF0 fun s => s.pwr.cclkcfg.setWidth 32

/-- MRC of CCLKCFG (`44_cp14_cp7` R851). -/
def execMrcCclkcfg (cond : Cond) (rd : BitVec 4) (s : State) :
    Host.Outcome State Fault Refusal :=
  cp14Read cond rd cclkcfgRead s

/-- What writing CCLKCFG does. -/
def cclkcfgWrite : CpWrite := reservedWrite 0xFFFFFFF0 <| plainWrite fun s v =>
  { s with pwr := { s.pwr with cclkcfg := v.extractLsb' 0 4 } }

/-- MCR to CCLKCFG (`44_cp14_cp7` R851). -/
def execMcrCclkcfg (cond : Cond) (rd : BitVec 4) (s : State) :
    Host.Outcome State Fault Refusal :=
  cpWrite cond rd cclkcfgWrite s

/-- What reading PWRMODE gives. -/
def pwrmodeRead : CpRead := reservedRead 0xFFFFFFF0 fun s => s.pwr.mode.setWidth 32

/-- MRC of PWRMODE (`44_cp14_cp7` R851). -/
def execMrcPwrmode (cond : Cond) (rd : BitVec 4) (s : State) :
    Host.Outcome State Fault Refusal :=
  cp14Read cond rd pwrmodeRead s

/-- What writing PWRMODE does. -/
def pwrmodeWrite : CpWrite := writePwrmode

/-- MCR to PWRMODE (`44_cp14_cp7` R851). -/
def execMcrPwrmode (cond : Cond) (rd : BitVec 4) (s : State) :
    Host.Outcome State Fault Refusal :=
  cpWrite cond rd pwrmodeWrite s

/-- What writing TX does. -/
def txWrite : CpWrite := writeTx

/-- MCR to TX (`44_cp14_cp7` R851). -/
def execMcrTx (cond : Cond) (rd : BitVec 4) (s : State) :
    Host.Outcome State Fault Refusal :=
  cpWrite cond rd txWrite s

/-- What reading RX gives. -/
def rxRead : CpRead := readRx

/-- MRC of RX (`44_cp14_cp7` R851). -/
def execMrcRx (cond : Cond) (rd : BitVec 4) (s : State) :
    Host.Outcome State Fault Refusal :=
  cp14Read cond rd rxRead s

/-- What reading DCSR gives. -/
def dcsrRead : CpRead := reservedRead 0x1F20FF80 State.dcsrValue

/-- MRC of DCSR (`44_cp14_cp7` R851). -/
def execMrcDcsr (cond : Cond) (rd : BitVec 4) (s : State) :
    Host.Outcome State Fault Refusal :=
  cp14Read cond rd dcsrRead s

/-- What writing DCSR does. -/
def dcsrWrite : CpWrite := writeDcsr

/-- MCR to DCSR (`44_cp14_cp7` R851). -/
def execMcrDcsr (cond : Cond) (rd : BitVec 4) (s : State) :
    Host.Outcome State Fault Refusal :=
  cpWrite cond rd dcsrWrite s

/-- What reading TBREG gives. -/
def tbregRead : CpRead := readTbreg

/-- MRC of TBREG (`44_cp14_cp7` R851). -/
def execMrcTbreg (cond : Cond) (rd : BitVec 4) (s : State) :
    Host.Outcome State Fault Refusal :=
  cp14Read cond rd tbregRead s

/-- What reading CHKPT0 gives. -/
def chkpt0Read : CpRead := readChkpt Debug.chkpt0

/-- MRC of CHKPT0 (`44_cp14_cp7` R851). -/
def execMrcChkpt0 (cond : Cond) (rd : BitVec 4) (s : State) :
    Host.Outcome State Fault Refusal :=
  cp14Read cond rd chkpt0Read s

/-- What writing CHKPT0 does. -/
def chkpt0Write : CpWrite := writeChkpt fun v d => { d with chkpt0 := v }

/-- MCR to CHKPT0 (`44_cp14_cp7` R851). -/
def execMcrChkpt0 (cond : Cond) (rd : BitVec 4) (s : State) :
    Host.Outcome State Fault Refusal :=
  cpWrite cond rd chkpt0Write s

/-- What reading CHKPT1 gives. -/
def chkpt1Read : CpRead := readChkpt Debug.chkpt1

/-- MRC of CHKPT1 (`44_cp14_cp7` R851). -/
def execMrcChkpt1 (cond : Cond) (rd : BitVec 4) (s : State) :
    Host.Outcome State Fault Refusal :=
  cp14Read cond rd chkpt1Read s

/-- What writing CHKPT1 does. -/
def chkpt1Write : CpWrite := writeChkpt fun v d => { d with chkpt1 := v }

/-- MCR to CHKPT1 (`44_cp14_cp7` R851). -/
def execMcrChkpt1 (cond : Cond) (rd : BitVec 4) (s : State) :
    Host.Outcome State Fault Refusal :=
  cpWrite cond rd chkpt1Write s

/-- What reading TXRXCTRL gives. -/
def txrxctrlRead : CpRead := reservedRead 0x0FFFFFFF fun s => txrxctrlValue s.dbg

/-- MRC of TXRXCTRL (`44_cp14_cp7` R851). -/
def execMrcTxrxctrl (cond : Cond) (rd : BitVec 4) (s : State) :
    Host.Outcome State Fault Refusal :=
  cp14Read cond rd txrxctrlRead s

/-- What writing TXRXCTRL does. -/
def txrxctrlWrite : CpWrite := writeTxrxctrl

/-- MCR to TXRXCTRL (`44_cp14_cp7` R851). -/
def execMcrTxrxctrl (cond : Cond) (rd : BitVec 4) (s : State) :
    Host.Outcome State Fault Refusal :=
  cpWrite cond rd txrxctrlWrite s

/-- An encoding that names no writable register of CP14 (`44_cp14_cp7` R850). -/
def execMcrP14Other (cond : Cond) (_opcode1 : BitVec 3) (_crn _rd : BitVec 4) (_opcode2 : BitVec 3)
    (_crm : BitVec 4) (s : State) :
    Host.Outcome State Fault Refusal :=
  whenCond cond s <|
    needPrivilege s <| .refused .coprocessorRegister

/-- An encoding that names no readable register of CP14 (`44_cp14_cp7` R850). -/
def execMrcP14Other (cond : Cond) (_opcode1 : BitVec 3) (_crn _rd : BitVec 4) (_opcode2 : BitVec 3)
    (_crm : BitVec 4) (s : State) :
    Host.Outcome State Fault Refusal :=
  whenCond cond s <|
    needPrivilege s <| .refused .coprocessorRegister

/-- The CP14 registers LDC writes (R854). -/
def ldcRegister (crd : BitVec 4) : Option CpWrite :=
  if crd = 6 then some cclkcfgWrite
  else if crd = 7 then some pwrmodeWrite
  else if crd = 8 then some txWrite
  else if crd = 10 then some dcsrWrite
  else if crd = 12 then some chkpt0Write
  else if crd = 13 then some chkpt1Write
  else if crd = 14 then some txrxctrlWrite
  else none

/-- The CP14 registers STC reads (R855). -/
def stcRegister (crd : BitVec 4) : Option CpRead :=
  if crd = 6 then some cclkcfgRead
  else if crd = 7 then some pwrmodeRead
  else if crd = 9 then some rxRead
  else if crd = 10 then some dcsrRead
  else if crd = 11 then some tbregRead
  else if crd = 12 then some chkpt0Read
  else if crd = 13 then some chkpt1Read
  else if crd = 14 then some txrxctrlRead
  else none

/-- The address of LDC and STC (R853). -/
def State.am5 (s : State) (pBit uBit wBit : Bool) (rn : Reg) (offset8 : BitVec 8) : Address :=
  coprocessorAddress pBit uBit wBit (s.reg rn) (offset8.setWidth 32 <<< 2)

/-- The forms of addressing mode 5 that are predictable (R853). -/
def am5Ok (pBit uBit wBit : Bool) (rn : Reg) (body : Host.Outcome State Fault Refusal) :
    Host.Outcome State Fault Refusal :=
  orRefuse (pBit || uBit || wBit) .coprocessorForm <| orRefuse (!wBit || rn != 15) .writeback body

/-- Write a base register. -/
def State.baseUpdate (s : State) (rn : Reg) (wb : Option Word) : State :=
  match wb with
  | some b => s.setReg rn b
  | none => s

/-- The word of LDC: a misaligned address faults or has its low bits ignored (R853). -/
def loadCoprocessor (va : Word) : Exec Word := do
  checkAligned va 2
  loadAligned va false

/-- STC: the store is checked, then the register is read, then the word is stored (R855). -/
def storeCoprocessor (va : Word) (read : CpRead) : Exec Unit := do
  checkAligned va 2
  let s ← get
  let _ ← translate (s.pidRemap va &&& ~~~3) .write s.privileged
  let s ← get
  set (read s).2
  storeAligned va false (read s).1

/-- LDC_p14 (`44_cp14_cp7` R854). -/
def execLdcP14 (cond : Cond) (pBit uBit nBit wBit : Bool) (rn crd : BitVec 4) (offset8 : BitVec 8)
    (s : State) :
    Host.Outcome State Fault Refusal :=
  whenCond cond s <|
    needPrivilege s <|
    orRefuse (!nBit) .coprocessorForm <|
    match ldcRegister crd with
    | none => .refused .coprocessorRegister
    | some write =>
      am5Ok pBit uBit wBit rn <|
      let a := s.am5 pBit uBit wBit rn offset8
      withValue false (loadCoprocessor a.addr) s fun v s1 =>
        match write s1 v with
        | .ok s2 => .next (s2.baseUpdate rn a.wb).advance
        | .error r => .refused r

/-- STC_p14 (`44_cp14_cp7` R855). -/
def execStcP14 (cond : Cond) (pBit uBit nBit wBit : Bool) (rn crd : BitVec 4) (offset8 : BitVec 8)
    (s : State) :
    Host.Outcome State Fault Refusal :=
  whenCond cond s <|
    needPrivilege s <|
    orRefuse (!nBit) .coprocessorForm <|
    match stcRegister crd with
    | none => .refused .coprocessorRegister
    | some read =>
      am5Ok pBit uBit wBit rn <|
      let a := s.am5 pBit uBit wBit rn offset8
      withValue false (storeCoprocessor a.addr read) s fun _ s1 => .next (s1.baseUpdate rn a.wb).advance

end Sys2Proof.Machine
end

