-- ==== Sys2Proof/Machine/CoprocOther.lean ====
section
/-!
DEFINITION. The other coprocessor instructions: coprocessors that do not exist, the forms the internal coprocessors do
not take, and the unconditional forms (`44_cp14_cp7` R856, R862, R868 to R870, `30_encoding` R453, R461).
-/
namespace Sys2Proof.Machine

/-- An instruction to a coprocessor that does not exist is undefined, whether `CPAR` denies it or not (R868;
notes/assumptions 46). Coprocessor 0 exists but has no such form (`42_cp0_accumulator` R751). -/
def absentForm (cpNum : BitVec 4) (s : State) : Host.Outcome State Fault Refusal :=
  if cpNum = 0 then needCp 0 s (.refused .coprocessorForm) else s.raiseUndefined

/-- LDC to a coprocessor that does not exist: with its `CPAR` bit set the word is loaded first; coprocessors
0 and 15 take no LDC (R868). A data breakpoint that the load matches is taken at the boundary after the undefined
instruction exception (`20_memory` R238, `60_exceptions` R885): DESIGN CHOICE, notes/assumptions 34. -/
def absentLoad (pBit uBit wBit : Bool) (rn cpNum : Reg) (offset8 : BitVec 8) (s : State) :
    Host.Outcome State Fault Refusal :=
  if cpNum = 0 || cpNum = 15 then s.raiseUndefined
  else
    needCp cpNum.toNat s <|
    am5Ok pBit uBit wBit rn <|
    withValue false (loadCoprocessor (s.am5 pBit uBit wBit rn offset8).addr) s fun _ s1 =>
      s1.raiseUndefined

/-- LDC (`44_cp14_cp7` R868). -/
def execLdc (cond : Cond) (pBit uBit _nBit wBit : Bool) (rn _crd cpNum : BitVec 4)
    (offset8 : BitVec 8) (s : State) :
    Host.Outcome State Fault Refusal :=
  whenCond cond s <|
    absentLoad pBit uBit wBit rn cpNum offset8 s

/-- STC (`44_cp14_cp7` R868). -/
def execStc (cond : Cond) (_pBit _uBit _nBit _wBit : Bool) (_rn _crd _cpNum : BitVec 4)
    (_offset8 : BitVec 8) (s : State) :
    Host.Outcome State Fault Refusal :=
  whenCond cond s <|
    s.raiseUndefined

/-- CDP (`44_cp14_cp7` R869). -/
def execCdp (cond : Cond) (_opcode1 _crn _crd cpNum : BitVec 4) (_opcode2 : BitVec 3)
    (_crm : BitVec 4) (s : State) :
    Host.Outcome State Fault Refusal :=
  whenCond cond s <|
    absentForm cpNum s

/-- MCRR (`44_cp14_cp7` R870). -/
def execMcrr (cond : Cond) (_rn _rd cpNum _opcode _crm : BitVec 4) (s : State) :
    Host.Outcome State Fault Refusal :=
  whenCond cond s <|
    absentForm cpNum s

/-- MRRC (`44_cp14_cp7` R870). -/
def execMrrc (cond : Cond) (_rn _rd cpNum _opcode _crm : BitVec 4) (s : State) :
    Host.Outcome State Fault Refusal :=
  whenCond cond s <|
    absentForm cpNum s

/-- MCR (`44_cp14_cp7` R868). -/
def execMcr (cond : Cond) (_opcode1 : BitVec 3) (_crn _rd _cpNum : BitVec 4) (_opcode2 : BitVec 3)
    (_crm : BitVec 4) (s : State) :
    Host.Outcome State Fault Refusal :=
  whenCond cond s <|
    s.raiseUndefined

/-- MRC (`44_cp14_cp7` R868). -/
def execMrc (cond : Cond) (_opcode1 : BitVec 3) (_crn _rd _cpNum : BitVec 4) (_opcode2 : BitVec 3)
    (_crm : BitVec 4) (s : State) :
    Host.Outcome State Fault Refusal :=
  whenCond cond s <|
    s.raiseUndefined

/-- LDC2 (`30_encoding` R453). -/
def execLdc2 (_pBit _uBit _nBit _wBit : Bool) (_rn _crd _cpNum : BitVec 4) (_offset8 : BitVec 8)
    (s : State) :
    Host.Outcome State Fault Refusal :=
  s.raiseUndefined

/-- STC2 (`30_encoding` R453). -/
def execStc2 (_pBit _uBit _nBit _wBit : Bool) (_rn _crd _cpNum : BitVec 4) (_offset8 : BitVec 8)
    (s : State) :
    Host.Outcome State Fault Refusal :=
  s.raiseUndefined

/-- CDP2 (`30_encoding` R453). -/
def execCdp2 (_opcode1 _crn _crd _cpNum : BitVec 4) (_opcode2 : BitVec 3) (_crm : BitVec 4) (s : State) :
    Host.Outcome State Fault Refusal :=
  s.raiseUndefined

/-- MCR2 (`30_encoding` R453). -/
def execMcr2 (_opcode1 : BitVec 3) (_crn _rd _cpNum : BitVec 4) (_opcode2 : BitVec 3)
    (_crm : BitVec 4) (s : State) :
    Host.Outcome State Fault Refusal :=
  s.raiseUndefined

/-- MRC2 (`30_encoding` R453). -/
def execMrc2 (_opcode1 : BitVec 3) (_crn _rd _cpNum : BitVec 4) (_opcode2 : BitVec 3)
    (_crm : BitVec 4) (s : State) :
    Host.Outcome State Fault Refusal :=
  s.raiseUndefined

end Sys2Proof.Machine
end

