-- ==== Sys2Proof/Machine/Cp15.lean ====
section
/-!
DEFINITION. The registers of CP15 (`10_state` R71 to R104, `43_cp15_functions` R770).
-/
namespace Sys2Proof.Machine

/-- Change CP15. -/
def State.setCp15 (s : State) (f : Cp15 → Cp15) : State := { s with cp15 := f s.cp15 }

/-- Main ID (`10_state` R71). -/
def mainId : Word :=
  0x69056000 ||| (Config.mainIdRev.setWidth 32 <<< 10) ||| (Config.mainIdProdNum.setWidth 32 <<< 4) |||
    Config.mainIdProdRev.setWidth 32

/-- L2 Cache Type (`10_state` R74): without an L2 the associativity is 0 and the way size, held twice, is free. -/
def l2CacheType : CpRead := fun s =>
  match s.cfg.l2Size with
  | .kb256 => (0x0A240240, s)
  | .kb512 => (0x0A340340, s)
  | .absent => (0x0A000000 ||| ((s.freeBits 4).setWidth 32 <<< 20) ||| ((s.freeBits 4).setWidth 32 <<< 8), s.drawn)

/-- Change what instructions are fetched under (`70_reset_and_hazards` R1131 a). -/
def State.setFetchCp15 (s : State) (f : Cp15 → Cp15) : State := s.keepView.setCp15 f

/-- Data waits in a buffer or is held in a cache (`10_state` R76 b, `20_memory` R210). -/
def State.dataHeld (s : State) : Bool :=
  !s.buffers.isEmpty || !s.dcache.lines.isEmpty || !s.l2.lines.isEmpty || !s.l2Out.isEmpty

/-- The byte order may become `big` (`10_state` R76 b, `20_memory` R210): the product has it; and a change comes
before any data is buffered or cached, one to big-endian before any access of less than a word. -/
def State.byteOrderOk (s : State) (big : Bool) : Bool :=
  (if big then s.cfg.big else s.cfg.little) &&
    (big == s.bigEndian || (!s.dataHeld && !(big && s.subWord)))

/-- Where a write changes which levels of cache data goes through, what waits in the memory buffers leaves first, under the
settings it was stored with: `22_caches` R390 and R402 and `21_mmu` R307 do not say, DESIGN CHOICE, notes/assumptions 63. -/
def State.drainIf (s : State) (changes : Bool) : State := if changes then s.drainBuffers else s

/-- Writing the Control register (`10_state` R75, R76): the constraints on the L2, C and B bits, then the
writable bits. Those on the L2 bit bind with no L2 as well, where R76 (a) and `22_caches` R412 do not say: DESIGN CHOICE,
notes/assumptions 41. -/
def writeControl : CpWrite := reservedWrite 0xFBFFC000 fun s v =>
  let l2 := v.getLsbD 26
  guarded (!(l2 && !s.ctrlBit 26 && s.mmuOn)) .controlValue <|
  guarded (!(!l2 && s.cp15.l2Ever)) .controlValue <|
  guarded (!(v.getLsbD 2 && !v.getLsbD 0)) .controlValue <|
  guarded (s.byteOrderOk (v.getLsbD 7)) .controlValue <|
  .ok ((s.drainIf (v.getLsbD 0 != s.mmuOn)).setFetchCp15 fun c =>
    { c with ctrl := (v &&& 0x04003B87) ||| 0x00000078, l2Ever := c.l2Ever || l2 })

/-- Lines are held in the L1 data cache or the L2 (`10_state` R78). -/
def State.dataCached (s : State) : Bool := !s.dcache.lines.isEmpty || !s.l2.lines.isEmpty

/-- Writing the Auxiliary Control register (`10_state` R77, R78). -/
def writeAuxControl : CpWrite := reservedWrite 0xFFFFF3CD fun s v =>
  guarded (!v.getLsbD 11) .controlValue <|
  guarded (!s.dataCached || v &&& 0x00000C30 == s.cp15.auxctrl &&& 0x00000C30) .controlValue <|
  .ok ((s.drainIf (v &&& 0x00000C30 != s.cp15.auxctrl &&& 0x00000C30)).setFetchCp15 fun c =>
    { c with auxctrl := v &&& 0x00000C32 })

/-- Writing TTBASE (`10_state` R79). The code 0b01 of OC, which R79 calls reserved without saying what writing it does, is
refused: DESIGN CHOICE, notes/assumptions 59. -/
def writeTtBase : CpWrite := reservedWrite 0x00003FE3 fun s v =>
  guarded (v.extractLsb' 3 2 != 0b01) .controlValue <|
  .ok (s.setFetchCp15 fun c => { c with ttbase := v &&& 0xFFFFC01C })

/-- Writing PID invalidates the branch target buffer (`10_state` R98). -/
def writePid : CpWrite := plainWrite fun s v =>
  { (s.setFetchCp15 fun c => { c with pid := v.extractLsb' 25 7 }) with btb := [] }

/-- Writing an instruction breakpoint register (`10_state` R100, `61_debug_pmu_power` R1041): enabling one
while debug is globally disabled is unpredictable. -/
def writeIbr (f : Word → Cp15 → Cp15) : CpWrite := haltGate fun s v =>
  guarded (!v.getLsbD 0 || s.debugOn) .controlValue <| .ok (s.setFetchCp15 (f v))

/-- Writing DBR0 while it is enabled is unpredictable (`61_debug_pmu_power` R1042). -/
def writeDbr0 : CpWrite := haltGate fun s v =>
  guarded (s.cp15.dbcon.extractLsb' 0 2 == 0) .controlValue <|
  .ok (s.setCp15 fun c => { c with dbr0 := v })

/-- Writing DBR1 while it is enabled, as an address or as a mask, is unpredictable (R1042). -/
def writeDbr1 : CpWrite := haltGate fun s v =>
  guarded ((if s.cp15.dbcon.getLsbD 8 then s.cp15.dbcon.extractLsb' 0 2
    else s.cp15.dbcon.extractLsb' 2 2) == 0) .controlValue <|
  .ok (s.setCp15 fun c => { c with dbr1 := v })

/-- The Data Cache Lock Register (`10_state` R86). -/
def readDLock : CpRead := reservedRead 0xFFFFFFFE fun s => if s.cp15.dclock then 1 else 0

/-- Writing the Data Cache Lock Register. -/
def writeDLock : CpWrite := reservedWrite 0xFFFFFFFE <| plainWrite fun s v =>
  s.setCp15 fun c => { c with dclock := v.getLsbD 0 }

/-- A register whose writes are ignored. -/
def ignoreWrite : CpWrite := plainWrite fun s _ => s

/-- What reading the Main ID register gives. -/
def mainIdRead : CpRead := plainRead fun _ => mainId

/-- What writing the Main ID register does. -/
def mainIdWrite : CpWrite := ignoreWrite

/-- MRC of the Main ID register (`10_state` R71). -/
def execMrcMainId (cond : Cond) (rd : BitVec 4) (s : State) :
    Host.Outcome State Fault Refusal :=
  cp15Read cond rd mainIdRead s

/-- MCR to the Main ID register (`10_state` R71). -/
def execMcrMainId (cond : Cond) (rd : BitVec 4) (s : State) :
    Host.Outcome State Fault Refusal :=
  cpWrite cond rd mainIdWrite s

/-- What reading the L1 Cache Type register gives. -/
def cacheTypeRead : CpRead := plainRead fun _ => 0x0B192192

/-- What writing the L1 Cache Type register does. -/
def cacheTypeWrite : CpWrite := ignoreWrite

/-- MRC of the L1 Cache Type register (`10_state` R72). -/
def execMrcCacheType (cond : Cond) (rd : BitVec 4) (s : State) :
    Host.Outcome State Fault Refusal :=
  cp15Read cond rd cacheTypeRead s

/-- MCR to the L1 Cache Type register (`10_state` R72). -/
def execMcrCacheType (cond : Cond) (rd : BitVec 4) (s : State) :
    Host.Outcome State Fault Refusal :=
  cpWrite cond rd cacheTypeWrite s

/-- What reading the L2 System ID register gives. -/
def l2SystemIdRead : CpRead := reservedRead 0x00FFFFFF fun _ => 0x69000000

/-- What writing the L2 System ID register does. -/
def l2SystemIdWrite : CpWrite := ignoreWrite

/-- MRC of the L2 System ID register (`10_state` R73). -/
def execMrcL2SystemId (cond : Cond) (rd : BitVec 4) (s : State) :
    Host.Outcome State Fault Refusal :=
  cp15Read cond rd l2SystemIdRead s

/-- MCR to the L2 System ID register (`10_state` R73). -/
def execMcrL2SystemId (cond : Cond) (rd : BitVec 4) (s : State) :
    Host.Outcome State Fault Refusal :=
  cpWrite cond rd l2SystemIdWrite s

/-- What reading the L2 Cache Type register gives. -/
def l2CacheTypeRead : CpRead := l2CacheType

/-- What writing the L2 Cache Type register does. -/
def l2CacheTypeWrite : CpWrite := ignoreWrite

/-- MRC of the L2 Cache Type register (`10_state` R74). -/
def execMrcL2CacheType (cond : Cond) (rd : BitVec 4) (s : State) :
    Host.Outcome State Fault Refusal :=
  cp15Read cond rd l2CacheTypeRead s

/-- MCR to the L2 Cache Type register (`10_state` R74). -/
def execMcrL2CacheType (cond : Cond) (rd : BitVec 4) (s : State) :
    Host.Outcome State Fault Refusal :=
  cpWrite cond rd l2CacheTypeWrite s

/-- What reading the Control register gives. -/
def controlRead : CpRead := reservedRead 0xFBFFC000 fun s => s.cp15.ctrl

/-- What writing the Control register does. -/
def controlWrite : CpWrite := writeControl

/-- MRC of the Control register (`10_state` R75). -/
def execMrcControl (cond : Cond) (rd : BitVec 4) (s : State) :
    Host.Outcome State Fault Refusal :=
  cp15Read cond rd controlRead s

/-- MCR to the Control register (`10_state` R75). -/
def execMcrControl (cond : Cond) (rd : BitVec 4) (s : State) :
    Host.Outcome State Fault Refusal :=
  cpWrite cond rd controlWrite s

/-- What reading the Auxiliary Control register gives. -/
def auxControlRead : CpRead := reservedRead 0xFFFFF3CD fun s => s.cp15.auxctrl

/-- What writing the Auxiliary Control register does. -/
def auxControlWrite : CpWrite := writeAuxControl

/-- MRC of the Auxiliary Control register (`10_state` R77). -/
def execMrcAuxControl (cond : Cond) (rd : BitVec 4) (s : State) :
    Host.Outcome State Fault Refusal :=
  cp15Read cond rd auxControlRead s

/-- MCR to the Auxiliary Control register (`10_state` R77). -/
def execMcrAuxControl (cond : Cond) (rd : BitVec 4) (s : State) :
    Host.Outcome State Fault Refusal :=
  cpWrite cond rd auxControlWrite s

/-- What reading TTBASE gives. -/
def ttBaseRead : CpRead := reservedRead 0x00003FE3 fun s => s.cp15.ttbase

/-- What writing TTBASE does. -/
def ttBaseWrite : CpWrite := writeTtBase

/-- MRC of TTBASE (`10_state` R79). -/
def execMrcTtBase (cond : Cond) (rd : BitVec 4) (s : State) :
    Host.Outcome State Fault Refusal :=
  cp15Read cond rd ttBaseRead s

/-- MCR to TTBASE (`10_state` R79). -/
def execMcrTtBase (cond : Cond) (rd : BitVec 4) (s : State) :
    Host.Outcome State Fault Refusal :=
  cpWrite cond rd ttBaseWrite s

/-- What reading DACR gives. -/
def dacrRead : CpRead := plainRead fun s => s.cp15.dacr

/-- What writing DACR does. -/
def dacrWrite : CpWrite := plainWrite fun s v => s.setFetchCp15 fun c => { c with dacr := v }

/-- MRC of DACR (`10_state` R80). -/
def execMrcDacr (cond : Cond) (rd : BitVec 4) (s : State) :
    Host.Outcome State Fault Refusal :=
  cp15Read cond rd dacrRead s

/-- MCR to DACR (`10_state` R80). -/
def execMcrDacr (cond : Cond) (rd : BitVec 4) (s : State) :
    Host.Outcome State Fault Refusal :=
  cpWrite cond rd dacrWrite s

/-- What reading FSR gives. -/
def fsrRead : CpRead := reservedRead 0xFFFFF800 fun s => s.cp15.fsr

/-- What writing FSR does; bit 8 reads as zero and its write is ignored. -/
def fsrWrite : CpWrite := reservedWrite 0xFFFFF800 <| plainWrite fun s v =>
  s.setCp15 fun c => { c with fsr := v &&& 0x000006FF }

/-- MRC of FSR (`10_state` R82). -/
def execMrcFsr (cond : Cond) (rd : BitVec 4) (s : State) :
    Host.Outcome State Fault Refusal :=
  cp15Read cond rd fsrRead s

/-- MCR to FSR (`10_state` R82). -/
def execMcrFsr (cond : Cond) (rd : BitVec 4) (s : State) :
    Host.Outcome State Fault Refusal :=
  cpWrite cond rd fsrWrite s

/-- What reading FAR gives. -/
def farRead : CpRead := plainRead fun s => s.cp15.far

/-- What writing FAR does. -/
def farWrite : CpWrite := plainWrite fun s v => s.setCp15 fun c => { c with far := v }

/-- MRC of FAR (`10_state` R83). -/
def execMrcFar (cond : Cond) (rd : BitVec 4) (s : State) :
    Host.Outcome State Fault Refusal :=
  cp15Read cond rd farRead s

/-- MCR to FAR (`10_state` R83). -/
def execMcrFar (cond : Cond) (rd : BitVec 4) (s : State) :
    Host.Outcome State Fault Refusal :=
  cpWrite cond rd farWrite s

/-- What reading PID gives. -/
def processIdRead : CpRead := plainRead fun s => s.cp15.pid ++ (0 : BitVec 25)

/-- What writing PID does. -/
def processIdWrite : CpWrite := writePid

/-- MRC of PID (`10_state` R98). -/
def execMrcProcessId (cond : Cond) (rd : BitVec 4) (s : State) :
    Host.Outcome State Fault Refusal :=
  cp15Read cond rd processIdRead s

/-- MCR to PID (`10_state` R98). -/
def execMcrProcessId (cond : Cond) (rd : BitVec 4) (s : State) :
    Host.Outcome State Fault Refusal :=
  cpWrite cond rd processIdWrite s

/-- What reading IBR0 gives. -/
def ibr0Read : CpRead := plainRead fun s => s.cp15.ibr0

/-- What writing IBR0 does. -/
def ibr0Write : CpWrite := writeIbr fun v c => { c with ibr0 := v }

/-- MRC of IBR0 (`10_state` R100). -/
def execMrcIbr0 (cond : Cond) (rd : BitVec 4) (s : State) :
    Host.Outcome State Fault Refusal :=
  cp15Read cond rd ibr0Read s

/-- MCR to IBR0 (`10_state` R100). -/
def execMcrIbr0 (cond : Cond) (rd : BitVec 4) (s : State) :
    Host.Outcome State Fault Refusal :=
  cpWrite cond rd ibr0Write s

/-- What reading IBR1 gives. -/
def ibr1Read : CpRead := plainRead fun s => s.cp15.ibr1

/-- What writing IBR1 does. -/
def ibr1Write : CpWrite := writeIbr fun v c => { c with ibr1 := v }

/-- MRC of IBR1 (`10_state` R100). -/
def execMrcIbr1 (cond : Cond) (rd : BitVec 4) (s : State) :
    Host.Outcome State Fault Refusal :=
  cp15Read cond rd ibr1Read s

/-- MCR to IBR1 (`10_state` R100). -/
def execMcrIbr1 (cond : Cond) (rd : BitVec 4) (s : State) :
    Host.Outcome State Fault Refusal :=
  cpWrite cond rd ibr1Write s

/-- What reading DBR0 gives. -/
def dbr0Read : CpRead := plainRead fun s => s.cp15.dbr0

/-- What writing DBR0 does. -/
def dbr0Write : CpWrite := writeDbr0

/-- MRC of DBR0 (`10_state` R101). -/
def execMrcDbr0 (cond : Cond) (rd : BitVec 4) (s : State) :
    Host.Outcome State Fault Refusal :=
  cp15Read cond rd dbr0Read s

/-- MCR to DBR0 (`10_state` R101). -/
def execMcrDbr0 (cond : Cond) (rd : BitVec 4) (s : State) :
    Host.Outcome State Fault Refusal :=
  cpWrite cond rd dbr0Write s

/-- What reading DBR1 gives. -/
def dbr1Read : CpRead := plainRead fun s => s.cp15.dbr1

/-- What writing DBR1 does. -/
def dbr1Write : CpWrite := writeDbr1

/-- MRC of DBR1 (`10_state` R101). -/
def execMrcDbr1 (cond : Cond) (rd : BitVec 4) (s : State) :
    Host.Outcome State Fault Refusal :=
  cp15Read cond rd dbr1Read s

/-- MCR to DBR1 (`10_state` R101). -/
def execMcrDbr1 (cond : Cond) (rd : BitVec 4) (s : State) :
    Host.Outcome State Fault Refusal :=
  cpWrite cond rd dbr1Write s

/-- What reading DBCON gives. -/
def dbconRead : CpRead := reservedRead 0xFFFFFEF0 fun s => s.cp15.dbcon

/-- What writing DBCON does. -/
def dbconWrite : CpWrite := haltGate <| reservedWrite 0xFFFFFEF0 <| plainWrite fun s v =>
  s.setCp15 fun c => { c with dbcon := v &&& 0x0000010F }

/-- MRC of DBCON (`10_state` R102). -/
def execMrcDbcon (cond : Cond) (rd : BitVec 4) (s : State) :
    Host.Outcome State Fault Refusal :=
  cp15Read cond rd dbconRead s

/-- MCR to DBCON (`10_state` R102). -/
def execMcrDbcon (cond : Cond) (rd : BitVec 4) (s : State) :
    Host.Outcome State Fault Refusal :=
  cpWrite cond rd dbconWrite s

/-- What reading CPAR gives. -/
def cparRead : CpRead := reservedRead 0xFFFFC000 fun s => s.cp15.cpar.setWidth 32

/-- What writing CPAR does. -/
def cparWrite : CpWrite := reservedWrite 0xFFFFC000 <| plainWrite fun s v =>
  s.setCp15 fun c => { c with cpar := v.extractLsb' 0 14 }

/-- MRC of CPAR (`10_state` R103). -/
def execMrcCpar (cond : Cond) (rd : BitVec 4) (s : State) :
    Host.Outcome State Fault Refusal :=
  cp15Read cond rd cparRead s

/-- MCR to CPAR (`10_state` R103). -/
def execMcrCpar (cond : Cond) (rd : BitVec 4) (s : State) :
    Host.Outcome State Fault Refusal :=
  cpWrite cond rd cparWrite s

/-- MRC of the Data Cache Lock Register (`43_cp15_functions` R815). -/
def execMrcDLock (cond : Cond) (rd : BitVec 4) (s : State) :
    Host.Outcome State Fault Refusal :=
  cp15Read cond rd readDLock s

/-- MCR to the Data Cache Lock Register (`43_cp15_functions` R815). -/
def execMcrDLock (cond : Cond) (rd : BitVec 4) (s : State) :
    Host.Outcome State Fault Refusal :=
  cpWrite cond rd writeDLock s

/-- MRC of the Data Cache Lock Register, legacy encoding (`43_cp15_functions` R817). -/
def execMrcDLockLegacy (cond : Cond) (rd : BitVec 4) (s : State) :
    Host.Outcome State Fault Refusal :=
  cp15Read cond rd readDLock s

/-- MCR to the Data Cache Lock Register, legacy encoding (`43_cp15_functions` R817). -/
def execMcrDLockLegacy (cond : Cond) (rd : BitVec 4) (s : State) :
    Host.Outcome State Fault Refusal :=
  cpWrite cond rd writeDLock s

/-- An encoding that names no register or function of CP15 (`43_cp15_functions` R770). -/
def execMcrP15Other (cond : Cond) (_opcode1 : BitVec 3) (_crn _rd : BitVec 4) (_opcode2 : BitVec 3)
    (_crm : BitVec 4) (s : State) :
    Host.Outcome State Fault Refusal :=
  whenCond cond s <|
    needPrivilege s <| .refused .coprocessorRegister

/-- An encoding that names no register of CP15 (`43_cp15_functions` R770). -/
def execMrcP15Other (cond : Cond) (_opcode1 : BitVec 3) (_crn _rd : BitVec 4) (_opcode2 : BitVec 3)
    (_crm : BitVec 4) (s : State) :
    Host.Outcome State Fault Refusal :=
  whenCond cond s <|
    needPrivilege s <| .refused .coprocessorRegister

end Sys2Proof.Machine
end

