-- ==== Sys2Proof/Machine/Cp15Functions.lean ====
section
/-!
DEFINITION. The cache, TLB, barrier and lock functions of CP15 (`43_cp15_functions` R772 to R823).
-/
namespace Sys2Proof.Machine

/-! Level 1 functions (R775 to R784) -/

/-- Every instruction cache line that is not locked becomes invalid; the replacement order starts again
(`22_caches` R364, R368; notes/assumptions 23). -/
def State.invalidateICache (s : State) : State :=
  { s.keepView.markForFetch with
    icache := { lines := tableKeep ILine.locked s.icache.lines, repl := [], buffers := [] } }

/-- Everything that is fetched already is discarded (`20_memory` R252). -/
def State.prefetchFlush (s : State) : State := { s.flushFetch with stale := [] }

/-- Every branch target buffer entry becomes invalid (`22_caches` R376). -/
def State.invalidateBtb (s : State) : State := { s with btb := [] }

/-- Every data cache line that is not locked becomes invalid; dirty data is lost (R778). DESIGN CHOICE: the
replacement order starts again (notes/assumptions 23). -/
def State.invalidateDCache (s : State) : State :=
  { s with dcache := { lines := tableKeep DLine.locked s.dcache.lines, repl := [] } }

/-- The instruction cache line of an MVA becomes invalid and unlocked, and is the next to be replaced (R776,
`22_caches` R364). -/
def State.invalidateILine (s : State) (mva : Word) : State :=
  let s1 := s.keepView.markForFetch.flushFetch
  match s1.iFind mva with
  | some (k, w, _) =>
    ({ s1 with icache := { s1.icache with lines := tableErase k s1.icache.lines } }).setIRepl mva
      ((s1.iRepl mva).pointAt w)
  | none => s1

/-- The data cache line of an MVA becomes invalid (R779). -/
def State.invalidateDLine (s : State) (mva : Word) : State :=
  match s.dFind mva with
  | some (k, _, _) => s.dDrop k
  | none => s

/-- The data cache line of an MVA is cleaned (R781). -/
def State.cleanDLine (s : State) (mva : Word) : State :=
  match s.dFind mva with
  | some (k, _, _) => s.dClean k
  | none => s

/-- The data cache functions are unpredictable with the MMU disabled (`43_cp15_functions` section 2). -/
def dFunction (f : Word → State → State) (v : Word) : Exec Unit := do
  let s ← get
  require s.mmuOn .maintenance
  set (f v s)

/-- The set/way operand of the data cache: the index of the line, none when should-be-zero bits are set
(R772). -/
def dSetWay (v : Word) : Option Nat :=
  if v.extractLsb' 13 17 = 0 ∧ v.extractLsb' 0 5 = 0 then
    some ((v.extractLsb' 5 8).toNat * 4 + (v.extractLsb' 30 2).toNat)
  else none

/-- A set/way function of the data cache, on a line that is not locked (R782, R784). -/
def dSetWayFunction (f : Nat → State → State) (v : Word) : Exec Unit := do
  let s ← get
  require s.mmuOn .maintenance
  match dSetWay v with
  | none => throw (.refuse .maintenance)
  | some k =>
    match tableGet k s.dcache.lines with
    | some l => if l.locked then pure () else set (f k s)
    | none => pure ()

/-- The MVA with the low five bits cleared. -/
def lineAddress (mva : Word) : Word := mva &&& ~~~31

/-- The copies of a block beyond the L1 data cache are unpredictable (`22_caches` R396, the coherent case). -/
def State.spoilNext (s : State) (line : BitVec 31) : State :=
  let s1 := (s.releaseLine line).releaseOut line
  let s2 := { s1.drawn with mem := memWriteLine s1.mem line wholeLine (s1.freeBits 256) }
  match s2.l2Find line with
  | some (k, l) => s2.l2Put k { l with unk := wholeLine }
  | none => s2

/-- Line allocate with the data cache disabled and the MMU on. R792 gives it no effect on the cache, and `22_caches` R383 names
it among the accesses whose data is then unpredictable: no line is allocated, and of a line that is resident a free choice tells
whether its bytes become unpredictable or stay (DESIGN CHOICE, notes/assumptions 53). -/
def State.allocateDisabled (s : State) (mva : Word) : State :=
  match s.dFind mva with
  | some (k, _, l) => if s.freeBits 1 = 1 then (s.spoilLine k l).drawn else s.drawn
  | none => s

/-- Data Cache Line Allocate (R792): a line whose bytes are unpredictable until they are written; the breakpoint unit
sees a store of 32 bytes. With the MMU disabled, of memory that is not cacheable, and on a hit it has no effect on the cache;
with the data cache disabled, see `State.allocateDisabled`. -/
def lineAllocate (va : Word) : Exec Unit := do
  let s ← get
  let mva := lineAddress (s.pidRemap va)
  let m ← fun s0 =>
    match translate (s.pidRemap va) .write s.privileged s0 with
    | .ok m s1 => .ok m (s1.watch true mva 32)
    | .error e s1 => .error e s1
  let s ← get
  if s.fills m && (s.dFind mva).isNone then
    require (s.lockable m) .maintenance
    modify fun s =>
      let s1 := if m.attrs.shared then s.spoilNext (blockOf m.pa) else s
      s1.dAllocate mva (freshLine mva m { data := 0, unk := wholeLine }) m.attrs.llr
  else if s.mmuOn && !s.ctrlBit 2 then modify fun s => s.allocateDisabled mva
  else pure ()

/-! Level 2 functions (R785 to R788, R811, R813, R814) -/

/-- The gate of the L2 functions: nothing without an L2, unpredictable with the L2 disabled (R785,
R772). -/
def l2Function (f : Exec Unit) : Exec Unit := do
  let s ← get
  if s.cfg.l2Size = .absent then pure ()
  else
    require (s.ctrlBit 26) .maintenance
    f

/-- An operation that has no effect when it aborts, on the TLBs and the L2 neither; the errors logged and reported stay
(`43_cp15_functions` section 3, `60_exceptions` R903, R920; notes/assumptions 54). -/
def undoAbort {α : Type} (m : Exec α) : Exec α := fun s =>
  match m s with
  | .error (.abort fs dom far) s1 => .error (.abort fs dom far) (s.onlyErrors s1)
  | r => r

/-- Translate an MVA for an L2 function: translation and walk aborts only (R785), which leave the L2 as it was, the cached
reads of the walk included. With the MMU disabled the MVA is the PA (`43_cp15_functions` section 3), of memory that is not L2
cacheable (`21_mmu` R307), on which `l2LineFunction` and `l2Lock` refuse: notes/assumptions 67. -/
def l2Translate (mva : Word) : Exec Mapped := do
  let s ← get
  if s.mmuOn then
    undoAbort do
      let e ← tlbEntry mva .read
      let a ← entryAttrs e
      pure { pa := e.pa mva, attrs := a }
  else pure { pa := mva.setWidth 36, attrs := Attrs.strong }

/-- An L2 line is clean once it is written back. -/
def L2Line.cleaned (l : L2Line) : L2Line :=
  { l with st := match l.st with | .modified => .exclusive | .owned => .shared | x => x }

/-- Clean L2 line `k`, `send` taking its data. The Used bits stay, and the errors of a line that is not dirty are not looked
at (DESIGN CHOICE, notes/assumptions 22). A line whose data an error lost stays as it is, with an imprecise external data
abort (`22_caches` R410, R423). -/
def State.l2CleanBy (send : OutEntry → State → State) (k : Nat) (s : State) : State :=
  match tableGet k s.l2.lines with
  | some l =>
    if l.dirty then
      let (s1, ok) := s.l2Error k l
      if ok then
        send { line := l.pa, unk := l.unk, data := l.data } (s1.l2Put k { l.cleaned with err := L2Error.none })
      else s1.pend .external
    else s
  | none => s

/-- The clean of an L2 line by MVA writes it to memory. -/
def State.l2Clean (k : Nat) (s : State) : State :=
  s.l2CleanBy (fun e s => s.busWriteLine e.line wholeLine e.unk e.data) k

/-- The clean of an L2 line by set/way puts it on its way to memory: accesses that follow do not wait for it
(`20_memory` R255). -/
def State.l2CleanOut (k : Nat) (s : State) : State :=
  s.l2CleanBy (fun e s => { s with l2Out := s.l2Out ++ [e] }) k

/-- A function on the L2 line of an MVA; earlier stores to the block come first (R785: address
dependencies). On memory that is not L2 cacheable it is unpredictable (`22_caches` R413), and so with the MMU disabled, where
no memory is L2 cacheable (`21_mmu` R307), though `43_cp15_functions` section 3 then takes the MVA as the PA: DESIGN CHOICE,
notes/assumptions 67. A clean has reached memory when the
function ends, so an invalidation of the same line always comes after it, also where no DMB stands between the two, whose
order R415 then does not ensure: DESIGN CHOICE, notes/assumptions 57. -/
def l2LineFunction (f : Nat → State → State) (mva : Word) : Exec Unit := l2Function do
  let m ← l2Translate mva
  require m.attrs.l2 .maintenance
  let line := blockOf m.pa
  modify fun s =>
    let s1 := (s.releaseLine line).releaseOut line
    match s1.l2Find line with
    | some (k, _) => f k s1
    | none => s1

/-- The set/way operand of the L2 (R772). -/
def State.l2SetWay (s : State) (v : Word) : Option Nat :=
  let way := (v.extractLsb' 29 3).toNat
  if v.extractLsb' 0 5 ≠ 0 ∨ v.extractLsb' 16 13 ≠ 0 then none
  else if s.cfg.l2Size = .kb512 then some ((v.extractLsb' 5 11).toNat * 8 + way)
  else if v.getLsbD 15 then none
  else some ((v.extractLsb' 5 10).toNat * 8 + way)

/-- A set/way function of the L2, on a line that is not locked (R787, R788). -/
def l2SetWayFunction (f : Nat → State → State) (v : Word) : Exec Unit := l2Function do
  let s ← get
  match s.l2SetWay v with
  | none => throw (.refuse .maintenance)
  | some k =>
    match tableGet k s.l2.lines with
    | some l => if l.locked then pure () else set (f k s)
    | none => pure ()

/-- Seven lines of a set, others than `line`, are locked: an eighth is not to be (`22_caches` R414). -/
def State.l2Full (s : State) (line : BitVec 31) : Bool :=
  7 ≤ ((List.range 8).filter fun w =>
    (tableGet (s.l2Set line * 8 + w) s.l2.lines).any fun l => l.locked && l.pa != line).length

/-- A locked line that this agent alone holds. -/
def lockedLine (line : BitVec 31) (b : Block) : L2Line :=
  { filledLine line b.data with locked := true, unk := b.unk }

/-- Lock the L2 line of an MVA; `fetch` tells whether a line that is absent is read from memory or allocated with
unpredictable data (R811, R814, `22_caches` R414). With the MMU disabled it is refused as `l2LineFunction` is
(DESIGN CHOICE, notes/assumptions 67). On a hit the Used bits are set as on an access, and the errors of the line
are not looked at: R409 and R410 do not say, DESIGN CHOICE, notes/assumptions 22. A write-back of the block that a set/way
function left in `l2Out` is not sent: what is fetched is the copy in memory, as for a load (`20_memory` R255): DESIGN CHOICE,
notes/assumptions 57. -/
def l2Lock (fetch : Bool) (mva : Word) : Exec Unit := l2Function do
  let m ← l2Translate mva
  require m.attrs.l2 .maintenance
  let line := blockOf m.pa
  modify fun s => s.releaseLine line
  let s ← get
  require (!s.l2Full line) .maintenance
  match s.l2Find line with
  | some (k, l) => set ((s.l2Put k { l with locked := true }).l2Touch k)
  | none =>
    if fetch then
      match s.busReadLine (lineBase line) with
      | (some d, s1) => set (s1.l2Allocate (lockedLine line { data := d, unk := 0 }))
      | (none, s1) => set (s1.pend .external)
    else set (s.l2Allocate (lockedLine line { data := 0, unk := wholeLine }))

/-- Unlock every L2 line (R813). -/
def l2Unlock : Exec Unit := l2Function <| modify fun s =>
  { s with l2 := { s.l2 with lines := tableMap (fun l => { l with locked := false }) s.l2.lines } }

/-! Level 1 lock functions (R810, R812, R816) -/

/-- A lock abort (`60_exceptions` R903): every abort of the operation becomes one, and the operation has no effect. -/
def lockAbort {α : Type} (m : Exec α) : Exec α := fun s =>
  match undoAbort m s with
  | .error (.abort ..) s1 => .error (.abort 0b10100 none none) s1
  | r => r

/-- Fetch and Lock I Cache Line (R810, `22_caches` R369). -/
def lockILine (mva : Word) : Exec Unit := do
  let s ← get
  require (s.ctrlBit 12 && (s.iFind mva).isNone) .maintenance
  let (m, d) ← lockAbort do
    let m ← (do
      if s.mmuOn then
        let e ← tlbEntry mva .fetch
        let a ← entryAttrs e
        pure { pa := e.pa mva, attrs := a }
      else pure { pa := mva.setWidth 36, attrs := Attrs.flatFetch } : Exec Mapped)
    require m.attrs.ic .maintenance
    let s ← get
    let (b, s1) := s.fetchRead m
    set s1
    match b with
    | some b => do
      let d ← lookAt b
      pure (m, d)
    | none => throw (.abort 0b10100 none none)
  modify fun s =>
    let choice : BitVec 2 × Bool :=
      match (s.iRepl mva).lockVictim (s.iLocked mva) with | some w => (w, true) | none => (0, false)
    (s.iPut (l1Index mva choice.1)
      { tag := l1Tag mva, locked := choice.2 && m.attrs.ic, bad := 0, data := d }).setIRepl mva
        ((s.iRepl mva).touch choice.1)

/-- Unlock every instruction cache line; unpredictable with the cache disabled (R812). -/
def unlockICache : Exec Unit := do
  let s ← get
  require (s.ctrlBit 12) .maintenance
  set { s with icache := { s.icache with lines := tableMap (fun l => { l with locked := false }) s.icache.lines } }

/-- Unlock every data cache line; unpredictable with the cache disabled (R816). -/
def unlockDCache : Exec Unit := do
  let s ← get
  require (s.ctrlBit 2) .maintenance
  set { s with dcache := { s.dcache with lines := tableMap (fun l => { l with locked := false }) s.dcache.lines } }

/-! TLB functions (R800 to R804, R820 to R823) -/

/-- Change the instruction TLB. -/
def State.mapITlb (s : State) (f : Tlb → Tlb) : State := { s with itlb := f s.itlb }

/-- Change the data TLB. -/
def State.mapDTlb (s : State) (f : Tlb → Tlb) : State := { s with dtlb := f s.dtlb }

/-- An entry that maps an MVA is locked. -/
def Tlb.lockedAt (t : Tlb) (mva : Word) : Bool :=
  t.entries.toList.any fun e => e.any fun e => e.hits mva && e.locked

/-- Translate and lock (R820): only with the MMU enabled and the translation not in the TLB. -/
def lockTlb (side : State → Tlb) (put : State → (Tlb → Tlb) → State) (mva : Word) : Exec Unit := do
  let s ← get
  require (s.mmuOn && ((side s).lookup mva).isNone) .maintenance
  let e ← lockAbort (tableWalk mva)
  modify fun s => put s (·.lock e)

/-- Unlock a TLB; unpredictable with the MMU disabled (R821). -/
def unlockTlb (put : State → (Tlb → Tlb) → State) : Exec Unit := do
  let s ← get
  require s.mmuOn .maintenance
  set (put s Tlb.unlock)

/-- Invalidate an entry; a locked one is unpredictable (R802). -/
def invalidateTlbEntry (side : State → Tlb) (put : State → (Tlb → Tlb) → State) (mva : Word) :
    Exec Unit := do
  let s ← get
  require (!(side s).lockedAt mva) .maintenance
  set (put s (·.invalidateEntry mva))

/-! The instructions -/

/-- Invalidate I cache and BTB (`43_cp15_functions` R775). -/
def execMcrInvICacheBtb (cond : Cond) (rd : BitVec 4) (s : State) :
    Host.Outcome State Fault Refusal :=
  cp15Function cond rd (fun _ => modify fun s => s.invalidateICache.invalidateBtb) s

/-- Invalidate I cache line (`43_cp15_functions` R776). -/
def execMcrInvICacheLine (cond : Cond) (rd : BitVec 4) (s : State) :
    Host.Outcome State Fault Refusal :=
  cp15Function cond rd (fun v => modify fun s => s.invalidateILine v) s

/-- Invalidate BTB (`43_cp15_functions` R777). -/
def execMcrInvBtb (cond : Cond) (rd : BitVec 4) (s : State) :
    Host.Outcome State Fault Refusal :=
  cp15Function cond rd (fun _ => modify fun s => s.invalidateBtb) s

/-- Invalidate D cache (`43_cp15_functions` R778). -/
def execMcrInvDCache (cond : Cond) (rd : BitVec 4) (s : State) :
    Host.Outcome State Fault Refusal :=
  cp15Function cond rd (dFunction fun _ s => s.invalidateDCache) s

/-- Invalidate D cache line (`43_cp15_functions` R779). -/
def execMcrInvDCacheLine (cond : Cond) (rd : BitVec 4) (s : State) :
    Host.Outcome State Fault Refusal :=
  cp15Function cond rd (dFunction fun v s => s.invalidateDLine v) s

/-- Invalidate I and D cache and BTB (`43_cp15_functions` R780). With the MMU disabled it runs without a check: the list of
section 2 of the functions that are unpredictable then names R778 and not R780 (DESIGN CHOICE, notes/assumptions 56). -/
def execMcrInvCachesBtb (cond : Cond) (rd : BitVec 4) (s : State) :
    Host.Outcome State Fault Refusal :=
  cp15Function cond rd (fun _ => modify fun s => s.invalidateICache.invalidateBtb.invalidateDCache) s

/-- Clean D cache line by MVA (`43_cp15_functions` R781). -/
def execMcrCleanDLineMva (cond : Cond) (rd : BitVec 4) (s : State) :
    Host.Outcome State Fault Refusal :=
  cp15Function cond rd (dFunction fun v s => s.cleanDLine v) s

/-- Clean D cache line by set/way (`43_cp15_functions` R782). -/
def execMcrCleanDLineSetWay (cond : Cond) (rd : BitVec 4) (s : State) :
    Host.Outcome State Fault Refusal :=
  cp15Function cond rd (dSetWayFunction fun k s => s.dClean k) s

/-- Clean and invalidate D cache line by MVA (`43_cp15_functions` R783). -/
def execMcrCleanInvDLineMva (cond : Cond) (rd : BitVec 4) (s : State) :
    Host.Outcome State Fault Refusal :=
  cp15Function cond rd (dFunction fun v s => (s.cleanDLine v).invalidateDLine v) s

/-- Clean and invalidate D cache line by set/way (`43_cp15_functions` R784). -/
def execMcrCleanInvDLineSetWay (cond : Cond) (rd : BitVec 4) (s : State) :
    Host.Outcome State Fault Refusal :=
  cp15Function cond rd (dSetWayFunction fun k s => (s.dClean k).dDrop k) s

/-- Invalidate L2 cache line (`43_cp15_functions` R785). -/
def execMcrInvL2Line (cond : Cond) (rd : BitVec 4) (s : State) :
    Host.Outcome State Fault Refusal :=
  cp15Function cond rd (l2LineFunction fun k s => s.l2Drop k) s

/-- Clean L2 cache line by MVA (`43_cp15_functions` R786). -/
def execMcrCleanL2LineMva (cond : Cond) (rd : BitVec 4) (s : State) :
    Host.Outcome State Fault Refusal :=
  cp15Function cond rd (l2LineFunction State.l2Clean) s

/-- Clean L2 cache line by set/way (`43_cp15_functions` R787). -/
def execMcrCleanL2LineSetWay (cond : Cond) (rd : BitVec 4) (s : State) :
    Host.Outcome State Fault Refusal :=
  cp15Function cond rd (l2SetWayFunction State.l2CleanOut) s

/-- Clean and invalidate L2 cache line by set/way (`43_cp15_functions` R788). -/
def execMcrCleanInvL2LineSetWay (cond : Cond) (rd : BitVec 4) (s : State) :
    Host.Outcome State Fault Refusal :=
  cp15Function cond rd (l2SetWayFunction fun k s => (s.l2CleanOut k).l2Drop k) s

/-- Prefetch Flush (`43_cp15_functions` R789). -/
def execMcrPrefetchFlush (cond : Cond) (rd : BitVec 4) (s : State) :
    Host.Outcome State Fault Refusal :=
  cp15UserFunction cond rd (fun _ => modify State.prefetchFlush) s

/-- Data Write Barrier (`43_cp15_functions` R790). -/
def execMcrDataWriteBarrier (cond : Cond) (rd : BitVec 4) (s : State) :
    Host.Outcome State Fault Refusal :=
  cp15UserFunction cond rd (fun _ => modify State.drainBuffers) s

/-- Data Memory Barrier (`43_cp15_functions` R791). It empties the buffers at once, as DWB does, so that a later fetch or walk
sees the stores too, which `20_memory` R250 and R257 do not promise of a DMB: DESIGN CHOICE, notes/assumptions 62. -/
def execMcrDataMemoryBarrier (cond : Cond) (rd : BitVec 4) (s : State) :
    Host.Outcome State Fault Refusal :=
  cp15UserFunction cond rd (fun _ => modify State.drainBuffers) s

/-- Data Cache Line Allocate (`43_cp15_functions` R792). -/
def execMcrDLineAllocate (cond : Cond) (rd : BitVec 4) (s : State) :
    Host.Outcome State Fault Refusal :=
  cp15UserFunction cond rd (lineAllocate) s

/-- Invalidate I and D TLB (`43_cp15_functions` R800). -/
def execMcrInvTlbs (cond : Cond) (rd : BitVec 4) (s : State) :
    Host.Outcome State Fault Refusal :=
  cp15Function cond rd (fun _ => modify fun s => (s.keepView.mapITlb Tlb.invalidate).mapDTlb Tlb.invalidate) s

/-- Invalidate I TLB (`43_cp15_functions` R801). -/
def execMcrInvITlb (cond : Cond) (rd : BitVec 4) (s : State) :
    Host.Outcome State Fault Refusal :=
  cp15Function cond rd (fun _ => modify fun s => s.keepView.mapITlb Tlb.invalidate) s

/-- Invalidate I TLB entry (`43_cp15_functions` R802). -/
def execMcrInvITlbEntry (cond : Cond) (rd : BitVec 4) (s : State) :
    Host.Outcome State Fault Refusal :=
  cp15Function cond rd (invalidateTlbEntry State.itlb fun s f => s.keepView.mapITlb f) s

/-- Invalidate D TLB (`43_cp15_functions` R803). -/
def execMcrInvDTlb (cond : Cond) (rd : BitVec 4) (s : State) :
    Host.Outcome State Fault Refusal :=
  cp15Function cond rd (fun _ => modify fun s => s.mapDTlb Tlb.invalidate) s

/-- Invalidate D TLB entry (`43_cp15_functions` R804). -/
def execMcrInvDTlbEntry (cond : Cond) (rd : BitVec 4) (s : State) :
    Host.Outcome State Fault Refusal :=
  cp15Function cond rd (invalidateTlbEntry State.dtlb State.mapDTlb) s

/-- Fetch and Lock I Cache Line (`43_cp15_functions` R810). -/
def execMcrLockILine (cond : Cond) (rd : BitVec 4) (s : State) :
    Host.Outcome State Fault Refusal :=
  cp15Function cond rd (lockILine) s

/-- Fetch and Lock L2 Cache Line (`43_cp15_functions` R811). -/
def execMcrLockL2Line (cond : Cond) (rd : BitVec 4) (s : State) :
    Host.Outcome State Fault Refusal :=
  cp15Function cond rd (l2Lock true) s

/-- Unlock Instruction Cache (`43_cp15_functions` R812). -/
def execMcrUnlockICache (cond : Cond) (rd : BitVec 4) (s : State) :
    Host.Outcome State Fault Refusal :=
  cp15Function cond rd (fun _ => unlockICache) s

/-- Unlock L2 Cache (`43_cp15_functions` R813). -/
def execMcrUnlockL2 (cond : Cond) (rd : BitVec 4) (s : State) :
    Host.Outcome State Fault Refusal :=
  cp15Function cond rd (fun _ => l2Unlock) s

/-- Allocate and Lock L2 Cache Line (`43_cp15_functions` R814). -/
def execMcrAllocLockL2Line (cond : Cond) (rd : BitVec 4) (s : State) :
    Host.Outcome State Fault Refusal :=
  cp15Function cond rd (l2Lock false) s

/-- Unlock Data Cache (`43_cp15_functions` R816). -/
def execMcrUnlockDCache (cond : Cond) (rd : BitVec 4) (s : State) :
    Host.Outcome State Fault Refusal :=
  cp15Function cond rd (fun _ => unlockDCache) s

/-- Fetch and Lock I Cache Line, legacy encoding (`43_cp15_functions` R817). -/
def execMcrLockILineLegacy (cond : Cond) (rd : BitVec 4) (s : State) :
    Host.Outcome State Fault Refusal :=
  cp15Function cond rd (lockILine) s

/-- Unlock Instruction Cache, legacy encoding (`43_cp15_functions` R817). -/
def execMcrUnlockICacheLegacy (cond : Cond) (rd : BitVec 4) (s : State) :
    Host.Outcome State Fault Refusal :=
  cp15Function cond rd (fun _ => unlockICache) s

/-- Unlock Data Cache, legacy encoding (`43_cp15_functions` R817). -/
def execMcrUnlockDCacheLegacy (cond : Cond) (rd : BitVec 4) (s : State) :
    Host.Outcome State Fault Refusal :=
  cp15Function cond rd (fun _ => unlockDCache) s

/-- Translate and Lock I TLB entry (`43_cp15_functions` R820). -/
def execMcrLockITlbEntry (cond : Cond) (rd : BitVec 4) (s : State) :
    Host.Outcome State Fault Refusal :=
  cp15Function cond rd (lockTlb State.itlb State.mapITlb) s

/-- Unlock I TLB (`43_cp15_functions` R821). -/
def execMcrUnlockITlb (cond : Cond) (rd : BitVec 4) (s : State) :
    Host.Outcome State Fault Refusal :=
  cp15Function cond rd (fun _ => unlockTlb State.mapITlb) s

/-- Translate and Lock D TLB entry (`43_cp15_functions` R822). -/
def execMcrLockDTlbEntry (cond : Cond) (rd : BitVec 4) (s : State) :
    Host.Outcome State Fault Refusal :=
  cp15Function cond rd (lockTlb State.dtlb State.mapDTlb) s

/-- Unlock D TLB (`43_cp15_functions` R823). -/
def execMcrUnlockDTlb (cond : Cond) (rd : BitVec 4) (s : State) :
    Host.Outcome State Fault Refusal :=
  cp15Function cond rd (fun _ => unlockTlb State.mapDTlb) s

end Sys2Proof.Machine
end

