-- ==== Sys2Proof/Machine/Cp7.lean ====
section
/-!
DEFINITION. The registers of CP7 (`10_state` R140 to R142, `44_cp14_cp7` R860, R861).
-/
namespace Sys2Proof.Machine

/-- Writing ERRLOG: the single-bit-error request stays while SBE stays (notes/assumptions 32). -/
def errlogWrite : CpWrite := reservedWrite 0xFFFFFF00 <| plainWrite fun s v =>
  { s with err := { s.err with errlog := v.extractLsb' 0 8, sbeIrq := s.err.sbeIrq && v.getLsbD 7 } }

/-- What reading ERRLOG gives. -/
def errlogRead : CpRead := reservedRead 0xFFFFFF00 fun s => s.err.errlog.setWidth 32

/-- What writing ERRADRL does. -/
def erradrlWrite : CpWrite := plainWrite fun s v => { s with err := { s.err with erradrl := v } }

/-- What reading ERRADRL gives. -/
def erradrlRead : CpRead := plainRead fun s => s.err.erradrl

/-- What writing ERRADRU does. -/
def erradruWrite : CpWrite := reservedWrite 0xFFFFFFF0 <| plainWrite fun s v =>
  { s with err := { s.err with erradru := v.extractLsb' 0 4 } }

/-- What reading ERRADRU gives. -/
def erradruRead : CpRead := reservedRead 0xFFFFFFF0 fun s => s.err.erradru.setWidth 32

/-- MRC of ERRLOG (`44_cp14_cp7` R861). -/
def execMrcErrlog (cond : Cond) (rd : BitVec 4) (s : State) :
    Host.Outcome State Fault Refusal :=
  cp14Read cond rd errlogRead s

/-- MCR to ERRLOG (`44_cp14_cp7` R861). -/
def execMcrErrlog (cond : Cond) (rd : BitVec 4) (s : State) :
    Host.Outcome State Fault Refusal :=
  cp7Write cond rd errlogWrite s

/-- MRC of ERRADRL (`44_cp14_cp7` R861). -/
def execMrcErradrl (cond : Cond) (rd : BitVec 4) (s : State) :
    Host.Outcome State Fault Refusal :=
  cp14Read cond rd erradrlRead s

/-- MCR to ERRADRL (`44_cp14_cp7` R861). -/
def execMcrErradrl (cond : Cond) (rd : BitVec 4) (s : State) :
    Host.Outcome State Fault Refusal :=
  cp7Write cond rd erradrlWrite s

/-- MRC of ERRADRU (`44_cp14_cp7` R861). -/
def execMrcErradru (cond : Cond) (rd : BitVec 4) (s : State) :
    Host.Outcome State Fault Refusal :=
  cp14Read cond rd erradruRead s

/-- MCR to ERRADRU (`44_cp14_cp7` R861). -/
def execMcrErradru (cond : Cond) (rd : BitVec 4) (s : State) :
    Host.Outcome State Fault Refusal :=
  cp7Write cond rd erradruWrite s

/-- An encoding with CRm = 2 that names no register of CP7 (`44_cp14_cp7` R860). -/
def execMcrP7Other (cond : Cond) (_opcode1 : BitVec 3) (_crn _rd : BitVec 4) (_opcode2 : BitVec 3)
    (s : State) :
    Host.Outcome State Fault Refusal :=
  whenCond cond s <|
    needPrivilege s <| .refused .coprocessorRegister

/-- An encoding with CRm = 2 that names no register of CP7 (`44_cp14_cp7` R860). -/
def execMrcP7Other (cond : Cond) (_opcode1 : BitVec 3) (_crn _rd : BitVec 4) (_opcode2 : BitVec 3)
    (s : State) :
    Host.Outcome State Fault Refusal :=
  whenCond cond s <|
    needPrivilege s <| .refused .coprocessorRegister

end Sys2Proof.Machine
end

