-- ==== Sys2Proof/Machine/DataProcessing.lean ====
section
/-!
DEFINITION. The sixteen ARM data-processing instructions in their three operand forms (`40_arm_base` R500
to R525).
-/
namespace Sys2Proof.Machine

/-- A logical result: the shifter's carry, V unchanged (`40_arm_base` R507). -/
def logical (s : State) (value : Word) (op : Shifted) : Sum :=
  { value := value, carry := op.carry, overflow := s.flagV }

def aluAnd (s : State) (a : Word) (op : Shifted) : Sum := logical s (a &&& op.value) op
def aluEor (s : State) (a : Word) (op : Shifted) : Sum := logical s (a ^^^ op.value) op
def aluSub (_ : State) (a : Word) (op : Shifted) : Sum := addWithCarry a (~~~op.value) true
def aluRsb (_ : State) (a : Word) (op : Shifted) : Sum := addWithCarry op.value (~~~a) true
def aluAdd (_ : State) (a : Word) (op : Shifted) : Sum := addWithCarry a op.value false
def aluAdc (s : State) (a : Word) (op : Shifted) : Sum := addWithCarry a op.value s.flagC
def aluSbc (s : State) (a : Word) (op : Shifted) : Sum := addWithCarry a (~~~op.value) s.flagC
def aluRsc (s : State) (a : Word) (op : Shifted) : Sum := addWithCarry op.value (~~~a) s.flagC
def aluOrr (s : State) (a : Word) (op : Shifted) : Sum := logical s (a ||| op.value) op
def aluMov (s : State) (op : Shifted) : Sum := logical s op.value op
def aluBic (s : State) (a : Word) (op : Shifted) : Sum := logical s (a &&& ~~~op.value) op
def aluMvn (s : State) (op : Shifted) : Sum := logical s (~~~op.value) op

/-- The flags of a result. -/
def State.setSum (s : State) (r : Sum) : State := s.setFlags r.value.msb (r.value == 0) r.carry r.overflow

/-- The end of a data-processing instruction with a destination (`40_arm_base` R507): R15 with S returns
from an exception, R15 without S is a branch. -/
def dpFinish (s : State) (sBit : Bool) (rd : Reg) (r : Sum) : Host.Outcome State Fault Refusal :=
  if rd = 15 then if sBit then s.exceptionReturn r.value else s.writePc r.value
  else .next ((if sBit then (s.setReg rd r.value).setSum r else s.setReg rd r.value).advance)

/-- The end of a compare. -/
def dpCompare (s : State) (r : Sum) : Host.Outcome State Fault Refusal := .next (s.setSum r).advance

/-- The immediate operand (R503). -/
def State.opImm (s : State) (rotateImm : BitVec 4) (immed8 : BitVec 8) : Shifted :=
  shiftImmediate rotateImm immed8 s.flagC

/-- The register operand with an immediate shift (R505). -/
def State.opShImm (s : State) (shiftImm : BitVec 5) (shift : BitVec 2) (rm : Reg) : Shifted :=
  shiftByImm (s.reg rm) shift shiftImm s.flagC

/-- The register operand with a register shift (R506). -/
def State.opShReg (s : State) (rs : Reg) (shift : BitVec 2) (rm : Reg) : Shifted :=
  shiftByReg (s.reg rm) shift ((s.reg rs).setWidth 8) s.flagC

/-- AND, immediate shift (`40_arm_base` R510). -/
def execAndShImm (cond : Cond) (sBit : Bool) (rn rd : Reg) (shiftImm : BitVec 5) (shift : BitVec 2) (rm : Reg) (s : State) :
    Host.Outcome State Fault Refusal :=
  whenCondPc (rd == 15) cond s <|
    dpFinish s sBit rd (aluAnd s (s.reg rn) (s.opShImm shiftImm shift rm))

/-- EOR, immediate shift (`40_arm_base` R511). -/
def execEorShImm (cond : Cond) (sBit : Bool) (rn rd : Reg) (shiftImm : BitVec 5) (shift : BitVec 2) (rm : Reg) (s : State) :
    Host.Outcome State Fault Refusal :=
  whenCondPc (rd == 15) cond s <|
    dpFinish s sBit rd (aluEor s (s.reg rn) (s.opShImm shiftImm shift rm))

/-- SUB, immediate shift (`40_arm_base` R512). -/
def execSubShImm (cond : Cond) (sBit : Bool) (rn rd : Reg) (shiftImm : BitVec 5) (shift : BitVec 2) (rm : Reg) (s : State) :
    Host.Outcome State Fault Refusal :=
  whenCondPc (rd == 15) cond s <|
    dpFinish s sBit rd (aluSub s (s.reg rn) (s.opShImm shiftImm shift rm))

/-- RSB, immediate shift (`40_arm_base` R513). -/
def execRsbShImm (cond : Cond) (sBit : Bool) (rn rd : Reg) (shiftImm : BitVec 5) (shift : BitVec 2) (rm : Reg) (s : State) :
    Host.Outcome State Fault Refusal :=
  whenCondPc (rd == 15) cond s <|
    dpFinish s sBit rd (aluRsb s (s.reg rn) (s.opShImm shiftImm shift rm))

/-- ADD, immediate shift (`40_arm_base` R514). -/
def execAddShImm (cond : Cond) (sBit : Bool) (rn rd : Reg) (shiftImm : BitVec 5) (shift : BitVec 2) (rm : Reg) (s : State) :
    Host.Outcome State Fault Refusal :=
  whenCondPc (rd == 15) cond s <|
    dpFinish s sBit rd (aluAdd s (s.reg rn) (s.opShImm shiftImm shift rm))

/-- ADC, immediate shift (`40_arm_base` R515). -/
def execAdcShImm (cond : Cond) (sBit : Bool) (rn rd : Reg) (shiftImm : BitVec 5) (shift : BitVec 2) (rm : Reg) (s : State) :
    Host.Outcome State Fault Refusal :=
  whenCondPc (rd == 15) cond s <|
    dpFinish s sBit rd (aluAdc s (s.reg rn) (s.opShImm shiftImm shift rm))

/-- SBC, immediate shift (`40_arm_base` R516). -/
def execSbcShImm (cond : Cond) (sBit : Bool) (rn rd : Reg) (shiftImm : BitVec 5) (shift : BitVec 2) (rm : Reg) (s : State) :
    Host.Outcome State Fault Refusal :=
  whenCondPc (rd == 15) cond s <|
    dpFinish s sBit rd (aluSbc s (s.reg rn) (s.opShImm shiftImm shift rm))

/-- RSC, immediate shift (`40_arm_base` R517). -/
def execRscShImm (cond : Cond) (sBit : Bool) (rn rd : Reg) (shiftImm : BitVec 5) (shift : BitVec 2) (rm : Reg) (s : State) :
    Host.Outcome State Fault Refusal :=
  whenCondPc (rd == 15) cond s <|
    dpFinish s sBit rd (aluRsc s (s.reg rn) (s.opShImm shiftImm shift rm))

/-- TST, immediate shift (`40_arm_base` R518). -/
def execTstShImm (cond : Cond) (rn : Reg) (sb : BitVec 4) (shiftImm : BitVec 5) (shift : BitVec 2) (rm : Reg) (s : State) :
    Host.Outcome State Fault Refusal :=
  whenCond cond s <|
    orRefuse (sb == 0) .shouldBeBits <|
    dpCompare s (aluAnd s (s.reg rn) (s.opShImm shiftImm shift rm))

/-- TEQ, immediate shift (`40_arm_base` R519). -/
def execTeqShImm (cond : Cond) (rn : Reg) (sb : BitVec 4) (shiftImm : BitVec 5) (shift : BitVec 2) (rm : Reg) (s : State) :
    Host.Outcome State Fault Refusal :=
  whenCond cond s <|
    orRefuse (sb == 0) .shouldBeBits <|
    dpCompare s (aluEor s (s.reg rn) (s.opShImm shiftImm shift rm))

/-- CMP, immediate shift (`40_arm_base` R520). -/
def execCmpShImm (cond : Cond) (rn : Reg) (sb : BitVec 4) (shiftImm : BitVec 5) (shift : BitVec 2) (rm : Reg) (s : State) :
    Host.Outcome State Fault Refusal :=
  whenCond cond s <|
    orRefuse (sb == 0) .shouldBeBits <|
    dpCompare s (aluSub s (s.reg rn) (s.opShImm shiftImm shift rm))

/-- CMN, immediate shift (`40_arm_base` R521). -/
def execCmnShImm (cond : Cond) (rn : Reg) (sb : BitVec 4) (shiftImm : BitVec 5) (shift : BitVec 2) (rm : Reg) (s : State) :
    Host.Outcome State Fault Refusal :=
  whenCond cond s <|
    orRefuse (sb == 0) .shouldBeBits <|
    dpCompare s (aluAdd s (s.reg rn) (s.opShImm shiftImm shift rm))

/-- ORR, immediate shift (`40_arm_base` R522). -/
def execOrrShImm (cond : Cond) (sBit : Bool) (rn rd : Reg) (shiftImm : BitVec 5) (shift : BitVec 2) (rm : Reg) (s : State) :
    Host.Outcome State Fault Refusal :=
  whenCondPc (rd == 15) cond s <|
    dpFinish s sBit rd (aluOrr s (s.reg rn) (s.opShImm shiftImm shift rm))

/-- MOV, immediate shift (`40_arm_base` R523). -/
def execMovShImm (cond : Cond) (sBit : Bool) (sb : BitVec 4) (rd : Reg) (shiftImm : BitVec 5) (shift : BitVec 2) (rm : Reg) (s : State) :
    Host.Outcome State Fault Refusal :=
  whenCondPc (rd == 15) cond s <|
    orRefuse (sb == 0) .shouldBeBits <|
    dpFinish s sBit rd (aluMov s (s.opShImm shiftImm shift rm))

/-- BIC, immediate shift (`40_arm_base` R524). -/
def execBicShImm (cond : Cond) (sBit : Bool) (rn rd : Reg) (shiftImm : BitVec 5) (shift : BitVec 2) (rm : Reg) (s : State) :
    Host.Outcome State Fault Refusal :=
  whenCondPc (rd == 15) cond s <|
    dpFinish s sBit rd (aluBic s (s.reg rn) (s.opShImm shiftImm shift rm))

/-- MVN, immediate shift (`40_arm_base` R525). -/
def execMvnShImm (cond : Cond) (sBit : Bool) (sb : BitVec 4) (rd : Reg) (shiftImm : BitVec 5) (shift : BitVec 2) (rm : Reg) (s : State) :
    Host.Outcome State Fault Refusal :=
  whenCondPc (rd == 15) cond s <|
    orRefuse (sb == 0) .shouldBeBits <|
    dpFinish s sBit rd (aluMvn s (s.opShImm shiftImm shift rm))

/-- AND, register shift (`40_arm_base` R510). -/
def execAndShReg (cond : Cond) (sBit : Bool) (rn rd : Reg) (rs : Reg) (shift : BitVec 2) (rm : Reg) (s : State) :
    Host.Outcome State Fault Refusal :=
  whenCondPc (rd == 15) cond s <|
    orRefuse (rn != 15 && rd != 15 && rs != 15 && rm != 15) .pcOperand <|
    dpFinish s sBit rd (aluAnd s (s.reg rn) (s.opShReg rs shift rm))

/-- EOR, register shift (`40_arm_base` R511). -/
def execEorShReg (cond : Cond) (sBit : Bool) (rn rd : Reg) (rs : Reg) (shift : BitVec 2) (rm : Reg) (s : State) :
    Host.Outcome State Fault Refusal :=
  whenCondPc (rd == 15) cond s <|
    orRefuse (rn != 15 && rd != 15 && rs != 15 && rm != 15) .pcOperand <|
    dpFinish s sBit rd (aluEor s (s.reg rn) (s.opShReg rs shift rm))

/-- SUB, register shift (`40_arm_base` R512). -/
def execSubShReg (cond : Cond) (sBit : Bool) (rn rd : Reg) (rs : Reg) (shift : BitVec 2) (rm : Reg) (s : State) :
    Host.Outcome State Fault Refusal :=
  whenCondPc (rd == 15) cond s <|
    orRefuse (rn != 15 && rd != 15 && rs != 15 && rm != 15) .pcOperand <|
    dpFinish s sBit rd (aluSub s (s.reg rn) (s.opShReg rs shift rm))

/-- RSB, register shift (`40_arm_base` R513). -/
def execRsbShReg (cond : Cond) (sBit : Bool) (rn rd : Reg) (rs : Reg) (shift : BitVec 2) (rm : Reg) (s : State) :
    Host.Outcome State Fault Refusal :=
  whenCondPc (rd == 15) cond s <|
    orRefuse (rn != 15 && rd != 15 && rs != 15 && rm != 15) .pcOperand <|
    dpFinish s sBit rd (aluRsb s (s.reg rn) (s.opShReg rs shift rm))

/-- ADD, register shift (`40_arm_base` R514). -/
def execAddShReg (cond : Cond) (sBit : Bool) (rn rd : Reg) (rs : Reg) (shift : BitVec 2) (rm : Reg) (s : State) :
    Host.Outcome State Fault Refusal :=
  whenCondPc (rd == 15) cond s <|
    orRefuse (rn != 15 && rd != 15 && rs != 15 && rm != 15) .pcOperand <|
    dpFinish s sBit rd (aluAdd s (s.reg rn) (s.opShReg rs shift rm))

/-- ADC, register shift (`40_arm_base` R515). -/
def execAdcShReg (cond : Cond) (sBit : Bool) (rn rd : Reg) (rs : Reg) (shift : BitVec 2) (rm : Reg) (s : State) :
    Host.Outcome State Fault Refusal :=
  whenCondPc (rd == 15) cond s <|
    orRefuse (rn != 15 && rd != 15 && rs != 15 && rm != 15) .pcOperand <|
    dpFinish s sBit rd (aluAdc s (s.reg rn) (s.opShReg rs shift rm))

/-- SBC, register shift (`40_arm_base` R516). -/
def execSbcShReg (cond : Cond) (sBit : Bool) (rn rd : Reg) (rs : Reg) (shift : BitVec 2) (rm : Reg) (s : State) :
    Host.Outcome State Fault Refusal :=
  whenCondPc (rd == 15) cond s <|
    orRefuse (rn != 15 && rd != 15 && rs != 15 && rm != 15) .pcOperand <|
    dpFinish s sBit rd (aluSbc s (s.reg rn) (s.opShReg rs shift rm))

/-- RSC, register shift (`40_arm_base` R517). -/
def execRscShReg (cond : Cond) (sBit : Bool) (rn rd : Reg) (rs : Reg) (shift : BitVec 2) (rm : Reg) (s : State) :
    Host.Outcome State Fault Refusal :=
  whenCondPc (rd == 15) cond s <|
    orRefuse (rn != 15 && rd != 15 && rs != 15 && rm != 15) .pcOperand <|
    dpFinish s sBit rd (aluRsc s (s.reg rn) (s.opShReg rs shift rm))

/-- TST, register shift (`40_arm_base` R518). -/
def execTstShReg (cond : Cond) (rn : Reg) (sb : BitVec 4) (rs : Reg) (shift : BitVec 2) (rm : Reg) (s : State) :
    Host.Outcome State Fault Refusal :=
  whenCond cond s <|
    orRefuse (sb == 0) .shouldBeBits <|
    orRefuse (rn != 15 && rs != 15 && rm != 15) .pcOperand <|
    dpCompare s (aluAnd s (s.reg rn) (s.opShReg rs shift rm))

/-- TEQ, register shift (`40_arm_base` R519). -/
def execTeqShReg (cond : Cond) (rn : Reg) (sb : BitVec 4) (rs : Reg) (shift : BitVec 2) (rm : Reg) (s : State) :
    Host.Outcome State Fault Refusal :=
  whenCond cond s <|
    orRefuse (sb == 0) .shouldBeBits <|
    orRefuse (rn != 15 && rs != 15 && rm != 15) .pcOperand <|
    dpCompare s (aluEor s (s.reg rn) (s.opShReg rs shift rm))

/-- CMP, register shift (`40_arm_base` R520). -/
def execCmpShReg (cond : Cond) (rn : Reg) (sb : BitVec 4) (rs : Reg) (shift : BitVec 2) (rm : Reg) (s : State) :
    Host.Outcome State Fault Refusal :=
  whenCond cond s <|
    orRefuse (sb == 0) .shouldBeBits <|
    orRefuse (rn != 15 && rs != 15 && rm != 15) .pcOperand <|
    dpCompare s (aluSub s (s.reg rn) (s.opShReg rs shift rm))

/-- CMN, register shift (`40_arm_base` R521). -/
def execCmnShReg (cond : Cond) (rn : Reg) (sb : BitVec 4) (rs : Reg) (shift : BitVec 2) (rm : Reg) (s : State) :
    Host.Outcome State Fault Refusal :=
  whenCond cond s <|
    orRefuse (sb == 0) .shouldBeBits <|
    orRefuse (rn != 15 && rs != 15 && rm != 15) .pcOperand <|
    dpCompare s (aluAdd s (s.reg rn) (s.opShReg rs shift rm))

/-- ORR, register shift (`40_arm_base` R522). -/
def execOrrShReg (cond : Cond) (sBit : Bool) (rn rd : Reg) (rs : Reg) (shift : BitVec 2) (rm : Reg) (s : State) :
    Host.Outcome State Fault Refusal :=
  whenCondPc (rd == 15) cond s <|
    orRefuse (rn != 15 && rd != 15 && rs != 15 && rm != 15) .pcOperand <|
    dpFinish s sBit rd (aluOrr s (s.reg rn) (s.opShReg rs shift rm))

/-- MOV, register shift (`40_arm_base` R523). -/
def execMovShReg (cond : Cond) (sBit : Bool) (sb : BitVec 4) (rd : Reg) (rs : Reg) (shift : BitVec 2) (rm : Reg) (s : State) :
    Host.Outcome State Fault Refusal :=
  whenCondPc (rd == 15) cond s <|
    orRefuse (sb == 0) .shouldBeBits <|
    orRefuse (rd != 15 && rs != 15 && rm != 15) .pcOperand <|
    dpFinish s sBit rd (aluMov s (s.opShReg rs shift rm))

/-- BIC, register shift (`40_arm_base` R524). -/
def execBicShReg (cond : Cond) (sBit : Bool) (rn rd : Reg) (rs : Reg) (shift : BitVec 2) (rm : Reg) (s : State) :
    Host.Outcome State Fault Refusal :=
  whenCondPc (rd == 15) cond s <|
    orRefuse (rn != 15 && rd != 15 && rs != 15 && rm != 15) .pcOperand <|
    dpFinish s sBit rd (aluBic s (s.reg rn) (s.opShReg rs shift rm))

/-- MVN, register shift (`40_arm_base` R525). -/
def execMvnShReg (cond : Cond) (sBit : Bool) (sb : BitVec 4) (rd : Reg) (rs : Reg) (shift : BitVec 2) (rm : Reg) (s : State) :
    Host.Outcome State Fault Refusal :=
  whenCondPc (rd == 15) cond s <|
    orRefuse (sb == 0) .shouldBeBits <|
    orRefuse (rd != 15 && rs != 15 && rm != 15) .pcOperand <|
    dpFinish s sBit rd (aluMvn s (s.opShReg rs shift rm))

/-- AND, immediate (`40_arm_base` R510). -/
def execAndImm (cond : Cond) (sBit : Bool) (rn rd : Reg) (rotateImm : BitVec 4) (immed8 : BitVec 8) (s : State) :
    Host.Outcome State Fault Refusal :=
  whenCondPc (rd == 15) cond s <|
    dpFinish s sBit rd (aluAnd s (s.reg rn) (s.opImm rotateImm immed8))

/-- EOR, immediate (`40_arm_base` R511). -/
def execEorImm (cond : Cond) (sBit : Bool) (rn rd : Reg) (rotateImm : BitVec 4) (immed8 : BitVec 8) (s : State) :
    Host.Outcome State Fault Refusal :=
  whenCondPc (rd == 15) cond s <|
    dpFinish s sBit rd (aluEor s (s.reg rn) (s.opImm rotateImm immed8))

/-- SUB, immediate (`40_arm_base` R512). -/
def execSubImm (cond : Cond) (sBit : Bool) (rn rd : Reg) (rotateImm : BitVec 4) (immed8 : BitVec 8) (s : State) :
    Host.Outcome State Fault Refusal :=
  whenCondPc (rd == 15) cond s <|
    dpFinish s sBit rd (aluSub s (s.reg rn) (s.opImm rotateImm immed8))

/-- RSB, immediate (`40_arm_base` R513). -/
def execRsbImm (cond : Cond) (sBit : Bool) (rn rd : Reg) (rotateImm : BitVec 4) (immed8 : BitVec 8) (s : State) :
    Host.Outcome State Fault Refusal :=
  whenCondPc (rd == 15) cond s <|
    dpFinish s sBit rd (aluRsb s (s.reg rn) (s.opImm rotateImm immed8))

/-- ADD, immediate (`40_arm_base` R514). -/
def execAddImm (cond : Cond) (sBit : Bool) (rn rd : Reg) (rotateImm : BitVec 4) (immed8 : BitVec 8) (s : State) :
    Host.Outcome State Fault Refusal :=
  whenCondPc (rd == 15) cond s <|
    dpFinish s sBit rd (aluAdd s (s.reg rn) (s.opImm rotateImm immed8))

/-- ADC, immediate (`40_arm_base` R515). -/
def execAdcImm (cond : Cond) (sBit : Bool) (rn rd : Reg) (rotateImm : BitVec 4) (immed8 : BitVec 8) (s : State) :
    Host.Outcome State Fault Refusal :=
  whenCondPc (rd == 15) cond s <|
    dpFinish s sBit rd (aluAdc s (s.reg rn) (s.opImm rotateImm immed8))

/-- SBC, immediate (`40_arm_base` R516). -/
def execSbcImm (cond : Cond) (sBit : Bool) (rn rd : Reg) (rotateImm : BitVec 4) (immed8 : BitVec 8) (s : State) :
    Host.Outcome State Fault Refusal :=
  whenCondPc (rd == 15) cond s <|
    dpFinish s sBit rd (aluSbc s (s.reg rn) (s.opImm rotateImm immed8))

/-- RSC, immediate (`40_arm_base` R517). -/
def execRscImm (cond : Cond) (sBit : Bool) (rn rd : Reg) (rotateImm : BitVec 4) (immed8 : BitVec 8) (s : State) :
    Host.Outcome State Fault Refusal :=
  whenCondPc (rd == 15) cond s <|
    dpFinish s sBit rd (aluRsc s (s.reg rn) (s.opImm rotateImm immed8))

/-- TST, immediate (`40_arm_base` R518). -/
def execTstImm (cond : Cond) (rn : Reg) (sb : BitVec 4) (rotateImm : BitVec 4) (immed8 : BitVec 8) (s : State) :
    Host.Outcome State Fault Refusal :=
  whenCond cond s <|
    orRefuse (sb == 0) .shouldBeBits <|
    dpCompare s (aluAnd s (s.reg rn) (s.opImm rotateImm immed8))

/-- TEQ, immediate (`40_arm_base` R519). -/
def execTeqImm (cond : Cond) (rn : Reg) (sb : BitVec 4) (rotateImm : BitVec 4) (immed8 : BitVec 8) (s : State) :
    Host.Outcome State Fault Refusal :=
  whenCond cond s <|
    orRefuse (sb == 0) .shouldBeBits <|
    dpCompare s (aluEor s (s.reg rn) (s.opImm rotateImm immed8))

/-- CMP, immediate (`40_arm_base` R520). -/
def execCmpImm (cond : Cond) (rn : Reg) (sb : BitVec 4) (rotateImm : BitVec 4) (immed8 : BitVec 8) (s : State) :
    Host.Outcome State Fault Refusal :=
  whenCond cond s <|
    orRefuse (sb == 0) .shouldBeBits <|
    dpCompare s (aluSub s (s.reg rn) (s.opImm rotateImm immed8))

/-- CMN, immediate (`40_arm_base` R521). -/
def execCmnImm (cond : Cond) (rn : Reg) (sb : BitVec 4) (rotateImm : BitVec 4) (immed8 : BitVec 8) (s : State) :
    Host.Outcome State Fault Refusal :=
  whenCond cond s <|
    orRefuse (sb == 0) .shouldBeBits <|
    dpCompare s (aluAdd s (s.reg rn) (s.opImm rotateImm immed8))

/-- ORR, immediate (`40_arm_base` R522). -/
def execOrrImm (cond : Cond) (sBit : Bool) (rn rd : Reg) (rotateImm : BitVec 4) (immed8 : BitVec 8) (s : State) :
    Host.Outcome State Fault Refusal :=
  whenCondPc (rd == 15) cond s <|
    dpFinish s sBit rd (aluOrr s (s.reg rn) (s.opImm rotateImm immed8))

/-- MOV, immediate (`40_arm_base` R523). -/
def execMovImm (cond : Cond) (sBit : Bool) (sb : BitVec 4) (rd : Reg) (rotateImm : BitVec 4) (immed8 : BitVec 8) (s : State) :
    Host.Outcome State Fault Refusal :=
  whenCondPc (rd == 15) cond s <|
    orRefuse (sb == 0) .shouldBeBits <|
    dpFinish s sBit rd (aluMov s (s.opImm rotateImm immed8))

/-- BIC, immediate (`40_arm_base` R524). -/
def execBicImm (cond : Cond) (sBit : Bool) (rn rd : Reg) (rotateImm : BitVec 4) (immed8 : BitVec 8) (s : State) :
    Host.Outcome State Fault Refusal :=
  whenCondPc (rd == 15) cond s <|
    dpFinish s sBit rd (aluBic s (s.reg rn) (s.opImm rotateImm immed8))

/-- MVN, immediate (`40_arm_base` R525). -/
def execMvnImm (cond : Cond) (sBit : Bool) (sb : BitVec 4) (rd : Reg) (rotateImm : BitVec 4) (immed8 : BitVec 8) (s : State) :
    Host.Outcome State Fault Refusal :=
  whenCondPc (rd == 15) cond s <|
    orRefuse (sb == 0) .shouldBeBits <|
    dpFinish s sBit rd (aluMvn s (s.opImm rotateImm immed8))

end Sys2Proof.Machine
end

