-- ==== Sys2Proof/Machine/LoadStore.lean ====
section
/-!
DEFINITION. The ARM loads, stores, multiple transfers and swaps, and PLD (`45_arm_loadstore` R580 to R616).
-/
namespace Sys2Proof.Machine

/-! Addresses -/

/-- Addressing mode 2 with an immediate (R581). -/
def State.am2Imm (s : State) (pBit uBit wBit : Bool) (rn : Reg) (offset12 : BitVec 12) : Address :=
  indexed pBit uBit wBit (s.reg rn) (offset12.setWidth 32)

/-- Addressing mode 2 with a shifted register (R581). -/
def State.am2Reg (s : State) (pBit uBit wBit : Bool) (rn : Reg) (shiftImm : BitVec 5) (shift : BitVec 2)
    (rm : Reg) : Address :=
  indexed pBit uBit wBit (s.reg rn) (shiftByImm (s.reg rm) shift shiftImm s.flagC).value

/-- Addressing mode 3 (R582). -/
def State.am3 (s : State) (pBit uBit iBit wBit : Bool) (rn addrHi addrLo : Reg) : Address :=
  indexed pBit uBit wBit (s.reg rn) (if iBit then halfOffset addrHi addrLo else s.reg addrLo)

/-- The forms of addressing mode 2 with an immediate that are predictable (R581). -/
def am2ImmOk (pBit wBit : Bool) (rn : Reg) (body : Host.Outcome State Fault Refusal) :
    Host.Outcome State Fault Refusal :=
  orRefuse (pBit && !wBit || rn != 15) .writeback body

/-- The forms of addressing mode 2 with a register that are predictable (R581). -/
def am2RegOk (pBit wBit : Bool) (rn rm : Reg) (body : Host.Outcome State Fault Refusal) :
    Host.Outcome State Fault Refusal :=
  orRefuse (rm != 15) .pcOperand <|
  orRefuse (pBit && !wBit || rn != 15 && rm != rn) .writeback body

/-- The forms of addressing mode 3 that are predictable (R582). -/
def am3Ok (pBit iBit wBit : Bool) (rn addrHi addrLo : Reg) (body : Host.Outcome State Fault Refusal) :
    Host.Outcome State Fault Refusal :=
  orRefuse (iBit || addrHi == 0) .shouldBeBits <|
  orRefuse (pBit || !wBit) .writeback <|
  orRefuse (iBit || addrLo != 15) .pcOperand <|
  orRefuse (pBit && !wBit || rn != 15) .writeback body

/-! Writing back (R580) -/

/-- Write the base register. -/
def State.writeBack (s : State) (rn : Reg) (wb : Option Word) : State :=
  match wb with
  | some b => s.setReg rn b
  | none => s

/-- The end of a load: the destination, then the base. A load with write-back into its own base leaves a free
value there: R580 calls the result UNPREDICTABLE, and that it runs is a DESIGN CHOICE, notes/assumptions 16. -/
def finishLoad (rd rn : Reg) (wb : Option Word) (v : Word) (s : State) :
    Host.Outcome State Fault Refusal :=
  if rd = 15 then (s.writeBack rn wb).interwork v
  else if wb.isSome && rd == rn then .next (s.setReg rd (s.freeBits 32)).drawn.advance
  else .next ((s.setReg rd v).writeBack rn wb).advance

/-- `pc + STORE_PC_OFFSET` (`10_state` R36). -/
def State.storePc (s : State) : Word := s.pc + (if Config.storePcTwelve then 12 else 8)

/-- The value a store writes: free when the base is written back and is the register stored: R580 calls the value stored
UNPREDICTABLE, and that the store runs is a DESIGN CHOICE, notes/assumptions 16. -/
def State.storeValue (s : State) (rd rn : Reg) (wb : Option Word) : Word :=
  if wb.isSome && rd == rn then s.freeBits 32 else s.reg rd

/-- The state after the value of a store has been read. -/
def State.storeRead (s : State) (rd rn : Reg) (wb : Option Word) : State :=
  if wb.isSome && rd == rn then s.drawn else s

/-- The end of a store. -/
def finishStore (rn : Reg) (wb : Option Word) (_ : Unit) (s : State) : Host.Outcome State Fault Refusal :=
  .next (s.writeBack rn wb).advance

/-! The transfers of one register -/

/-- LDR: into R15 a misaligned address is unpredictable without the alignment check
(`20_memory` R222 a). -/
def loadWordTo (user : Bool) (rd rn : Reg) (a : Address) (s : State) : Host.Outcome State Fault Refusal :=
  orRefuse (rd != 15 || s.ctrlBit 1 || a.addr.extractLsb' 0 2 == 0) .misaligned <|
  withValue (rd == 15) (loadWord a.addr user) s (finishLoad rd rn a.wb)

def loadByteTo (user : Bool) (rd rn : Reg) (a : Address) (s : State) : Host.Outcome State Fault Refusal :=
  withValue false (loadByte a.addr user) s fun v => finishLoad rd rn a.wb (v.setWidth 32)

def loadSignedByteTo (rd rn : Reg) (a : Address) (s : State) : Host.Outcome State Fault Refusal :=
  withValue false (loadByte a.addr false) s fun v => finishLoad rd rn a.wb (v.signExtend 32)

def loadHalfTo (rd rn : Reg) (a : Address) (s : State) : Host.Outcome State Fault Refusal :=
  withValue false (loadHalf a.addr) s fun v => finishLoad rd rn a.wb (v.setWidth 32)

def loadSignedHalfTo (rd rn : Reg) (a : Address) (s : State) : Host.Outcome State Fault Refusal :=
  withValue false (loadHalf a.addr) s fun v => finishLoad rd rn a.wb (v.signExtend 32)

/-- STR: R15 stores `pc + STORE_PC_OFFSET`. -/
def storeWordFrom (user : Bool) (rd rn : Reg) (a : Address) (s : State) :
    Host.Outcome State Fault Refusal :=
  withValue false
    (storeWord a.addr user (if rd = 15 then s.storePc else s.storeValue rd rn a.wb))
    (s.storeRead rd rn a.wb) (finishStore rn a.wb)

def storeByteFrom (user : Bool) (rd rn : Reg) (a : Address) (s : State) :
    Host.Outcome State Fault Refusal :=
  withValue false (storeByte a.addr user ((s.storeValue rd rn a.wb).setWidth 8))
    (s.storeRead rd rn a.wb) (finishStore rn a.wb)

def storeHalfFrom (rd rn : Reg) (a : Address) (s : State) : Host.Outcome State Fault Refusal :=
  withValue false (storeHalf a.addr ((s.storeValue rd rn a.wb).setWidth 16))
    (s.storeRead rd rn a.wb) (finishStore rn a.wb)

/-! Doublewords (R597, R598) -/

/-- The alignment of a doubleword (`20_memory` R221, R222 e). -/
def checkDouble (va : Word) : Exec Unit := do
  checkAligned va 3
  require (va.extractLsb' 0 3 == 0) .misaligned

/-- Both words of LDRD. -/
def loadDouble (va : Word) : Exec (Word × Word) := do
  checkDouble va
  let a ← loadAligned va false
  let b ← loadAligned (va + 4) false
  pure (a, b)

/-- Both words of STRD. -/
def storeDouble (va a b : Word) : Exec Unit := do
  checkDouble va
  storeAligned va false a
  storeAligned (va + 4) false b

/-- The register constraints of LDRD and STRD: an odd register takes the undefined instruction exception,
R14 and the overlaps are unpredictable (R597). -/
def doubleOk (pBit iBit wBit : Bool) (rn rd addrLo : Reg) (s : State)
    (body : Host.Outcome State Fault Refusal) : Host.Outcome State Fault Refusal :=
  if rd.getLsbD 0 then s.raiseUndefined
  else
    orRefuse (rd != 14) .pcOperand <|
    orRefuse (pBit && !wBit || rn != rd && rn != rd + 1) .registerOverlap <|
    orRefuse (iBit || addrLo != rd && addrLo != rd + 1) .registerOverlap body

/-! Multiple transfers (R605 to R610) -/

/-- The registers an aborted LDM had loaded hold free values, but for the base and the pc
(`20_memory` R233; notes/assumptions 17). -/
def State.forget (s : State) (m base : BitVec 5) : List Reg → State
  | [] => s
  | r :: rest =>
    if physIndex m r = base || r = 15 then s.forget m base rest
    else ((s.setRegIn m r (s.freeBits 32)).drawn).forget m base rest

/-- The words of LDM, lowest address first; `base` is the physical base register, `done` are the registers
loaded already. -/
def loadList (m base : BitVec 5) (va : Word) (done : List Reg) : List Reg → Exec (List Word)
  | [] => pure []
  | r :: rest => fun s =>
    match loadAligned va false s with
    | .ok w s1 =>
      match loadList m base (va + 4) (done ++ [r]) rest s1 with
      | .ok ws s2 => .ok (w :: ws) s2
      | .error e s2 => .error e s2
    | .error e s1 => .error e (s1.forget m base done)

/-- Write loaded words into registers of mode `m`; R15 is left to the caller. -/
def State.setList (s : State) (m : BitVec 5) : List Reg → List Word → State
  | r :: rs, w :: ws => (if r = 15 then s else s.setRegIn m r w).setList m rs ws
  | _, _ => s

/-- The base after LDM with write-back: free when the base is in the list: R606 calls its final value UNPREDICTABLE, and that
the instruction runs is a DESIGN CHOICE, notes/assumptions 16. -/
def State.writeBackList (s : State) (rn : Reg) (wb : Option Word) (inList : Bool) : State :=
  match wb with
  | some b => if inList then (s.setReg rn (s.freeBits 32)).drawn else s.setReg rn b
  | none => s

/-- The value STM stores for a register (R609): free for a base that is written back and is not the lowest
register of the list: R609 calls the stored value UNPREDICTABLE, and that the instruction runs is a DESIGN CHOICE,
notes/assumptions 16. -/
def State.stmValue (s : State) (m : BitVec 5) (rn : Reg) (wBit : Bool) (lowest : Bool) (r : Reg) : Word :=
  if r = 15 then s.storePc
  else if wBit && r == rn && !lowest then s.freeBits 32
  else s.regIn m r

/-- The words STM stores. -/
def State.stmValues (s : State) (m : BitVec 5) (rn : Reg) (wBit : Bool) (list : BitVec 16) : List Word :=
  match listRegs list with
  | [] => []
  | r :: rest => s.stmValue m rn wBit true r :: rest.map (s.stmValue m rn wBit false)

/-- The checks of a register list (R605). -/
def listOk (rn : Reg) (list : BitVec 16) (body : Host.Outcome State Fault Refusal) :
    Host.Outcome State Fault Refusal :=
  orRefuse (rn != 15) .pcOperand <| orRefuse (list != 0) .emptyRegisterList body

/-- The words of a list, after the one alignment check (R605). -/
def loadMultiple (m base : BitVec 5) (start : Word) (list : BitVec 16) : Exec (List Word) := do
  checkAligned start 2
  loadList m base start [] (listRegs list)

/-- Store the words of a list, after the one alignment check. -/
def storeMultiple (start : Word) (ws : List Word) : Exec Unit := do
  checkAligned start 2
  storeWords start ws

/-- The end of LDM(1), and of the Thumb forms: registers, base, then the pc (R606). -/
def finishLdm (rn : Reg) (wb : Option Word) (list : BitVec 16) (ws : List Word) (s : State) :
    Host.Outcome State Fault Refusal :=
  let s1 := (s.setList s.mode (listRegs list) ws).writeBackList rn wb (list.getLsbD rn.toNat)
  if list.getLsbD 15 then s1.interwork (ws.getLastD 0) else .next s1.advance

/-- LDM(1) (R606). -/
def loadMultipleTo (pBit uBit wBit : Bool) (rn : Reg) (list : BitVec 16) (s : State) :
    Host.Outcome State Fault Refusal :=
  let a := multipleAddress pBit uBit (s.reg rn) (listCount 16 list)
  withValue (list.getLsbD 15) (loadMultiple s.mode (physIndex s.mode rn) a.1 list) s
    (finishLdm rn (if wBit then some a.2 else none) list)

/-- STM(1) (R609). -/
def storeMultipleFrom (pBit uBit wBit : Bool) (rn : Reg) (list : BitVec 16) (s : State) :
    Host.Outcome State Fault Refusal :=
  let a := multipleAddress pBit uBit (s.reg rn) (listCount 16 list)
  withValue false (storeMultiple a.1 (s.stmValues s.mode rn wBit list)) s.drawn
    (finishStore rn (if wBit then some a.2 else none))

/-! PLD (R599, `20_memory` R237) -/

/-- What a PLD from `s` that is cancelled at `t` leaves: no cache is affected, the L2 neither, by its walk or its fill
(`60_exceptions` R906). The TLB entry of its walk and the errors logged (R920) stay: DESIGN CHOICE, notes/assumptions 20. -/
def State.cancelled (s t : State) : State := { s.onlyErrors t with dtlb := t.dtlb }

/-- Fill a line for a PLD from `s` whose translation left `s1`: the stores of the block leave first, and an error cancels
it. -/
def State.preloadFill (s s1 : State) (mva : Word) (m : Mapped) : State :=
  match (s1.releaseLine (blockOf m.pa)).nextRead (lineBase (blockOf m.pa)) m.attrs.l2 false with
  | (some b, t) => t.dAllocate mva (freshLine mva m b) m.attrs.llr
  | (none, t) => (s.releaseLine (blockOf m.pa)).cancelled t

/-- The effect of PLD on the data TLB and the data cache. An abort cancels it (`60_exceptions` R906). What is unpredictable
at an access is refused here too. It is not counted as an access to the data cache (`61_debug_pmu_power` R1005, event 0x0A):
DESIGN CHOICE, notes/assumptions 26. -/
def preload (va : Word) (s : State) : Host.Outcome State Fault Refusal :=
  let mva := s.pidRemap va
  match translate mva .read s.privileged s with
  | .error (.abort ..) s1 => .next (s.cancelled s1).advance
  | .error e s1 => stopOutcome false e s1
  | .ok m s1 =>
    if s1.fills m && (s1.dFind mva).isNone then
      orRefuse (s1.lockable m) .maintenance <| .next (s.preloadFill s1 mva m).advance
    else .next s1.advance

/-! The instructions -/

/-- PLD (`45_arm_loadstore` R599). -/
def execPldImm (uBit : Bool) (rn : BitVec 4) (offset12 : BitVec 12) (s : State) :
    Host.Outcome State Fault Refusal :=
  preload (s.am2Imm true uBit false rn offset12).addr s

/-- PLD (`45_arm_loadstore` R599). -/
def execPldReg (uBit : Bool) (rn : BitVec 4) (shiftImm : BitVec 5) (shift : BitVec 2) (rm : BitVec 4)
    (s : State) :
    Host.Outcome State Fault Refusal :=
  orRefuse (rm != 15) .pcOperand <|
  preload (s.am2Reg true uBit false rn shiftImm shift rm).addr s

/-- LDR (`45_arm_loadstore` R585). -/
def execLdrImm (cond : Cond) (pBit uBit wBit : Bool) (rn rd : BitVec 4) (offset12 : BitVec 12) (s : State) :
    Host.Outcome State Fault Refusal :=
  whenCondPc (rd == 15) cond s <|
    am2ImmOk pBit wBit rn <|
    loadWordTo false rd rn (s.am2Imm pBit uBit wBit rn offset12) s

/-- LDRT (`45_arm_loadstore` R589). -/
def execLdrtImm (cond : Cond) (uBit : Bool) (rn rd : BitVec 4) (offset12 : BitVec 12) (s : State) :
    Host.Outcome State Fault Refusal :=
  whenCond cond s <|
    orRefuse (rd != 15) .pcOperand <|
    am2ImmOk false true rn <|
    loadWordTo true rd rn (s.am2Imm false uBit true rn offset12) s

/-- LDRB (`45_arm_loadstore` R586). -/
def execLdrbImm (cond : Cond) (pBit uBit wBit : Bool) (rn rd : BitVec 4) (offset12 : BitVec 12)
    (s : State) :
    Host.Outcome State Fault Refusal :=
  whenCond cond s <|
    orRefuse (rd != 15) .pcOperand <|
    am2ImmOk pBit wBit rn <|
    loadByteTo false rd rn (s.am2Imm pBit uBit wBit rn offset12) s

/-- LDRBT (`45_arm_loadstore` R590). -/
def execLdrbtImm (cond : Cond) (uBit : Bool) (rn rd : BitVec 4) (offset12 : BitVec 12) (s : State) :
    Host.Outcome State Fault Refusal :=
  whenCond cond s <|
    orRefuse (rd != 15) .pcOperand <|
    am2ImmOk false true rn <|
    loadByteTo true rd rn (s.am2Imm false uBit true rn offset12) s

/-- STR (`45_arm_loadstore` R587). -/
def execStrImm (cond : Cond) (pBit uBit wBit : Bool) (rn rd : BitVec 4) (offset12 : BitVec 12) (s : State) :
    Host.Outcome State Fault Refusal :=
  whenCond cond s <|
    am2ImmOk pBit wBit rn <|
    storeWordFrom false rd rn (s.am2Imm pBit uBit wBit rn offset12) s

/-- STRT (`45_arm_loadstore` R591). -/
def execStrtImm (cond : Cond) (uBit : Bool) (rn rd : BitVec 4) (offset12 : BitVec 12) (s : State) :
    Host.Outcome State Fault Refusal :=
  whenCond cond s <|
    am2ImmOk false true rn <|
    storeWordFrom true rd rn (s.am2Imm false uBit true rn offset12) s

/-- STRB (`45_arm_loadstore` R588). -/
def execStrbImm (cond : Cond) (pBit uBit wBit : Bool) (rn rd : BitVec 4) (offset12 : BitVec 12)
    (s : State) :
    Host.Outcome State Fault Refusal :=
  whenCond cond s <|
    orRefuse (rd != 15) .pcOperand <|
    am2ImmOk pBit wBit rn <|
    storeByteFrom false rd rn (s.am2Imm pBit uBit wBit rn offset12) s

/-- STRBT (`45_arm_loadstore` R592). -/
def execStrbtImm (cond : Cond) (uBit : Bool) (rn rd : BitVec 4) (offset12 : BitVec 12) (s : State) :
    Host.Outcome State Fault Refusal :=
  whenCond cond s <|
    am2ImmOk false true rn <|
    storeByteFrom true rd rn (s.am2Imm false uBit true rn offset12) s

/-- LDR (`45_arm_loadstore` R585). -/
def execLdrReg (cond : Cond) (pBit uBit wBit : Bool) (rn rd : BitVec 4) (shiftImm : BitVec 5)
    (shift : BitVec 2) (rm : BitVec 4) (s : State) :
    Host.Outcome State Fault Refusal :=
  whenCondPc (rd == 15) cond s <|
    am2RegOk pBit wBit rn rm <|
    loadWordTo false rd rn (s.am2Reg pBit uBit wBit rn shiftImm shift rm) s

/-- LDRT (`45_arm_loadstore` R589). -/
def execLdrtReg (cond : Cond) (uBit : Bool) (rn rd : BitVec 4) (shiftImm : BitVec 5)
    (shift : BitVec 2) (rm : BitVec 4) (s : State) :
    Host.Outcome State Fault Refusal :=
  whenCond cond s <|
    orRefuse (rd != 15) .pcOperand <|
    am2RegOk false true rn rm <|
    loadWordTo true rd rn (s.am2Reg false uBit true rn shiftImm shift rm) s

/-- LDRB (`45_arm_loadstore` R586). -/
def execLdrbReg (cond : Cond) (pBit uBit wBit : Bool) (rn rd : BitVec 4) (shiftImm : BitVec 5)
    (shift : BitVec 2) (rm : BitVec 4) (s : State) :
    Host.Outcome State Fault Refusal :=
  whenCond cond s <|
    orRefuse (rd != 15) .pcOperand <|
    am2RegOk pBit wBit rn rm <|
    loadByteTo false rd rn (s.am2Reg pBit uBit wBit rn shiftImm shift rm) s

/-- LDRBT (`45_arm_loadstore` R590). -/
def execLdrbtReg (cond : Cond) (uBit : Bool) (rn rd : BitVec 4) (shiftImm : BitVec 5)
    (shift : BitVec 2) (rm : BitVec 4) (s : State) :
    Host.Outcome State Fault Refusal :=
  whenCond cond s <|
    orRefuse (rd != 15) .pcOperand <|
    am2RegOk false true rn rm <|
    loadByteTo true rd rn (s.am2Reg false uBit true rn shiftImm shift rm) s

/-- STR (`45_arm_loadstore` R587). -/
def execStrReg (cond : Cond) (pBit uBit wBit : Bool) (rn rd : BitVec 4) (shiftImm : BitVec 5)
    (shift : BitVec 2) (rm : BitVec 4) (s : State) :
    Host.Outcome State Fault Refusal :=
  whenCond cond s <|
    am2RegOk pBit wBit rn rm <|
    storeWordFrom false rd rn (s.am2Reg pBit uBit wBit rn shiftImm shift rm) s

/-- STRT (`45_arm_loadstore` R591). -/
def execStrtReg (cond : Cond) (uBit : Bool) (rn rd : BitVec 4) (shiftImm : BitVec 5)
    (shift : BitVec 2) (rm : BitVec 4) (s : State) :
    Host.Outcome State Fault Refusal :=
  whenCond cond s <|
    am2RegOk false true rn rm <|
    storeWordFrom true rd rn (s.am2Reg false uBit true rn shiftImm shift rm) s

/-- STRB (`45_arm_loadstore` R588). -/
def execStrbReg (cond : Cond) (pBit uBit wBit : Bool) (rn rd : BitVec 4) (shiftImm : BitVec 5)
    (shift : BitVec 2) (rm : BitVec 4) (s : State) :
    Host.Outcome State Fault Refusal :=
  whenCond cond s <|
    orRefuse (rd != 15) .pcOperand <|
    am2RegOk pBit wBit rn rm <|
    storeByteFrom false rd rn (s.am2Reg pBit uBit wBit rn shiftImm shift rm) s

/-- STRBT (`45_arm_loadstore` R592). -/
def execStrbtReg (cond : Cond) (uBit : Bool) (rn rd : BitVec 4) (shiftImm : BitVec 5)
    (shift : BitVec 2) (rm : BitVec 4) (s : State) :
    Host.Outcome State Fault Refusal :=
  whenCond cond s <|
    am2RegOk false true rn rm <|
    storeByteFrom true rd rn (s.am2Reg false uBit true rn shiftImm shift rm) s

/-- LDRH (`45_arm_loadstore` R593). -/
def execLdrh (cond : Cond) (pBit uBit iBit wBit : Bool) (rn rd addrHi addrLo : BitVec 4) (s : State) :
    Host.Outcome State Fault Refusal :=
  whenCond cond s <|
    orRefuse (rd != 15) .pcOperand <|
    am3Ok pBit iBit wBit rn addrHi addrLo <|
    loadHalfTo rd rn (s.am3 pBit uBit iBit wBit rn addrHi addrLo) s

/-- LDRSB (`45_arm_loadstore` R594). -/
def execLdrsb (cond : Cond) (pBit uBit iBit wBit : Bool) (rn rd addrHi addrLo : BitVec 4) (s : State) :
    Host.Outcome State Fault Refusal :=
  whenCond cond s <|
    orRefuse (rd != 15) .pcOperand <|
    am3Ok pBit iBit wBit rn addrHi addrLo <|
    loadSignedByteTo rd rn (s.am3 pBit uBit iBit wBit rn addrHi addrLo) s

/-- LDRSH (`45_arm_loadstore` R595). -/
def execLdrsh (cond : Cond) (pBit uBit iBit wBit : Bool) (rn rd addrHi addrLo : BitVec 4) (s : State) :
    Host.Outcome State Fault Refusal :=
  whenCond cond s <|
    orRefuse (rd != 15) .pcOperand <|
    am3Ok pBit iBit wBit rn addrHi addrLo <|
    loadSignedHalfTo rd rn (s.am3 pBit uBit iBit wBit rn addrHi addrLo) s

/-- STRH (`45_arm_loadstore` R596). -/
def execStrh (cond : Cond) (pBit uBit iBit wBit : Bool) (rn rd addrHi addrLo : BitVec 4) (s : State) :
    Host.Outcome State Fault Refusal :=
  whenCond cond s <|
    am3Ok pBit iBit wBit rn addrHi addrLo <|
    storeHalfFrom rd rn (s.am3 pBit uBit iBit wBit rn addrHi addrLo) s

/-- LDRD (`45_arm_loadstore` R597). -/
def execLdrd (cond : Cond) (pBit uBit iBit wBit : Bool) (rn rd addrHi addrLo : BitVec 4) (s : State) :
    Host.Outcome State Fault Refusal :=
  whenCond cond s <|
    doubleOk pBit iBit wBit rn rd addrLo s <|
    am3Ok pBit iBit wBit rn addrHi addrLo <|
    let a := s.am3 pBit uBit iBit wBit rn addrHi addrLo
    withValue false (loadDouble a.addr) s fun v s1 =>
      .next (((s1.setReg rd v.1).setReg (rd + 1) v.2).writeBack rn a.wb).advance

/-- STRD (`45_arm_loadstore` R598). -/
def execStrd (cond : Cond) (pBit uBit iBit wBit : Bool) (rn rd addrHi addrLo : BitVec 4) (s : State) :
    Host.Outcome State Fault Refusal :=
  whenCond cond s <|
    doubleOk pBit iBit wBit rn rd addrLo s <|
    am3Ok pBit iBit wBit rn addrHi addrLo <|
    let a := s.am3 pBit uBit iBit wBit rn addrHi addrLo
    withValue false (storeDouble a.addr (s.reg rd) (s.reg (rd + 1))) s (finishStore rn a.wb)

/-- LDM(1) (`45_arm_loadstore` R606). -/
def execLdm (cond : Cond) (pBit uBit wBit : Bool) (rn : BitVec 4) (registerList : BitVec 16) (s : State) :
    Host.Outcome State Fault Refusal :=
  whenCondPc (registerList.getLsbD 15) cond s <|
    listOk rn registerList <|
    loadMultipleTo pBit uBit wBit rn registerList s

/-- LDM(2) (`45_arm_loadstore` R607). -/
def execLdmUser (cond : Cond) (pBit uBit sb : Bool) (rn : BitVec 4) (registerList : BitVec 15) (s : State) :
    Host.Outcome State Fault Refusal :=
  whenCond cond s <|
    listOk rn ((0 : BitVec 1) ++ registerList) <|
    orRefuse (!sb) .writeback <|
    orRefuse s.spsr.isSome .illegalMode <|
    let list := (0 : BitVec 1) ++ registerList
    let a := multipleAddress pBit uBit (s.reg rn) (listCount 16 list)
    withValue false (loadMultiple modeUser (physIndex s.mode rn) a.1 list) s fun ws s1 =>
      .next (s1.setList modeUser (listRegs list) ws).advance

/-- LDM(3) (`45_arm_loadstore` R608). -/
def execLdmReturn (cond : Cond) (pBit uBit wBit : Bool) (rn : BitVec 4) (registerList : BitVec 15)
    (s : State) :
    Host.Outcome State Fault Refusal :=
  whenCondPc true cond s <|
    listOk rn ((1 : BitVec 1) ++ registerList) <|
    orRefuse s.spsr.isSome .noSpsr <|
    let list := (1 : BitVec 1) ++ registerList
    let a := multipleAddress pBit uBit (s.reg rn) (listCount 16 list)
    withValue true (loadMultiple s.mode (physIndex s.mode rn) a.1 list) s fun ws s1 =>
      ((s1.setList s1.mode (listRegs list) ws).writeBackList rn (if wBit then some a.2 else none)
        (list.getLsbD rn.toNat)).exceptionReturn (ws.getLastD 0)

/-- STM(1) (`45_arm_loadstore` R609). -/
def execStm (cond : Cond) (pBit uBit wBit : Bool) (rn : BitVec 4) (registerList : BitVec 16) (s : State) :
    Host.Outcome State Fault Refusal :=
  whenCond cond s <|
    listOk rn registerList <|
    storeMultipleFrom pBit uBit wBit rn registerList s

/-- STM(2) (`45_arm_loadstore` R610). -/
def execStmUser (cond : Cond) (pBit uBit sb : Bool) (rn : BitVec 4) (registerList : BitVec 16) (s : State) :
    Host.Outcome State Fault Refusal :=
  whenCond cond s <|
    listOk rn registerList <|
    orRefuse (!sb) .writeback <|
    orRefuse s.spsr.isSome .illegalMode <|
    let a := multipleAddress pBit uBit (s.reg rn) (listCount 16 registerList)
    withValue false (storeMultiple a.1 (s.stmValues modeUser rn false registerList)) s
      (finishStore rn none)

/-- SWP: the word read, rotated when the address is misaligned (R615); the address of an MMU abort is that of
`loadAligned`. -/
def swapWordAt (va v : Word) : Exec Word := do
  checkAligned va 2
  let s ← get
  let mva := s.pidRemap va &&& ~~~3
  let k := wordOffset mva
  let w ← swapWord mva 4 (byteMask k 4) (placeAt k v)
  pure (w.rotateRight (8 * (va.extractLsb' 0 2).toNat))

/-- SWPB: the byte read (R616). -/
def swapByteAt (va : Word) (v : Byte) : Exec Byte := do
  let s ← get
  let mva := s.pidRemap va
  let k := wordOffset mva + s.byteLane mva
  let w ← swapWord mva 1 (byteMask k 1) (placeAt k (v.setWidth 32))
  pure (w.extractLsb' (8 * s.byteLane mva) 8)

/-- SWP (`45_arm_loadstore` R615). -/
def execSwp (cond : Cond) (rn rd sb rm : BitVec 4) (s : State) :
    Host.Outcome State Fault Refusal :=
  whenCond cond s <|
    orRefuse (sb == 0) .shouldBeBits <|
    orRefuse (rd != 15 && rm != 15 && rn != 15) .pcOperand <|
    orRefuse (rn != rm && rn != rd) .registerOverlap <|
    withValue false (swapWordAt (s.reg rn) (s.reg rm)) s fun v s1 => .next (s1.setReg rd v).advance

/-- SWPB (`45_arm_loadstore` R616). -/
def execSwpb (cond : Cond) (rn rd sb rm : BitVec 4) (s : State) :
    Host.Outcome State Fault Refusal :=
  whenCond cond s <|
    orRefuse (sb == 0) .shouldBeBits <|
    orRefuse (rd != 15 && rm != 15 && rn != 15) .pcOperand <|
    orRefuse (rn != rm && rn != rd) .registerOverlap <|
    withValue false (swapByteAt (s.reg rn) ((s.reg rm).setWidth 8)) s fun v s1 =>
      .next (s1.setReg rd (v.setWidth 32)).advance

end Sys2Proof.Machine
end

