-- ==== Sys2Proof/Machine/Status.lean ====
section
/-!
DEFINITION. Reading and writing the status registers (`40_arm_base` R550, R551).
-/
namespace Sys2Proof.Machine

/-- The bits of a status register that `field_mask` selects and the spec allocates: [31:27] and [7:0]
(R551). -/
def psrMask (fieldMask : BitVec 4) : Word :=
  (if fieldMask.getLsbD 3 then 0xF8000000 else 0) ||| (if fieldMask.getLsbD 0 then 0x000000FF else 0)

/-- Put the masked bits of `v` over `old`. -/
def overlay (mask old v : Word) : Word := (old &&& ~~~mask) ||| (v &&& mask)

/-- Write the CPSR (R551). User mode writes the flags only. In the other modes the T bit must stay, the mode
must be one software may select, and User mode is not entered in Special Debug State
(`61_debug_pmu_power` R1031). -/
def State.writeCpsr (s : State) (fieldMask : BitVec 4) (v : Word) : Host.Outcome State Fault Refusal :=
  if s.privileged then
    orRefuse (!fieldMask.getLsbD 0 || v.getLsbD 5 == s.thumb) .illegalMode <|
    orRefuse (!fieldMask.getLsbD 0 || isSoftwareMode (v.extractLsb' 0 5)) .illegalMode <|
    orRefuse (!(fieldMask.getLsbD 0 && s.dbg.sds && v.extractLsb' 0 5 == modeUser)) .specialDebugState <|
    .next { s with cpsr := overlay (psrMask fieldMask) s.cpsr v }.advance
  else .next { s with cpsr := overlay (psrMask fieldMask &&& 0xF8000000) s.cpsr v }.advance

/-- Write the SPSR of the current mode (R551). -/
def State.writeSpsr (s : State) (fieldMask : BitVec 4) (v : Word) : Host.Outcome State Fault Refusal :=
  match s.spsr with
  | none => .refused .noSpsr
  | some p => .next (s.setSpsrOf (bankOf s.mode) (overlay (psrMask fieldMask) p v)).advance

/-- Write a status register. -/
def State.writePsr (s : State) (rBit : Bool) (fieldMask : BitVec 4) (v : Word) :
    Host.Outcome State Fault Refusal :=
  if rBit then s.writeSpsr fieldMask v else s.writeCpsr fieldMask v

/-- MRS (`40_arm_base` R550). -/
def execMrs (cond : Cond) (rBit : Bool) (sb1 rd sb2 sb3 : BitVec 4) (s : State) :
    Host.Outcome State Fault Refusal :=
  whenCond cond s <|
    orRefuse (sb1 == 15 && sb2 == 0 && sb3 == 0) .shouldBeBits <|
    orRefuse (rd != 15) .pcOperand <|
    if rBit then
      match s.spsr with
      | some p => .next (s.setReg rd p).advance
      | none => .refused .noSpsr
    else .next (s.setReg rd s.cpsr).advance

/-- MSR (`40_arm_base` R551). -/
def execMsrReg (cond : Cond) (rBit : Bool) (fieldMask : BitVec 4) (sb : BitVec 8) (rm : BitVec 4)
    (s : State) :
    Host.Outcome State Fault Refusal :=
  whenCond cond s <|
    orRefuse (sb == 0xF0) .shouldBeBits <|
    s.writePsr rBit fieldMask (s.reg rm)

/-- MSR (`40_arm_base` R551). -/
def execMsrImm (cond : Cond) (rBit : Bool) (fieldMask sb rotateImm : BitVec 4) (immed8 : BitVec 8)
    (s : State) :
    Host.Outcome State Fault Refusal :=
  whenCond cond s <|
    orRefuse (sb == 15) .shouldBeBits <|
    s.writePsr rBit fieldMask (shiftImmediate rotateImm immed8 s.flagC).value

end Sys2Proof.Machine
end

