-- ==== Sys2Proof/Machine/System.lean ====
section
/-!
DEFINITION. The instructions whose effect is an exception: SWI, BKPT, and the undefined encodings (`60_exceptions` R890 to
R892, `30_encoding` R453, R462, `41_dsp_thumb` R731 to R733).
-/
namespace Sys2Proof.Machine

/-- The software breakpoint (`60_exceptions` R892): nothing happens when the debug functionality is disabled
or in Special Debug State. -/
def State.softwareBreakpoint (s : State) : State :=
  if s.debugOn && !s.dbg.sds then s.debugException .prefetchAbort 0b011 (s.pc + 4) else s.advance

/-- SWI (`60_exceptions` R891). -/
def execSwi (cond : Cond) (_immed24 : BitVec 24) (s : State) :
    Host.Outcome State Fault Refusal :=
  whenCond cond s <| s.raise .swi s.nextPc

/-- BKPT (`60_exceptions` R892). -/
def execBkpt (cond : Cond) (_immedHi : BitVec 12) (_immedLo : BitVec 4) (s : State) :
    Host.Outcome State Fault Refusal :=
  orRefuse (cond == .al) .conditionalBkpt <| .next s.softwareBreakpoint

/-- An undefined encoding (`30_encoding` R462). -/
def execUndefExt (cond : Cond) (_raw1 : BitVec 17) (_raw2 : BitVec 4) (s : State) :
    Host.Outcome State Fault Refusal :=
  whenCond cond s <| s.raiseUndefined

/-- An undefined encoding (`30_encoding` R462). -/
def execUndefMisc (cond : Cond) (_raw1 : BitVec 2) (_raw2 : BitVec 20) (s : State) :
    Host.Outcome State Fault Refusal :=
  whenCond cond s <| s.raiseUndefined

/-- An undefined encoding (`30_encoding` R462). -/
def execUndefImm (cond : Cond) (_raw1 : Bool) (_raw2 : BitVec 20) (s : State) :
    Host.Outcome State Fault Refusal :=
  whenCond cond s <| s.raiseUndefined

/-- An undefined encoding (`30_encoding` R462). -/
def execUndefMedia (cond : Cond) (_raw1 : BitVec 20) (_raw2 : BitVec 4) (s : State) :
    Host.Outcome State Fault Refusal :=
  whenCond cond s <| s.raiseUndefined

/-- An undefined encoding (`30_encoding` R453). -/
def execUndefUncond (_raw : BitVec 28) (s : State) :
    Host.Outcome State Fault Refusal :=
  s.raiseUndefined

/-- SWI (`41_dsp_thumb` R731). -/
def execTSwi (_imm8 : BitVec 8) (s : State) :
    Host.Outcome State Fault Refusal :=
  s.raise .swi s.nextPc

/-- BKPT (`41_dsp_thumb` R732). -/
def execTBkpt (_imm8 : BitVec 8) (s : State) :
    Host.Outcome State Fault Refusal :=
  .next s.softwareBreakpoint

/-- An undefined encoding (`41_dsp_thumb` R733). -/
def execTUndef1011 (_raw : BitVec 12) (s : State) :
    Host.Outcome State Fault Refusal :=
  s.raiseUndefined

/-- An undefined encoding (`41_dsp_thumb` R733). -/
def execTUndefCond (_raw : BitVec 8) (s : State) :
    Host.Outcome State Fault Refusal :=
  s.raiseUndefined

/-- An undefined encoding (`41_dsp_thumb` R733). -/
def execTUndefBlx (_raw : BitVec 10) (s : State) :
    Host.Outcome State Fault Refusal :=
  s.raiseUndefined

end Sys2Proof.Machine
end

