-- ==== Sys2Proof/Machine/Thumb.lean ====
section
/-!
DEFINITION. The Thumb instructions (`41_dsp_thumb` R670 to R730).
-/
namespace Sys2Proof.Machine

/-- The end of a Thumb instruction that writes a low register and the flags. -/
def thumbSum (s : State) (rd : BitVec 3) (r : Sum) : Host.Outcome State Fault Refusal :=
  .next ((s.setReg (low rd) r.value).setSum r).advance

/-- The end of a Thumb instruction that writes a low register, N and Z. -/
def thumbLogic (s : State) (rd : BitVec 3) (r : Word) : Host.Outcome State Fault Refusal :=
  .next ((s.setReg (low rd) r).setNZ r).advance

/-- The end of a Thumb shift: C is the shifter's carry, V stays. -/
def thumbShift (s : State) (rd : BitVec 3) (r : Shifted) : Host.Outcome State Fault Refusal :=
  .next ((s.setReg (low rd) r.value).setNZC r.value r.carry).advance

/-- A full register number from its high bit. -/
def high (h : Bool) (r : BitVec 3) : Reg := BitVec.ofBool h ++ r

/-- `(pc + 4) AND 0xFFFFFFFC` (R703, R720). -/
def State.pcBase (s : State) : Word := s.pcRead &&& ~~~3

/-- An immediate field in units of bytes, halfwords or words. -/
def scaled {w : Nat} (imm : BitVec w) (shift : Nat) : Word := imm.setWidth 32 <<< shift

/-- An address without write-back. -/
def plainAddress (a : Word) : Address := { addr := a, wb := none }

/-- The registers of PUSH and POP as a sixteen-bit list: bit 8 of the encoding is R14 or R15. -/
def stackList (rBit : Bool) (registerList : BitVec 8) (link : Reg) : BitVec 16 :=
  registerList.setWidth 16 ||| (if rBit then 1#16 <<< link.toNat else 0)

/-- The end of LDMIA (R727): the base is written back unless it was loaded. -/
def finishLdmia (rn : BitVec 3) (wb : Word) (list : BitVec 16) (ws : List Word) (s : State) :
    Host.Outcome State Fault Refusal :=
  let s1 := if list.getLsbD rn.toNat then s else s.setReg (low rn) wb
  .next (s1.setList s.mode (listRegs list) ws).advance

/-- LSL(1) (`41_dsp_thumb` R671). -/
def execTLslImm (imm5 : BitVec 5) (rm rd : BitVec 3) (s : State) :
    Host.Outcome State Fault Refusal :=
  thumbShift s rd (shiftByImm (s.reg (low rm)) 0b00 imm5 s.flagC)

/-- LSR(1) (`41_dsp_thumb` R672). -/
def execTLsrImm (imm5 : BitVec 5) (rm rd : BitVec 3) (s : State) :
    Host.Outcome State Fault Refusal :=
  thumbShift s rd (shiftByImm (s.reg (low rm)) 0b01 imm5 s.flagC)

/-- ASR(1) (`41_dsp_thumb` R673). -/
def execTAsrImm (imm5 : BitVec 5) (rm rd : BitVec 3) (s : State) :
    Host.Outcome State Fault Refusal :=
  thumbShift s rd (shiftByImm (s.reg (low rm)) 0b10 imm5 s.flagC)

/-- ADD(3) (`41_dsp_thumb` R674). -/
def execTAddReg (rm rn rd : BitVec 3) (s : State) :
    Host.Outcome State Fault Refusal :=
  thumbSum s rd (addWithCarry (s.reg (low rn)) (s.reg (low rm)) false)

/-- SUB(3) (`41_dsp_thumb` R675). -/
def execTSubReg (rm rn rd : BitVec 3) (s : State) :
    Host.Outcome State Fault Refusal :=
  thumbSum s rd (addWithCarry (s.reg (low rn)) (~~~(s.reg (low rm))) true)

/-- ADD(1) (`41_dsp_thumb` R676). -/
def execTAddImm3 (imm3 rn rd : BitVec 3) (s : State) :
    Host.Outcome State Fault Refusal :=
  thumbSum s rd (addWithCarry (s.reg (low rn)) (scaled imm3 0) false)

/-- SUB(1) (`41_dsp_thumb` R677). -/
def execTSubImm3 (imm3 rn rd : BitVec 3) (s : State) :
    Host.Outcome State Fault Refusal :=
  thumbSum s rd (addWithCarry (s.reg (low rn)) (~~~(scaled imm3 0)) true)

/-- MOV(1) (`41_dsp_thumb` R678). -/
def execTMovImm (rd : BitVec 3) (imm8 : BitVec 8) (s : State) :
    Host.Outcome State Fault Refusal :=
  thumbLogic s rd (scaled imm8 0)

/-- CMP(1) (`41_dsp_thumb` R679). -/
def execTCmpImm (rn : BitVec 3) (imm8 : BitVec 8) (s : State) :
    Host.Outcome State Fault Refusal :=
  dpCompare s (addWithCarry (s.reg (low rn)) (~~~(scaled imm8 0)) true)

/-- ADD(2) (`41_dsp_thumb` R680). -/
def execTAddImm8 (rd : BitVec 3) (imm8 : BitVec 8) (s : State) :
    Host.Outcome State Fault Refusal :=
  thumbSum s rd (addWithCarry (s.reg (low rd)) (scaled imm8 0) false)

/-- SUB(2) (`41_dsp_thumb` R681). -/
def execTSubImm8 (rd : BitVec 3) (imm8 : BitVec 8) (s : State) :
    Host.Outcome State Fault Refusal :=
  thumbSum s rd (addWithCarry (s.reg (low rd)) (~~~(scaled imm8 0)) true)

/-- AND (`41_dsp_thumb` R682). -/
def execTAnd (rm rd : BitVec 3) (s : State) :
    Host.Outcome State Fault Refusal :=
  thumbLogic s rd (s.reg (low rd) &&& s.reg (low rm))

/-- EOR (`41_dsp_thumb` R683). -/
def execTEor (rm rd : BitVec 3) (s : State) :
    Host.Outcome State Fault Refusal :=
  thumbLogic s rd (s.reg (low rd) ^^^ s.reg (low rm))

/-- LSL(2) (`41_dsp_thumb` R684). -/
def execTLslReg (rs rd : BitVec 3) (s : State) :
    Host.Outcome State Fault Refusal :=
  thumbShift s rd (shiftByReg (s.reg (low rd)) 0b00 ((s.reg (low rs)).setWidth 8) s.flagC)

/-- LSR(2) (`41_dsp_thumb` R685). -/
def execTLsrReg (rs rd : BitVec 3) (s : State) :
    Host.Outcome State Fault Refusal :=
  thumbShift s rd (shiftByReg (s.reg (low rd)) 0b01 ((s.reg (low rs)).setWidth 8) s.flagC)

/-- ASR(2) (`41_dsp_thumb` R686). -/
def execTAsrReg (rs rd : BitVec 3) (s : State) :
    Host.Outcome State Fault Refusal :=
  thumbShift s rd (shiftByReg (s.reg (low rd)) 0b10 ((s.reg (low rs)).setWidth 8) s.flagC)

/-- ROR (`41_dsp_thumb` R689). -/
def execTRor (rs rd : BitVec 3) (s : State) :
    Host.Outcome State Fault Refusal :=
  thumbShift s rd (shiftByReg (s.reg (low rd)) 0b11 ((s.reg (low rs)).setWidth 8) s.flagC)

/-- ADC (`41_dsp_thumb` R687). -/
def execTAdc (rm rd : BitVec 3) (s : State) :
    Host.Outcome State Fault Refusal :=
  thumbSum s rd (addWithCarry (s.reg (low rd)) (s.reg (low rm)) s.flagC)

/-- SBC (`41_dsp_thumb` R688). -/
def execTSbc (rm rd : BitVec 3) (s : State) :
    Host.Outcome State Fault Refusal :=
  thumbSum s rd (addWithCarry (s.reg (low rd)) (~~~(s.reg (low rm))) s.flagC)

/-- TST (`41_dsp_thumb` R690). -/
def execTTst (rm rn : BitVec 3) (s : State) :
    Host.Outcome State Fault Refusal :=
  .next (s.setNZ (s.reg (low rn) &&& s.reg (low rm))).advance

/-- NEG (`41_dsp_thumb` R691). -/
def execTNeg (rm rd : BitVec 3) (s : State) :
    Host.Outcome State Fault Refusal :=
  thumbSum s rd (addWithCarry 0 (~~~(s.reg (low rm))) true)

/-- CMP(2) (`41_dsp_thumb` R692). -/
def execTCmpReg (rm rn : BitVec 3) (s : State) :
    Host.Outcome State Fault Refusal :=
  dpCompare s (addWithCarry (s.reg (low rn)) (~~~(s.reg (low rm))) true)

/-- CMN (`41_dsp_thumb` R693). -/
def execTCmn (rm rn : BitVec 3) (s : State) :
    Host.Outcome State Fault Refusal :=
  dpCompare s (addWithCarry (s.reg (low rn)) (s.reg (low rm)) false)

/-- ORR (`41_dsp_thumb` R694). -/
def execTOrr (rm rd : BitVec 3) (s : State) :
    Host.Outcome State Fault Refusal :=
  thumbLogic s rd (s.reg (low rd) ||| s.reg (low rm))

/-- MUL (`41_dsp_thumb` R695). -/
def execTMul (rm rd : BitVec 3) (s : State) :
    Host.Outcome State Fault Refusal :=
  thumbLogic s rd (s.reg (low rm) * s.reg (low rd))

/-- BIC (`41_dsp_thumb` R696). -/
def execTBic (rm rd : BitVec 3) (s : State) :
    Host.Outcome State Fault Refusal :=
  thumbLogic s rd (s.reg (low rd) &&& ~~~(s.reg (low rm)))

/-- MVN (`41_dsp_thumb` R697). -/
def execTMvn (rm rd : BitVec 3) (s : State) :
    Host.Outcome State Fault Refusal :=
  thumbLogic s rd (~~~(s.reg (low rm)))

/-- The end of ADD(4) and MOV(3): R15 is a branch that changes no state (R698, R700). -/
def thumbHigh (s : State) (d : Reg) (r : Word) : Host.Outcome State Fault Refusal :=
  if d = 15 then s.writePc r else .next (s.setReg d r).advance

/-- ADD(4) (`41_dsp_thumb` R698). -/
def execTAddHigh (h1 h2 : Bool) (rm rd : BitVec 3) (s : State) :
    Host.Outcome State Fault Refusal :=
  orRefuse (h1 || h2) .registerOverlap <|
  thumbHigh s (high h1 rd) (s.reg (high h1 rd) + s.reg (high h2 rm))

/-- CMP(3) (`41_dsp_thumb` R699). -/
def execTCmpHigh (h1 h2 : Bool) (rm rn : BitVec 3) (s : State) :
    Host.Outcome State Fault Refusal :=
  orRefuse (h1 || h2) .registerOverlap <|
  orRefuse (high h1 rn != 15) .pcOperand <|
  dpCompare s (addWithCarry (s.reg (high h1 rn)) (~~~(s.reg (high h2 rm))) true)

/-- MOV(3) (`41_dsp_thumb` R700). -/
def execTMovHigh (h1 h2 : Bool) (rm rd : BitVec 3) (s : State) :
    Host.Outcome State Fault Refusal :=
  thumbHigh s (high h1 rd) (s.reg (high h2 rm))

/-- BX (`41_dsp_thumb` R701). -/
def execTBx (h2 : Bool) (rm sb : BitVec 3) (s : State) :
    Host.Outcome State Fault Refusal :=
  let s := s.noteBranch
  orRefuse (sb == 0) .shouldBeBits <|
  s.interwork (s.reg (high h2 rm))

/-- BLX(2) (`41_dsp_thumb` R702). -/
def execTBlxReg (h2 : Bool) (rm sb : BitVec 3) (s : State) :
    Host.Outcome State Fault Refusal :=
  let s := s.noteBranch
  orRefuse (sb == 0) .shouldBeBits <|
  orRefuse (high h2 rm != 15) .pcOperand <|
  (s.setReg 14 ((s.pc + 2) ||| 1)).interwork (s.reg (high h2 rm))

/-- LDR(3) (`41_dsp_thumb` R703). -/
def execTLdrPc (rd : BitVec 3) (imm8 : BitVec 8) (s : State) :
    Host.Outcome State Fault Refusal :=
  loadWordTo false (low rd) 0 (plainAddress (s.pcBase + scaled imm8 2)) s

/-- STR(2) (`41_dsp_thumb` R704). -/
def execTStrReg (rm rn rd : BitVec 3) (s : State) :
    Host.Outcome State Fault Refusal :=
  storeWordFrom false (low rd) 0 (plainAddress (s.reg (low rn) + s.reg (low rm))) s

/-- STRH(2) (`41_dsp_thumb` R705). -/
def execTStrhReg (rm rn rd : BitVec 3) (s : State) :
    Host.Outcome State Fault Refusal :=
  storeHalfFrom (low rd) 0 (plainAddress (s.reg (low rn) + s.reg (low rm))) s

/-- STRB(2) (`41_dsp_thumb` R706). -/
def execTStrbReg (rm rn rd : BitVec 3) (s : State) :
    Host.Outcome State Fault Refusal :=
  storeByteFrom false (low rd) 0 (plainAddress (s.reg (low rn) + s.reg (low rm))) s

/-- LDRSB (`41_dsp_thumb` R707). -/
def execTLdrsbReg (rm rn rd : BitVec 3) (s : State) :
    Host.Outcome State Fault Refusal :=
  loadSignedByteTo (low rd) 0 (plainAddress (s.reg (low rn) + s.reg (low rm))) s

/-- LDR(2) (`41_dsp_thumb` R708). -/
def execTLdrReg (rm rn rd : BitVec 3) (s : State) :
    Host.Outcome State Fault Refusal :=
  loadWordTo false (low rd) 0 (plainAddress (s.reg (low rn) + s.reg (low rm))) s

/-- LDRH(2) (`41_dsp_thumb` R709). -/
def execTLdrhReg (rm rn rd : BitVec 3) (s : State) :
    Host.Outcome State Fault Refusal :=
  loadHalfTo (low rd) 0 (plainAddress (s.reg (low rn) + s.reg (low rm))) s

/-- LDRB(2) (`41_dsp_thumb` R710). -/
def execTLdrbReg (rm rn rd : BitVec 3) (s : State) :
    Host.Outcome State Fault Refusal :=
  loadByteTo false (low rd) 0 (plainAddress (s.reg (low rn) + s.reg (low rm))) s

/-- LDRSH (`41_dsp_thumb` R711). -/
def execTLdrshReg (rm rn rd : BitVec 3) (s : State) :
    Host.Outcome State Fault Refusal :=
  loadSignedHalfTo (low rd) 0 (plainAddress (s.reg (low rn) + s.reg (low rm))) s

/-- STR(1) (`41_dsp_thumb` R712). -/
def execTStrImm (imm5 : BitVec 5) (rn rd : BitVec 3) (s : State) :
    Host.Outcome State Fault Refusal :=
  storeWordFrom false (low rd) 0 (plainAddress (s.reg (low rn) + scaled imm5 2)) s

/-- LDR(1) (`41_dsp_thumb` R713). -/
def execTLdrImm (imm5 : BitVec 5) (rn rd : BitVec 3) (s : State) :
    Host.Outcome State Fault Refusal :=
  loadWordTo false (low rd) 0 (plainAddress (s.reg (low rn) + scaled imm5 2)) s

/-- STRB(1) (`41_dsp_thumb` R714). -/
def execTStrbImm (imm5 : BitVec 5) (rn rd : BitVec 3) (s : State) :
    Host.Outcome State Fault Refusal :=
  storeByteFrom false (low rd) 0 (plainAddress (s.reg (low rn) + scaled imm5 0)) s

/-- LDRB(1) (`41_dsp_thumb` R715). -/
def execTLdrbImm (imm5 : BitVec 5) (rn rd : BitVec 3) (s : State) :
    Host.Outcome State Fault Refusal :=
  loadByteTo false (low rd) 0 (plainAddress (s.reg (low rn) + scaled imm5 0)) s

/-- STRH(1) (`41_dsp_thumb` R716). -/
def execTStrhImm (imm5 : BitVec 5) (rn rd : BitVec 3) (s : State) :
    Host.Outcome State Fault Refusal :=
  storeHalfFrom (low rd) 0 (plainAddress (s.reg (low rn) + scaled imm5 1)) s

/-- LDRH(1) (`41_dsp_thumb` R717). -/
def execTLdrhImm (imm5 : BitVec 5) (rn rd : BitVec 3) (s : State) :
    Host.Outcome State Fault Refusal :=
  loadHalfTo (low rd) 0 (plainAddress (s.reg (low rn) + scaled imm5 1)) s

/-- STR(3) (`41_dsp_thumb` R718). -/
def execTStrSp (rd : BitVec 3) (imm8 : BitVec 8) (s : State) :
    Host.Outcome State Fault Refusal :=
  storeWordFrom false (low rd) 0 (plainAddress (s.reg 13 + scaled imm8 2)) s

/-- LDR(4) (`41_dsp_thumb` R719). -/
def execTLdrSp (rd : BitVec 3) (imm8 : BitVec 8) (s : State) :
    Host.Outcome State Fault Refusal :=
  loadWordTo false (low rd) 0 (plainAddress (s.reg 13 + scaled imm8 2)) s

/-- ADD(5) (`41_dsp_thumb` R720). -/
def execTAddPcImm (rd : BitVec 3) (imm8 : BitVec 8) (s : State) :
    Host.Outcome State Fault Refusal :=
  .next (s.setReg (low rd) (s.pcBase + scaled imm8 2)).advance

/-- ADD(6) (`41_dsp_thumb` R721). -/
def execTAddSpImm (rd : BitVec 3) (imm8 : BitVec 8) (s : State) :
    Host.Outcome State Fault Refusal :=
  .next (s.setReg (low rd) (s.reg 13 + scaled imm8 2)).advance

/-- ADD(7) (`41_dsp_thumb` R722). -/
def execTIncSp (imm7 : BitVec 7) (s : State) :
    Host.Outcome State Fault Refusal :=
  .next (s.setReg 13 (s.reg 13 + scaled imm7 2)).advance

/-- SUB(4) (`41_dsp_thumb` R723). -/
def execTDecSp (imm7 : BitVec 7) (s : State) :
    Host.Outcome State Fault Refusal :=
  .next (s.setReg 13 (s.reg 13 - scaled imm7 2)).advance

/-- PUSH (`41_dsp_thumb` R724). -/
def execTPush (rBit : Bool) (registerList : BitVec 8) (s : State) :
    Host.Outcome State Fault Refusal :=
  let list := stackList rBit registerList 14
  orRefuse (list != 0) .emptyRegisterList <|
  storeMultipleFrom true false true 13 list s

/-- POP (`41_dsp_thumb` R725). -/
def execTPop (rBit : Bool) (registerList : BitVec 8) (s : State) :
    Host.Outcome State Fault Refusal :=
  let list := stackList rBit registerList 15
  orRefuse (list != 0) .emptyRegisterList <|
  loadMultipleTo false true true 13 list s

/-- STMIA (`41_dsp_thumb` R726). -/
def execTStmia (rn : BitVec 3) (registerList : BitVec 8) (s : State) :
    Host.Outcome State Fault Refusal :=
  let list := registerList.setWidth 16
  if list = 0 then .next s.advance
  else storeMultipleFrom false true true (low rn) list s

/-- LDMIA (`41_dsp_thumb` R727). -/
def execTLdmia (rn : BitVec 3) (registerList : BitVec 8) (s : State) :
    Host.Outcome State Fault Refusal :=
  let list := registerList.setWidth 16
  orRefuse (list != 0) .emptyRegisterList <|
  withValue false (loadMultiple s.mode (physIndex s.mode (low rn)) (s.reg (low rn)) list) s
    (finishLdmia rn (s.reg (low rn) + BitVec.ofNat 32 (4 * listCount 16 list)) list)

/-- B(1) (`41_dsp_thumb` R728). -/
def execTBCond (cond : Cond) (simm8 : BitVec 8) (s : State) :
    Host.Outcome State Fault Refusal :=
  let target := s.pcRead + (simm8.signExtend 32 <<< 1)
  let s := s.noteB
  whenCond cond s <| .next (s.branchDirect target)

/-- B(2) (`41_dsp_thumb` R729). -/
def execTB (simm11 : BitVec 11) (s : State) :
    Host.Outcome State Fault Refusal :=
  let target := s.pcRead + (simm11.signExtend 32 <<< 1)
  .next (s.noteB.branchDirect target)

/-- BL___BLX_1__prefix (`41_dsp_thumb` R730). -/
def execTBlPrefix (offset11 : BitVec 11) (s : State) :
    Host.Outcome State Fault Refusal :=
  .next (s.noteHalf.setReg 14 (s.pcRead + (offset11.signExtend 32 <<< 12))).advance

/-- BL_suffix (`41_dsp_thumb` R730). -/
def execTBlSuffix (offset11 : BitVec 11) (s : State) :
    Host.Outcome State Fault Refusal :=
  let target := (s.reg 14 + scaled offset11 1) &&& ~~~1
  .next ((s.noteB.setReg 14 ((s.pc + 2) ||| 1)).branchDirect target)

/-- BLX_1__suffix (`41_dsp_thumb` R730). -/
def execTBlxSuffix (offset11Hi : BitVec 10) (s : State) :
    Host.Outcome State Fault Refusal :=
  let target := (s.reg 14 + scaled offset11Hi 2) &&& ~~~3
  .next ((((s.noteBranch).setReg 14 ((s.pc + 2) ||| 1)).setThumb false).branchIndirect target)

end Sys2Proof.Machine
end

