-- ==== Sys2Proof/Machine/Dispatch.lean ====
section
/-!
DEFINITION. One arm per instruction.
-/
namespace Sys2Proof.Machine

def exec (i : Instr) (s : State) : Host.Outcome State Fault Refusal :=
  match i with
  | .pldImm uBit rn offset12 => Sys2Proof.Machine.execPldImm uBit rn offset12 s
  | .pldReg uBit rn shiftImm shift rm => Sys2Proof.Machine.execPldReg uBit rn shiftImm shift rm s
  | .blxImm hBit signedImmed24 => Sys2Proof.Machine.execBlxImm hBit signedImmed24 s
  | .ldc2 pBit uBit nBit wBit rn crd cpNum offset8 => Sys2Proof.Machine.execLdc2 pBit uBit nBit wBit rn crd cpNum offset8 s
  | .stc2 pBit uBit nBit wBit rn crd cpNum offset8 => Sys2Proof.Machine.execStc2 pBit uBit nBit wBit rn crd cpNum offset8 s
  | .cdp2 opcode1 crn crd cpNum opcode2 crm => Sys2Proof.Machine.execCdp2 opcode1 crn crd cpNum opcode2 crm s
  | .mcr2 opcode1 crn rd cpNum opcode2 crm => Sys2Proof.Machine.execMcr2 opcode1 crn rd cpNum opcode2 crm s
  | .mrc2 opcode1 crn rd cpNum opcode2 crm => Sys2Proof.Machine.execMrc2 opcode1 crn rd cpNum opcode2 crm s
  | .undefUncond raw => Sys2Proof.Machine.execUndefUncond raw s
  | .mul cond sBit rd sb rs rm => Sys2Proof.Machine.execMul cond sBit rd sb rs rm s
  | .mla cond sBit rd rn rs rm => Sys2Proof.Machine.execMla cond sBit rd rn rs rm s
  | .umull cond sBit rdHi rdLo rs rm => Sys2Proof.Machine.execUmull cond sBit rdHi rdLo rs rm s
  | .umlal cond sBit rdHi rdLo rs rm => Sys2Proof.Machine.execUmlal cond sBit rdHi rdLo rs rm s
  | .smull cond sBit rdHi rdLo rs rm => Sys2Proof.Machine.execSmull cond sBit rdHi rdLo rs rm s
  | .smlal cond sBit rdHi rdLo rs rm => Sys2Proof.Machine.execSmlal cond sBit rdHi rdLo rs rm s
  | .swp cond rn rd sb rm => Sys2Proof.Machine.execSwp cond rn rd sb rm s
  | .swpb cond rn rd sb rm => Sys2Proof.Machine.execSwpb cond rn rd sb rm s
  | .undefExt cond raw1 raw2 => Sys2Proof.Machine.execUndefExt cond raw1 raw2 s
  | .strh cond pBit uBit iBit wBit rn rd addrHi addrLo => Sys2Proof.Machine.execStrh cond pBit uBit iBit wBit rn rd addrHi addrLo s
  | .ldrd cond pBit uBit iBit wBit rn rd addrHi addrLo => Sys2Proof.Machine.execLdrd cond pBit uBit iBit wBit rn rd addrHi addrLo s
  | .strd cond pBit uBit iBit wBit rn rd addrHi addrLo => Sys2Proof.Machine.execStrd cond pBit uBit iBit wBit rn rd addrHi addrLo s
  | .ldrh cond pBit uBit iBit wBit rn rd addrHi addrLo => Sys2Proof.Machine.execLdrh cond pBit uBit iBit wBit rn rd addrHi addrLo s
  | .ldrsb cond pBit uBit iBit wBit rn rd addrHi addrLo => Sys2Proof.Machine.execLdrsb cond pBit uBit iBit wBit rn rd addrHi addrLo s
  | .ldrsh cond pBit uBit iBit wBit rn rd addrHi addrLo => Sys2Proof.Machine.execLdrsh cond pBit uBit iBit wBit rn rd addrHi addrLo s
  | .mrs cond rBit sb1 rd sb2 sb3 => Sys2Proof.Machine.execMrs cond rBit sb1 rd sb2 sb3 s
  | .msrReg cond rBit fieldMask sb rm => Sys2Proof.Machine.execMsrReg cond rBit fieldMask sb rm s
  | .bx cond sb rm => Sys2Proof.Machine.execBx cond sb rm s
  | .blxReg cond sb rm => Sys2Proof.Machine.execBlxReg cond sb rm s
  | .clz cond sb1 rd sb2 rm => Sys2Proof.Machine.execClz cond sb1 rd sb2 rm s
  | .qadd cond rn rd sb rm => Sys2Proof.Machine.execQadd cond rn rd sb rm s
  | .qsub cond rn rd sb rm => Sys2Proof.Machine.execQsub cond rn rd sb rm s
  | .qdadd cond rn rd sb rm => Sys2Proof.Machine.execQdadd cond rn rd sb rm s
  | .qdsub cond rn rd sb rm => Sys2Proof.Machine.execQdsub cond rn rd sb rm s
  | .bkpt cond immedHi immedLo => Sys2Proof.Machine.execBkpt cond immedHi immedLo s
  | .smlaXY cond rd rn rs yBit xBit rm => Sys2Proof.Machine.execSmlaXY cond rd rn rs yBit xBit rm s
  | .smlawY cond rd rn rs yBit rm => Sys2Proof.Machine.execSmlawY cond rd rn rs yBit rm s
  | .smulwY cond rd sb rs yBit rm => Sys2Proof.Machine.execSmulwY cond rd sb rs yBit rm s
  | .smlalXY cond rdHi rdLo rs yBit xBit rm => Sys2Proof.Machine.execSmlalXY cond rdHi rdLo rs yBit xBit rm s
  | .smulXY cond rd sb rs yBit xBit rm => Sys2Proof.Machine.execSmulXY cond rd sb rs yBit xBit rm s
  | .undefMisc cond raw1 raw2 => Sys2Proof.Machine.execUndefMisc cond raw1 raw2 s
  | .andShImm cond sBit rn rd shiftImm shift rm => Sys2Proof.Machine.execAndShImm cond sBit rn rd shiftImm shift rm s
  | .eorShImm cond sBit rn rd shiftImm shift rm => Sys2Proof.Machine.execEorShImm cond sBit rn rd shiftImm shift rm s
  | .subShImm cond sBit rn rd shiftImm shift rm => Sys2Proof.Machine.execSubShImm cond sBit rn rd shiftImm shift rm s
  | .rsbShImm cond sBit rn rd shiftImm shift rm => Sys2Proof.Machine.execRsbShImm cond sBit rn rd shiftImm shift rm s
  | .addShImm cond sBit rn rd shiftImm shift rm => Sys2Proof.Machine.execAddShImm cond sBit rn rd shiftImm shift rm s
  | .adcShImm cond sBit rn rd shiftImm shift rm => Sys2Proof.Machine.execAdcShImm cond sBit rn rd shiftImm shift rm s
  | .sbcShImm cond sBit rn rd shiftImm shift rm => Sys2Proof.Machine.execSbcShImm cond sBit rn rd shiftImm shift rm s
  | .rscShImm cond sBit rn rd shiftImm shift rm => Sys2Proof.Machine.execRscShImm cond sBit rn rd shiftImm shift rm s
  | .tstShImm cond rn sb shiftImm shift rm => Sys2Proof.Machine.execTstShImm cond rn sb shiftImm shift rm s
  | .teqShImm cond rn sb shiftImm shift rm => Sys2Proof.Machine.execTeqShImm cond rn sb shiftImm shift rm s
  | .cmpShImm cond rn sb shiftImm shift rm => Sys2Proof.Machine.execCmpShImm cond rn sb shiftImm shift rm s
  | .cmnShImm cond rn sb shiftImm shift rm => Sys2Proof.Machine.execCmnShImm cond rn sb shiftImm shift rm s
  | .orrShImm cond sBit rn rd shiftImm shift rm => Sys2Proof.Machine.execOrrShImm cond sBit rn rd shiftImm shift rm s
  | .movShImm cond sBit sb rd shiftImm shift rm => Sys2Proof.Machine.execMovShImm cond sBit sb rd shiftImm shift rm s
  | .bicShImm cond sBit rn rd shiftImm shift rm => Sys2Proof.Machine.execBicShImm cond sBit rn rd shiftImm shift rm s
  | .mvnShImm cond sBit sb rd shiftImm shift rm => Sys2Proof.Machine.execMvnShImm cond sBit sb rd shiftImm shift rm s
  | .andShReg cond sBit rn rd rs shift rm => Sys2Proof.Machine.execAndShReg cond sBit rn rd rs shift rm s
  | .eorShReg cond sBit rn rd rs shift rm => Sys2Proof.Machine.execEorShReg cond sBit rn rd rs shift rm s
  | .subShReg cond sBit rn rd rs shift rm => Sys2Proof.Machine.execSubShReg cond sBit rn rd rs shift rm s
  | .rsbShReg cond sBit rn rd rs shift rm => Sys2Proof.Machine.execRsbShReg cond sBit rn rd rs shift rm s
  | .addShReg cond sBit rn rd rs shift rm => Sys2Proof.Machine.execAddShReg cond sBit rn rd rs shift rm s
  | .adcShReg cond sBit rn rd rs shift rm => Sys2Proof.Machine.execAdcShReg cond sBit rn rd rs shift rm s
  | .sbcShReg cond sBit rn rd rs shift rm => Sys2Proof.Machine.execSbcShReg cond sBit rn rd rs shift rm s
  | .rscShReg cond sBit rn rd rs shift rm => Sys2Proof.Machine.execRscShReg cond sBit rn rd rs shift rm s
  | .tstShReg cond rn sb rs shift rm => Sys2Proof.Machine.execTstShReg cond rn sb rs shift rm s
  | .teqShReg cond rn sb rs shift rm => Sys2Proof.Machine.execTeqShReg cond rn sb rs shift rm s
  | .cmpShReg cond rn sb rs shift rm => Sys2Proof.Machine.execCmpShReg cond rn sb rs shift rm s
  | .cmnShReg cond rn sb rs shift rm => Sys2Proof.Machine.execCmnShReg cond rn sb rs shift rm s
  | .orrShReg cond sBit rn rd rs shift rm => Sys2Proof.Machine.execOrrShReg cond sBit rn rd rs shift rm s
  | .movShReg cond sBit sb rd rs shift rm => Sys2Proof.Machine.execMovShReg cond sBit sb rd rs shift rm s
  | .bicShReg cond sBit rn rd rs shift rm => Sys2Proof.Machine.execBicShReg cond sBit rn rd rs shift rm s
  | .mvnShReg cond sBit sb rd rs shift rm => Sys2Proof.Machine.execMvnShReg cond sBit sb rd rs shift rm s
  | .msrImm cond rBit fieldMask sb rotateImm immed8 => Sys2Proof.Machine.execMsrImm cond rBit fieldMask sb rotateImm immed8 s
  | .undefImm cond raw1 raw2 => Sys2Proof.Machine.execUndefImm cond raw1 raw2 s
  | .andImm cond sBit rn rd rotateImm immed8 => Sys2Proof.Machine.execAndImm cond sBit rn rd rotateImm immed8 s
  | .eorImm cond sBit rn rd rotateImm immed8 => Sys2Proof.Machine.execEorImm cond sBit rn rd rotateImm immed8 s
  | .subImm cond sBit rn rd rotateImm immed8 => Sys2Proof.Machine.execSubImm cond sBit rn rd rotateImm immed8 s
  | .rsbImm cond sBit rn rd rotateImm immed8 => Sys2Proof.Machine.execRsbImm cond sBit rn rd rotateImm immed8 s
  | .addImm cond sBit rn rd rotateImm immed8 => Sys2Proof.Machine.execAddImm cond sBit rn rd rotateImm immed8 s
  | .adcImm cond sBit rn rd rotateImm immed8 => Sys2Proof.Machine.execAdcImm cond sBit rn rd rotateImm immed8 s
  | .sbcImm cond sBit rn rd rotateImm immed8 => Sys2Proof.Machine.execSbcImm cond sBit rn rd rotateImm immed8 s
  | .rscImm cond sBit rn rd rotateImm immed8 => Sys2Proof.Machine.execRscImm cond sBit rn rd rotateImm immed8 s
  | .tstImm cond rn sb rotateImm immed8 => Sys2Proof.Machine.execTstImm cond rn sb rotateImm immed8 s
  | .teqImm cond rn sb rotateImm immed8 => Sys2Proof.Machine.execTeqImm cond rn sb rotateImm immed8 s
  | .cmpImm cond rn sb rotateImm immed8 => Sys2Proof.Machine.execCmpImm cond rn sb rotateImm immed8 s
  | .cmnImm cond rn sb rotateImm immed8 => Sys2Proof.Machine.execCmnImm cond rn sb rotateImm immed8 s
  | .orrImm cond sBit rn rd rotateImm immed8 => Sys2Proof.Machine.execOrrImm cond sBit rn rd rotateImm immed8 s
  | .movImm cond sBit sb rd rotateImm immed8 => Sys2Proof.Machine.execMovImm cond sBit sb rd rotateImm immed8 s
  | .bicImm cond sBit rn rd rotateImm immed8 => Sys2Proof.Machine.execBicImm cond sBit rn rd rotateImm immed8 s
  | .mvnImm cond sBit sb rd rotateImm immed8 => Sys2Proof.Machine.execMvnImm cond sBit sb rd rotateImm immed8 s
  | .ldrtImm cond uBit rn rd offset12 => Sys2Proof.Machine.execLdrtImm cond uBit rn rd offset12 s
  | .ldrbtImm cond uBit rn rd offset12 => Sys2Proof.Machine.execLdrbtImm cond uBit rn rd offset12 s
  | .strtImm cond uBit rn rd offset12 => Sys2Proof.Machine.execStrtImm cond uBit rn rd offset12 s
  | .strbtImm cond uBit rn rd offset12 => Sys2Proof.Machine.execStrbtImm cond uBit rn rd offset12 s
  | .ldrImm cond pBit uBit wBit rn rd offset12 => Sys2Proof.Machine.execLdrImm cond pBit uBit wBit rn rd offset12 s
  | .ldrbImm cond pBit uBit wBit rn rd offset12 => Sys2Proof.Machine.execLdrbImm cond pBit uBit wBit rn rd offset12 s
  | .strImm cond pBit uBit wBit rn rd offset12 => Sys2Proof.Machine.execStrImm cond pBit uBit wBit rn rd offset12 s
  | .strbImm cond pBit uBit wBit rn rd offset12 => Sys2Proof.Machine.execStrbImm cond pBit uBit wBit rn rd offset12 s
  | .ldrtReg cond uBit rn rd shiftImm shift rm => Sys2Proof.Machine.execLdrtReg cond uBit rn rd shiftImm shift rm s
  | .ldrbtReg cond uBit rn rd shiftImm shift rm => Sys2Proof.Machine.execLdrbtReg cond uBit rn rd shiftImm shift rm s
  | .strtReg cond uBit rn rd shiftImm shift rm => Sys2Proof.Machine.execStrtReg cond uBit rn rd shiftImm shift rm s
  | .strbtReg cond uBit rn rd shiftImm shift rm => Sys2Proof.Machine.execStrbtReg cond uBit rn rd shiftImm shift rm s
  | .ldrReg cond pBit uBit wBit rn rd shiftImm shift rm => Sys2Proof.Machine.execLdrReg cond pBit uBit wBit rn rd shiftImm shift rm s
  | .ldrbReg cond pBit uBit wBit rn rd shiftImm shift rm => Sys2Proof.Machine.execLdrbReg cond pBit uBit wBit rn rd shiftImm shift rm s
  | .strReg cond pBit uBit wBit rn rd shiftImm shift rm => Sys2Proof.Machine.execStrReg cond pBit uBit wBit rn rd shiftImm shift rm s
  | .strbReg cond pBit uBit wBit rn rd shiftImm shift rm => Sys2Proof.Machine.execStrbReg cond pBit uBit wBit rn rd shiftImm shift rm s
  | .undefMedia cond raw1 raw2 => Sys2Proof.Machine.execUndefMedia cond raw1 raw2 s
  | .ldm cond pBit uBit wBit rn registerList => Sys2Proof.Machine.execLdm cond pBit uBit wBit rn registerList s
  | .ldmUser cond pBit uBit sb rn registerList => Sys2Proof.Machine.execLdmUser cond pBit uBit sb rn registerList s
  | .ldmReturn cond pBit uBit wBit rn registerList => Sys2Proof.Machine.execLdmReturn cond pBit uBit wBit rn registerList s
  | .stm cond pBit uBit wBit rn registerList => Sys2Proof.Machine.execStm cond pBit uBit wBit rn registerList s
  | .stmUser cond pBit uBit sb rn registerList => Sys2Proof.Machine.execStmUser cond pBit uBit sb rn registerList s
  | .b cond signedImmed24 => Sys2Proof.Machine.execB cond signedImmed24 s
  | .bl cond signedImmed24 => Sys2Proof.Machine.execBl cond signedImmed24 s
  | .mar cond rdHi rdLo sb acc => Sys2Proof.Machine.execMar cond rdHi rdLo sb acc s
  | .mra cond rdHi rdLo sb acc => Sys2Proof.Machine.execMra cond rdHi rdLo sb acc s
  | .mcrr cond rn rd cpNum opcode crm => Sys2Proof.Machine.execMcrr cond rn rd cpNum opcode crm s
  | .mrrc cond rn rd cpNum opcode crm => Sys2Proof.Machine.execMrrc cond rn rd cpNum opcode crm s
  | .ldcP14 cond pBit uBit nBit wBit rn crd offset8 => Sys2Proof.Machine.execLdcP14 cond pBit uBit nBit wBit rn crd offset8 s
  | .stcP14 cond pBit uBit nBit wBit rn crd offset8 => Sys2Proof.Machine.execStcP14 cond pBit uBit nBit wBit rn crd offset8 s
  | .ldc cond pBit uBit nBit wBit rn crd cpNum offset8 => Sys2Proof.Machine.execLdc cond pBit uBit nBit wBit rn crd cpNum offset8 s
  | .stc cond pBit uBit nBit wBit rn crd cpNum offset8 => Sys2Proof.Machine.execStc cond pBit uBit nBit wBit rn crd cpNum offset8 s
  | .cdp cond opcode1 crn crd cpNum opcode2 crm => Sys2Proof.Machine.execCdp cond opcode1 crn crd cpNum opcode2 crm s
  | .mia cond rs acc rm => Sys2Proof.Machine.execMia cond rs acc rm s
  | .miaph cond rs acc rm => Sys2Proof.Machine.execMiaph cond rs acc rm s
  | .miabb cond rs acc rm => Sys2Proof.Machine.execMiabb cond rs acc rm s
  | .miabt cond rs acc rm => Sys2Proof.Machine.execMiabt cond rs acc rm s
  | .miatb cond rs acc rm => Sys2Proof.Machine.execMiatb cond rs acc rm s
  | .miatt cond rs acc rm => Sys2Proof.Machine.execMiatt cond rs acc rm s
  | .mcrInvICacheBtb cond rd => Sys2Proof.Machine.execMcrInvICacheBtb cond rd s
  | .mcrInvICacheLine cond rd => Sys2Proof.Machine.execMcrInvICacheLine cond rd s
  | .mcrInvBtb cond rd => Sys2Proof.Machine.execMcrInvBtb cond rd s
  | .mcrInvDCache cond rd => Sys2Proof.Machine.execMcrInvDCache cond rd s
  | .mcrInvDCacheLine cond rd => Sys2Proof.Machine.execMcrInvDCacheLine cond rd s
  | .mcrInvCachesBtb cond rd => Sys2Proof.Machine.execMcrInvCachesBtb cond rd s
  | .mcrCleanDLineMva cond rd => Sys2Proof.Machine.execMcrCleanDLineMva cond rd s
  | .mcrCleanDLineSetWay cond rd => Sys2Proof.Machine.execMcrCleanDLineSetWay cond rd s
  | .mcrCleanInvDLineMva cond rd => Sys2Proof.Machine.execMcrCleanInvDLineMva cond rd s
  | .mcrCleanInvDLineSetWay cond rd => Sys2Proof.Machine.execMcrCleanInvDLineSetWay cond rd s
  | .mcrInvL2Line cond rd => Sys2Proof.Machine.execMcrInvL2Line cond rd s
  | .mcrCleanL2LineMva cond rd => Sys2Proof.Machine.execMcrCleanL2LineMva cond rd s
  | .mcrCleanL2LineSetWay cond rd => Sys2Proof.Machine.execMcrCleanL2LineSetWay cond rd s
  | .mcrCleanInvL2LineSetWay cond rd => Sys2Proof.Machine.execMcrCleanInvL2LineSetWay cond rd s
  | .mcrPrefetchFlush cond rd => Sys2Proof.Machine.execMcrPrefetchFlush cond rd s
  | .mcrDataWriteBarrier cond rd => Sys2Proof.Machine.execMcrDataWriteBarrier cond rd s
  | .mcrDataMemoryBarrier cond rd => Sys2Proof.Machine.execMcrDataMemoryBarrier cond rd s
  | .mcrDLineAllocate cond rd => Sys2Proof.Machine.execMcrDLineAllocate cond rd s
  | .mcrInvTlbs cond rd => Sys2Proof.Machine.execMcrInvTlbs cond rd s
  | .mcrInvITlb cond rd => Sys2Proof.Machine.execMcrInvITlb cond rd s
  | .mcrInvITlbEntry cond rd => Sys2Proof.Machine.execMcrInvITlbEntry cond rd s
  | .mcrInvDTlb cond rd => Sys2Proof.Machine.execMcrInvDTlb cond rd s
  | .mcrInvDTlbEntry cond rd => Sys2Proof.Machine.execMcrInvDTlbEntry cond rd s
  | .mcrLockILine cond rd => Sys2Proof.Machine.execMcrLockILine cond rd s
  | .mcrLockL2Line cond rd => Sys2Proof.Machine.execMcrLockL2Line cond rd s
  | .mcrUnlockICache cond rd => Sys2Proof.Machine.execMcrUnlockICache cond rd s
  | .mcrUnlockL2 cond rd => Sys2Proof.Machine.execMcrUnlockL2 cond rd s
  | .mcrAllocLockL2Line cond rd => Sys2Proof.Machine.execMcrAllocLockL2Line cond rd s
  | .mrcDLock cond rd => Sys2Proof.Machine.execMrcDLock cond rd s
  | .mcrDLock cond rd => Sys2Proof.Machine.execMcrDLock cond rd s
  | .mcrUnlockDCache cond rd => Sys2Proof.Machine.execMcrUnlockDCache cond rd s
  | .mcrLockILineLegacy cond rd => Sys2Proof.Machine.execMcrLockILineLegacy cond rd s
  | .mcrUnlockICacheLegacy cond rd => Sys2Proof.Machine.execMcrUnlockICacheLegacy cond rd s
  | .mrcDLockLegacy cond rd => Sys2Proof.Machine.execMrcDLockLegacy cond rd s
  | .mcrDLockLegacy cond rd => Sys2Proof.Machine.execMcrDLockLegacy cond rd s
  | .mcrUnlockDCacheLegacy cond rd => Sys2Proof.Machine.execMcrUnlockDCacheLegacy cond rd s
  | .mcrLockITlbEntry cond rd => Sys2Proof.Machine.execMcrLockITlbEntry cond rd s
  | .mcrUnlockITlb cond rd => Sys2Proof.Machine.execMcrUnlockITlb cond rd s
  | .mcrLockDTlbEntry cond rd => Sys2Proof.Machine.execMcrLockDTlbEntry cond rd s
  | .mcrUnlockDTlb cond rd => Sys2Proof.Machine.execMcrUnlockDTlb cond rd s
  | .mrcMainId cond rd => Sys2Proof.Machine.execMrcMainId cond rd s
  | .mcrMainId cond rd => Sys2Proof.Machine.execMcrMainId cond rd s
  | .mrcCacheType cond rd => Sys2Proof.Machine.execMrcCacheType cond rd s
  | .mcrCacheType cond rd => Sys2Proof.Machine.execMcrCacheType cond rd s
  | .mrcL2SystemId cond rd => Sys2Proof.Machine.execMrcL2SystemId cond rd s
  | .mcrL2SystemId cond rd => Sys2Proof.Machine.execMcrL2SystemId cond rd s
  | .mrcL2CacheType cond rd => Sys2Proof.Machine.execMrcL2CacheType cond rd s
  | .mcrL2CacheType cond rd => Sys2Proof.Machine.execMcrL2CacheType cond rd s
  | .mrcControl cond rd => Sys2Proof.Machine.execMrcControl cond rd s
  | .mcrControl cond rd => Sys2Proof.Machine.execMcrControl cond rd s
  | .mrcAuxControl cond rd => Sys2Proof.Machine.execMrcAuxControl cond rd s
  | .mcrAuxControl cond rd => Sys2Proof.Machine.execMcrAuxControl cond rd s
  | .mrcTtBase cond rd => Sys2Proof.Machine.execMrcTtBase cond rd s
  | .mcrTtBase cond rd => Sys2Proof.Machine.execMcrTtBase cond rd s
  | .mrcDacr cond rd => Sys2Proof.Machine.execMrcDacr cond rd s
  | .mcrDacr cond rd => Sys2Proof.Machine.execMcrDacr cond rd s
  | .mrcFsr cond rd => Sys2Proof.Machine.execMrcFsr cond rd s
  | .mcrFsr cond rd => Sys2Proof.Machine.execMcrFsr cond rd s
  | .mrcFar cond rd => Sys2Proof.Machine.execMrcFar cond rd s
  | .mcrFar cond rd => Sys2Proof.Machine.execMcrFar cond rd s
  | .mrcProcessId cond rd => Sys2Proof.Machine.execMrcProcessId cond rd s
  | .mcrProcessId cond rd => Sys2Proof.Machine.execMcrProcessId cond rd s
  | .mrcIbr0 cond rd => Sys2Proof.Machine.execMrcIbr0 cond rd s
  | .mcrIbr0 cond rd => Sys2Proof.Machine.execMcrIbr0 cond rd s
  | .mrcIbr1 cond rd => Sys2Proof.Machine.execMrcIbr1 cond rd s
  | .mcrIbr1 cond rd => Sys2Proof.Machine.execMcrIbr1 cond rd s
  | .mrcDbr0 cond rd => Sys2Proof.Machine.execMrcDbr0 cond rd s
  | .mcrDbr0 cond rd => Sys2Proof.Machine.execMcrDbr0 cond rd s
  | .mrcDbr1 cond rd => Sys2Proof.Machine.execMrcDbr1 cond rd s
  | .mcrDbr1 cond rd => Sys2Proof.Machine.execMcrDbr1 cond rd s
  | .mrcDbcon cond rd => Sys2Proof.Machine.execMrcDbcon cond rd s
  | .mcrDbcon cond rd => Sys2Proof.Machine.execMcrDbcon cond rd s
  | .mrcCpar cond rd => Sys2Proof.Machine.execMrcCpar cond rd s
  | .mcrCpar cond rd => Sys2Proof.Machine.execMcrCpar cond rd s
  | .mrcPmnc cond rd => Sys2Proof.Machine.execMrcPmnc cond rd s
  | .mcrPmnc cond rd => Sys2Proof.Machine.execMcrPmnc cond rd s
  | .mrcCcnt cond rd => Sys2Proof.Machine.execMrcCcnt cond rd s
  | .mcrCcnt cond rd => Sys2Proof.Machine.execMcrCcnt cond rd s
  | .mrcInten cond rd => Sys2Proof.Machine.execMrcInten cond rd s
  | .mcrInten cond rd => Sys2Proof.Machine.execMcrInten cond rd s
  | .mrcFlag cond rd => Sys2Proof.Machine.execMrcFlag cond rd s
  | .mcrFlag cond rd => Sys2Proof.Machine.execMcrFlag cond rd s
  | .mrcEvtsel cond rd => Sys2Proof.Machine.execMrcEvtsel cond rd s
  | .mcrEvtsel cond rd => Sys2Proof.Machine.execMcrEvtsel cond rd s
  | .mrcPmn0 cond rd => Sys2Proof.Machine.execMrcPmn0 cond rd s
  | .mcrPmn0 cond rd => Sys2Proof.Machine.execMcrPmn0 cond rd s
  | .mrcPmn1 cond rd => Sys2Proof.Machine.execMrcPmn1 cond rd s
  | .mcrPmn1 cond rd => Sys2Proof.Machine.execMcrPmn1 cond rd s
  | .mrcPmn2 cond rd => Sys2Proof.Machine.execMrcPmn2 cond rd s
  | .mcrPmn2 cond rd => Sys2Proof.Machine.execMcrPmn2 cond rd s
  | .mrcPmn3 cond rd => Sys2Proof.Machine.execMrcPmn3 cond rd s
  | .mcrPmn3 cond rd => Sys2Proof.Machine.execMcrPmn3 cond rd s
  | .mrcCclkcfg cond rd => Sys2Proof.Machine.execMrcCclkcfg cond rd s
  | .mcrCclkcfg cond rd => Sys2Proof.Machine.execMcrCclkcfg cond rd s
  | .mrcPwrmode cond rd => Sys2Proof.Machine.execMrcPwrmode cond rd s
  | .mcrPwrmode cond rd => Sys2Proof.Machine.execMcrPwrmode cond rd s
  | .mcrTx cond rd => Sys2Proof.Machine.execMcrTx cond rd s
  | .mrcRx cond rd => Sys2Proof.Machine.execMrcRx cond rd s
  | .mrcDcsr cond rd => Sys2Proof.Machine.execMrcDcsr cond rd s
  | .mcrDcsr cond rd => Sys2Proof.Machine.execMcrDcsr cond rd s
  | .mrcTbreg cond rd => Sys2Proof.Machine.execMrcTbreg cond rd s
  | .mrcChkpt0 cond rd => Sys2Proof.Machine.execMrcChkpt0 cond rd s
  | .mcrChkpt0 cond rd => Sys2Proof.Machine.execMcrChkpt0 cond rd s
  | .mrcChkpt1 cond rd => Sys2Proof.Machine.execMrcChkpt1 cond rd s
  | .mcrChkpt1 cond rd => Sys2Proof.Machine.execMcrChkpt1 cond rd s
  | .mrcTxrxctrl cond rd => Sys2Proof.Machine.execMrcTxrxctrl cond rd s
  | .mcrTxrxctrl cond rd => Sys2Proof.Machine.execMcrTxrxctrl cond rd s
  | .mrcErrlog cond rd => Sys2Proof.Machine.execMrcErrlog cond rd s
  | .mcrErrlog cond rd => Sys2Proof.Machine.execMcrErrlog cond rd s
  | .mrcErradrl cond rd => Sys2Proof.Machine.execMrcErradrl cond rd s
  | .mcrErradrl cond rd => Sys2Proof.Machine.execMcrErradrl cond rd s
  | .mrcErradru cond rd => Sys2Proof.Machine.execMrcErradru cond rd s
  | .mcrErradru cond rd => Sys2Proof.Machine.execMcrErradru cond rd s
  | .mcrP15Other cond opcode1 crn rd opcode2 crm => Sys2Proof.Machine.execMcrP15Other cond opcode1 crn rd opcode2 crm s
  | .mcrP14Other cond opcode1 crn rd opcode2 crm => Sys2Proof.Machine.execMcrP14Other cond opcode1 crn rd opcode2 crm s
  | .mcrP7Other cond opcode1 crn rd opcode2 => Sys2Proof.Machine.execMcrP7Other cond opcode1 crn rd opcode2 s
  | .mcrP0Other cond opcode1 crn rd opcode2 crm => Sys2Proof.Machine.execMcrP0Other cond opcode1 crn rd opcode2 crm s
  | .mcr cond opcode1 crn rd cpNum opcode2 crm => Sys2Proof.Machine.execMcr cond opcode1 crn rd cpNum opcode2 crm s
  | .mrcP15Other cond opcode1 crn rd opcode2 crm => Sys2Proof.Machine.execMrcP15Other cond opcode1 crn rd opcode2 crm s
  | .mrcP14Other cond opcode1 crn rd opcode2 crm => Sys2Proof.Machine.execMrcP14Other cond opcode1 crn rd opcode2 crm s
  | .mrcP7Other cond opcode1 crn rd opcode2 => Sys2Proof.Machine.execMrcP7Other cond opcode1 crn rd opcode2 s
  | .mrcP0Other cond opcode1 crn rd opcode2 crm => Sys2Proof.Machine.execMrcP0Other cond opcode1 crn rd opcode2 crm s
  | .mrc cond opcode1 crn rd cpNum opcode2 crm => Sys2Proof.Machine.execMrc cond opcode1 crn rd cpNum opcode2 crm s
  | .swi cond immed24 => Sys2Proof.Machine.execSwi cond immed24 s
  | .tLslImm imm5 rm rd => Sys2Proof.Machine.execTLslImm imm5 rm rd s
  | .tLsrImm imm5 rm rd => Sys2Proof.Machine.execTLsrImm imm5 rm rd s
  | .tAsrImm imm5 rm rd => Sys2Proof.Machine.execTAsrImm imm5 rm rd s
  | .tAddReg rm rn rd => Sys2Proof.Machine.execTAddReg rm rn rd s
  | .tSubReg rm rn rd => Sys2Proof.Machine.execTSubReg rm rn rd s
  | .tAddImm3 imm3 rn rd => Sys2Proof.Machine.execTAddImm3 imm3 rn rd s
  | .tSubImm3 imm3 rn rd => Sys2Proof.Machine.execTSubImm3 imm3 rn rd s
  | .tMovImm rd imm8 => Sys2Proof.Machine.execTMovImm rd imm8 s
  | .tCmpImm rn imm8 => Sys2Proof.Machine.execTCmpImm rn imm8 s
  | .tAddImm8 rd imm8 => Sys2Proof.Machine.execTAddImm8 rd imm8 s
  | .tSubImm8 rd imm8 => Sys2Proof.Machine.execTSubImm8 rd imm8 s
  | .tAnd rm rd => Sys2Proof.Machine.execTAnd rm rd s
  | .tEor rm rd => Sys2Proof.Machine.execTEor rm rd s
  | .tLslReg rs rd => Sys2Proof.Machine.execTLslReg rs rd s
  | .tLsrReg rs rd => Sys2Proof.Machine.execTLsrReg rs rd s
  | .tAsrReg rs rd => Sys2Proof.Machine.execTAsrReg rs rd s
  | .tAdc rm rd => Sys2Proof.Machine.execTAdc rm rd s
  | .tSbc rm rd => Sys2Proof.Machine.execTSbc rm rd s
  | .tRor rs rd => Sys2Proof.Machine.execTRor rs rd s
  | .tTst rm rn => Sys2Proof.Machine.execTTst rm rn s
  | .tNeg rm rd => Sys2Proof.Machine.execTNeg rm rd s
  | .tCmpReg rm rn => Sys2Proof.Machine.execTCmpReg rm rn s
  | .tCmn rm rn => Sys2Proof.Machine.execTCmn rm rn s
  | .tOrr rm rd => Sys2Proof.Machine.execTOrr rm rd s
  | .tMul rm rd => Sys2Proof.Machine.execTMul rm rd s
  | .tBic rm rd => Sys2Proof.Machine.execTBic rm rd s
  | .tMvn rm rd => Sys2Proof.Machine.execTMvn rm rd s
  | .tAddHigh h1 h2 rm rd => Sys2Proof.Machine.execTAddHigh h1 h2 rm rd s
  | .tCmpHigh h1 h2 rm rn => Sys2Proof.Machine.execTCmpHigh h1 h2 rm rn s
  | .tMovHigh h1 h2 rm rd => Sys2Proof.Machine.execTMovHigh h1 h2 rm rd s
  | .tBx h2 rm sb => Sys2Proof.Machine.execTBx h2 rm sb s
  | .tBlxReg h2 rm sb => Sys2Proof.Machine.execTBlxReg h2 rm sb s
  | .tLdrPc rd imm8 => Sys2Proof.Machine.execTLdrPc rd imm8 s
  | .tStrReg rm rn rd => Sys2Proof.Machine.execTStrReg rm rn rd s
  | .tStrhReg rm rn rd => Sys2Proof.Machine.execTStrhReg rm rn rd s
  | .tStrbReg rm rn rd => Sys2Proof.Machine.execTStrbReg rm rn rd s
  | .tLdrsbReg rm rn rd => Sys2Proof.Machine.execTLdrsbReg rm rn rd s
  | .tLdrReg rm rn rd => Sys2Proof.Machine.execTLdrReg rm rn rd s
  | .tLdrhReg rm rn rd => Sys2Proof.Machine.execTLdrhReg rm rn rd s
  | .tLdrbReg rm rn rd => Sys2Proof.Machine.execTLdrbReg rm rn rd s
  | .tLdrshReg rm rn rd => Sys2Proof.Machine.execTLdrshReg rm rn rd s
  | .tStrImm imm5 rn rd => Sys2Proof.Machine.execTStrImm imm5 rn rd s
  | .tLdrImm imm5 rn rd => Sys2Proof.Machine.execTLdrImm imm5 rn rd s
  | .tStrbImm imm5 rn rd => Sys2Proof.Machine.execTStrbImm imm5 rn rd s
  | .tLdrbImm imm5 rn rd => Sys2Proof.Machine.execTLdrbImm imm5 rn rd s
  | .tStrhImm imm5 rn rd => Sys2Proof.Machine.execTStrhImm imm5 rn rd s
  | .tLdrhImm imm5 rn rd => Sys2Proof.Machine.execTLdrhImm imm5 rn rd s
  | .tStrSp rd imm8 => Sys2Proof.Machine.execTStrSp rd imm8 s
  | .tLdrSp rd imm8 => Sys2Proof.Machine.execTLdrSp rd imm8 s
  | .tAddPcImm rd imm8 => Sys2Proof.Machine.execTAddPcImm rd imm8 s
  | .tAddSpImm rd imm8 => Sys2Proof.Machine.execTAddSpImm rd imm8 s
  | .tIncSp imm7 => Sys2Proof.Machine.execTIncSp imm7 s
  | .tDecSp imm7 => Sys2Proof.Machine.execTDecSp imm7 s
  | .tPush rBit registerList => Sys2Proof.Machine.execTPush rBit registerList s
  | .tPop rBit registerList => Sys2Proof.Machine.execTPop rBit registerList s
  | .tBkpt imm8 => Sys2Proof.Machine.execTBkpt imm8 s
  | .tUndef1011 raw => Sys2Proof.Machine.execTUndef1011 raw s
  | .tStmia rn registerList => Sys2Proof.Machine.execTStmia rn registerList s
  | .tLdmia rn registerList => Sys2Proof.Machine.execTLdmia rn registerList s
  | .tSwi imm8 => Sys2Proof.Machine.execTSwi imm8 s
  | .tUndefCond raw => Sys2Proof.Machine.execTUndefCond raw s
  | .tBCond cond simm8 => Sys2Proof.Machine.execTBCond cond simm8 s
  | .tB simm11 => Sys2Proof.Machine.execTB simm11 s
  | .tBlxSuffix offset11Hi => Sys2Proof.Machine.execTBlxSuffix offset11Hi s
  | .tUndefBlx raw => Sys2Proof.Machine.execTUndefBlx raw s
  | .tBlPrefix offset11 => Sys2Proof.Machine.execTBlPrefix offset11 s
  | .tBlSuffix offset11 => Sys2Proof.Machine.execTBlSuffix offset11 s

end Sys2Proof.Machine
end

