-- ==== Sys2Proof/WellFormed.lean ====
section
/-!
DEFINITION. Which instruction terms stand for a word: the conditions that the rows' priorities put on
the fields of an instruction (`30_encoding` R454, R463), and the lists of coprocessor registers and
functions that have a row of their own (`43_cp15_functions`, `44_cp14_cp7`).
-/
namespace Sys2Proof

/-- The four fields that name a coprocessor register or function, side by side:
opcode_1, CRn, CRm, opcode_2 (`30_encoding` R457). -/
def cpKey (opcode1 : BitVec 3) (crn crm : BitVec 4) (opcode2 : BitVec 3) : BitVec 14 :=
  opcode1 ++ crn ++ crm ++ opcode2

/-- The MCR keys of coprocessor 15 that have a row of their own. -/
def cp15Writes : List (BitVec 14) :=
  [cpKey 0 7 5 0,
   cpKey 0 7 5 1,
   cpKey 0 7 5 6,
   cpKey 0 7 6 0,
   cpKey 0 7 6 1,
   cpKey 0 7 7 0,
   cpKey 0 7 10 1,
   cpKey 0 7 10 2,
   cpKey 0 7 14 1,
   cpKey 0 7 14 2,
   cpKey 1 7 7 1,
   cpKey 1 7 11 1,
   cpKey 1 7 11 2,
   cpKey 1 7 15 2,
   cpKey 0 7 5 4,
   cpKey 0 7 10 4,
   cpKey 0 7 10 5,
   cpKey 0 7 2 5,
   cpKey 0 8 7 0,
   cpKey 0 8 5 0] ++
  [cpKey 0 8 5 1,
   cpKey 0 8 6 0,
   cpKey 0 8 6 1,
   cpKey 0 9 5 0,
   cpKey 1 9 5 0,
   cpKey 0 9 5 1,
   cpKey 1 9 5 1,
   cpKey 1 9 5 2,
   cpKey 0 9 6 0,
   cpKey 0 9 6 1,
   cpKey 0 9 1 0,
   cpKey 0 9 1 1,
   cpKey 0 9 2 0,
   cpKey 0 9 2 1,
   cpKey 0 10 4 0,
   cpKey 0 10 4 1,
   cpKey 0 10 8 0,
   cpKey 0 10 8 1,
   cpKey 0 0 0 0,
   cpKey 0 0 0 1] ++
  [cpKey 1 0 0 0,
   cpKey 1 0 0 1,
   cpKey 0 1 0 0,
   cpKey 0 1 0 1,
   cpKey 0 2 0 0,
   cpKey 0 3 0 0,
   cpKey 0 5 0 0,
   cpKey 0 6 0 0,
   cpKey 0 13 0 0,
   cpKey 0 14 8 0,
   cpKey 0 14 9 0,
   cpKey 0 14 0 0,
   cpKey 0 14 3 0,
   cpKey 0 14 4 0,
   cpKey 0 15 1 0]

/-- The MRC keys of coprocessor 15 that have a row of their own. -/
def cp15Reads : List (BitVec 14) :=
  [cpKey 0 9 6 0,
   cpKey 0 9 2 0,
   cpKey 0 0 0 0,
   cpKey 0 0 0 1,
   cpKey 1 0 0 0,
   cpKey 1 0 0 1,
   cpKey 0 1 0 0,
   cpKey 0 1 0 1,
   cpKey 0 2 0 0,
   cpKey 0 3 0 0,
   cpKey 0 5 0 0,
   cpKey 0 6 0 0,
   cpKey 0 13 0 0,
   cpKey 0 14 8 0,
   cpKey 0 14 9 0,
   cpKey 0 14 0 0,
   cpKey 0 14 3 0,
   cpKey 0 14 4 0,
   cpKey 0 15 1 0]

/-- The MCR keys of coprocessor 14 that have a row of their own. -/
def cp14Writes : List (BitVec 14) :=
  [cpKey 0 0 1 0,
   cpKey 0 1 1 0,
   cpKey 0 4 1 0,
   cpKey 0 5 1 0,
   cpKey 0 8 1 0,
   cpKey 0 0 2 0,
   cpKey 0 1 2 0,
   cpKey 0 2 2 0,
   cpKey 0 3 2 0,
   cpKey 0 6 0 0,
   cpKey 0 7 0 0,
   cpKey 0 8 0 0,
   cpKey 0 10 0 0,
   cpKey 0 12 0 0,
   cpKey 0 13 0 0,
   cpKey 0 14 0 0]

/-- The MRC keys of coprocessor 14 that have a row of their own. -/
def cp14Reads : List (BitVec 14) :=
  [cpKey 0 0 1 0,
   cpKey 0 1 1 0,
   cpKey 0 4 1 0,
   cpKey 0 5 1 0,
   cpKey 0 8 1 0,
   cpKey 0 0 2 0,
   cpKey 0 1 2 0,
   cpKey 0 2 2 0,
   cpKey 0 3 2 0,
   cpKey 0 6 0 0,
   cpKey 0 7 0 0,
   cpKey 0 9 0 0,
   cpKey 0 10 0 0,
   cpKey 0 11 0 0,
   cpKey 0 12 0 0,
   cpKey 0 13 0 0,
   cpKey 0 14 0 0]

/-- The MCR keys of coprocessor 7 that have a row of their own. -/
def cp7Writes : List (BitVec 14) :=
  [cpKey 0 0 2 0,
   cpKey 0 1 2 0,
   cpKey 0 2 2 0]

/-- The MRC keys of coprocessor 7 that have a row of their own. -/
def cp7Reads : List (BitVec 14) :=
  [cpKey 0 0 2 0,
   cpKey 0 1 2 0,
   cpKey 0 2 2 0]

/-- The six `opcode_3` values of the multiply with internal accumulate format (`30_encoding` R459). -/
def miaOpcodes : List (BitVec 4) := [0b0000, 0b1000, 0b1100, 0b1101, 0b1110, 0b1111]

/-- The words of bits [27:25] = 000 and bits [7:4] = 1001 that are a multiply or a swap
(`30_encoding` R454 lines 1 to 3), on bits [24:8] of the word. -/
def isMulOrSwap (raw1 : BitVec 17) : Bool :=
  (!raw1.getLsbD 16 && !raw1.getLsbD 15 && !raw1.getLsbD 14) ||
  (!raw1.getLsbD 16 && raw1.getLsbD 15) ||
  (raw1.getLsbD 16 && !raw1.getLsbD 15 && !raw1.getLsbD 13 && !raw1.getLsbD 12)

/-- The words of the space `0001 0xx0` that are an instruction or belong to the multiply and extra load/store space
(`30_encoding` R454 lines 4 to 12), by bits [22:21] and bits [7:4] of the word. -/
def isMisc (op : BitVec 2) (low : BitVec 4) : Bool :=
  low == 0b0000 || low == 0b0101 || low.getLsbD 3 ||
  (op == 0b01 && (low == 0b0001 || low == 0b0011 || low == 0b0111)) ||
  (op == 0b11 && low == 0b0001)

/-- The words of the unconditional space that are an instruction (`30_encoding` R453), on bits
[27:0] of the word. -/
def isUncond (raw : BitVec 28) : Bool :=
  (raw.getLsbD 27 && !raw.getLsbD 26 && raw.getLsbD 25) ||
  (raw.getLsbD 27 && raw.getLsbD 26 && !raw.getLsbD 25) ||
  (raw.getLsbD 27 && raw.getLsbD 26 && raw.getLsbD 25 && !raw.getLsbD 24) ||
  (!raw.getLsbD 27 && raw.getLsbD 26 && raw.getLsbD 24 && raw.getLsbD 22 && !raw.getLsbD 21 &&
    raw.getLsbD 20 && raw.extractLsb' 12 4 == 0b1111 && (!raw.getLsbD 25 || !raw.getLsbD 4))

/-- The halfwords `1011 xxxx` that are an instruction (`30_encoding` R463 T12, T13, T14), on bits
[11:0] of the halfword. -/
def isThumbMisc (raw : BitVec 12) : Bool :=
  (!raw.getLsbD 11 && !raw.getLsbD 10 && !raw.getLsbD 9 && !raw.getLsbD 8) ||
  (raw.getLsbD 10 && !raw.getLsbD 9) ||
  (raw.getLsbD 11 && raw.getLsbD 10 && raw.getLsbD 9 && !raw.getLsbD 8)

/-- An LDC or STC word is no MCRR or MRRC (`30_encoding` R454 lines 24 and 25). -/
def isMcrrSpace (pBit uBit nBit wBit : Bool) : Bool := !pBit && !uBit && nBit && !wBit

/-- The terms that stand for a word: every field of a row is free but for the words that a row of
higher priority takes. -/
def Instr.wellFormed : Instr → Bool
  | .pldImm .. => true
  | .pldReg .. => true
  | .blxImm .. => true
  | .ldc2 .. => true
  | .stc2 .. => true
  | .cdp2 .. => true
  | .mcr2 .. => true
  | .mrc2 .. => true
  | .undefUncond raw => !isUncond raw
  | .mul .. => true
  | .mla .. => true
  | .umull .. => true
  | .umlal .. => true
  | .smull .. => true
  | .smlal .. => true
  | .swp .. => true
  | .swpb .. => true
  | .undefExt _ raw1 _ => !isMulOrSwap raw1
  | .strh .. => true
  | .ldrd .. => true
  | .strd .. => true
  | .ldrh .. => true
  | .ldrsb .. => true
  | .ldrsh .. => true
  | .mrs .. => true
  | .msrReg .. => true
  | .bx .. => true
  | .blxReg .. => true
  | .clz .. => true
  | .qadd .. => true
  | .qsub .. => true
  | .qdadd .. => true
  | .qdsub .. => true
  | .bkpt .. => true
  | .smlaXY .. => true
  | .smlawY .. => true
  | .smulwY .. => true
  | .smlalXY .. => true
  | .smulXY .. => true
  | .undefMisc _ raw1 raw2 => !isMisc raw1 (raw2.extractLsb' 4 4)
  | .andShImm .. => true
  | .eorShImm .. => true
  | .subShImm .. => true
  | .rsbShImm .. => true
  | .addShImm .. => true
  | .adcShImm .. => true
  | .sbcShImm .. => true
  | .rscShImm .. => true
  | .tstShImm .. => true
  | .teqShImm .. => true
  | .cmpShImm .. => true
  | .cmnShImm .. => true
  | .orrShImm .. => true
  | .movShImm .. => true
  | .bicShImm .. => true
  | .mvnShImm .. => true
  | .andShReg .. => true
  | .eorShReg .. => true
  | .subShReg .. => true
  | .rsbShReg .. => true
  | .addShReg .. => true
  | .adcShReg .. => true
  | .sbcShReg .. => true
  | .rscShReg .. => true
  | .tstShReg .. => true
  | .teqShReg .. => true
  | .cmpShReg .. => true
  | .cmnShReg .. => true
  | .orrShReg .. => true
  | .movShReg .. => true
  | .bicShReg .. => true
  | .mvnShReg .. => true
  | .msrImm .. => true
  | .undefImm .. => true
  | .andImm .. => true
  | .eorImm .. => true
  | .subImm .. => true
  | .rsbImm .. => true
  | .addImm .. => true
  | .adcImm .. => true
  | .sbcImm .. => true
  | .rscImm .. => true
  | .tstImm .. => true
  | .teqImm .. => true
  | .cmpImm .. => true
  | .cmnImm .. => true
  | .orrImm .. => true
  | .movImm .. => true
  | .bicImm .. => true
  | .mvnImm .. => true
  | .ldrtImm .. => true
  | .ldrbtImm .. => true
  | .strtImm .. => true
  | .strbtImm .. => true
  | .ldrImm _ pBit _ wBit _ _ _ => !(!pBit && wBit)
  | .ldrbImm _ pBit _ wBit _ _ _ => !(!pBit && wBit)
  | .strImm _ pBit _ wBit _ _ _ => !(!pBit && wBit)
  | .strbImm _ pBit _ wBit _ _ _ => !(!pBit && wBit)
  | .ldrtReg .. => true
  | .ldrbtReg .. => true
  | .strtReg .. => true
  | .strbtReg .. => true
  | .ldrReg _ pBit _ wBit _ _ _ _ _ => !(!pBit && wBit)
  | .ldrbReg _ pBit _ wBit _ _ _ _ _ => !(!pBit && wBit)
  | .strReg _ pBit _ wBit _ _ _ _ _ => !(!pBit && wBit)
  | .strbReg _ pBit _ wBit _ _ _ _ _ => !(!pBit && wBit)
  | .undefMedia .. => true
  | .ldm .. => true
  | .ldmUser .. => true
  | .ldmReturn .. => true
  | .stm .. => true
  | .stmUser .. => true
  | .b .. => true
  | .bl .. => true
  | .mar .. => true
  | .mra .. => true
  | .mcrr _ _ _ cpNum _ _ => cpNum != 0
  | .mrrc _ _ _ cpNum _ _ => cpNum != 0
  | .ldcP14 _ pBit uBit nBit wBit _ _ _ => !isMcrrSpace pBit uBit nBit wBit
  | .stcP14 _ pBit uBit nBit wBit _ _ _ => !isMcrrSpace pBit uBit nBit wBit
  | .ldc _ pBit uBit nBit wBit _ _ cpNum _ => !isMcrrSpace pBit uBit nBit wBit && cpNum != 14
  | .stc _ pBit uBit nBit wBit _ _ cpNum _ => !isMcrrSpace pBit uBit nBit wBit && cpNum != 14
  | .cdp .. => true
  | .mia .. => true
  | .miaph .. => true
  | .miabb .. => true
  | .miabt .. => true
  | .miatb .. => true
  | .miatt .. => true
  | .mcrInvICacheBtb .. => true
  | .mcrInvICacheLine .. => true
  | .mcrInvBtb .. => true
  | .mcrInvDCache .. => true
  | .mcrInvDCacheLine .. => true
  | .mcrInvCachesBtb .. => true
  | .mcrCleanDLineMva .. => true
  | .mcrCleanDLineSetWay .. => true
  | .mcrCleanInvDLineMva .. => true
  | .mcrCleanInvDLineSetWay .. => true
  | .mcrInvL2Line .. => true
  | .mcrCleanL2LineMva .. => true
  | .mcrCleanL2LineSetWay .. => true
  | .mcrCleanInvL2LineSetWay .. => true
  | .mcrPrefetchFlush .. => true
  | .mcrDataWriteBarrier .. => true
  | .mcrDataMemoryBarrier .. => true
  | .mcrDLineAllocate .. => true
  | .mcrInvTlbs .. => true
  | .mcrInvITlb .. => true
  | .mcrInvITlbEntry .. => true
  | .mcrInvDTlb .. => true
  | .mcrInvDTlbEntry .. => true
  | .mcrLockILine .. => true
  | .mcrLockL2Line .. => true
  | .mcrUnlockICache .. => true
  | .mcrUnlockL2 .. => true
  | .mcrAllocLockL2Line .. => true
  | .mrcDLock .. => true
  | .mcrDLock .. => true
  | .mcrUnlockDCache .. => true
  | .mcrLockILineLegacy .. => true
  | .mcrUnlockICacheLegacy .. => true
  | .mrcDLockLegacy .. => true
  | .mcrDLockLegacy .. => true
  | .mcrUnlockDCacheLegacy .. => true
  | .mcrLockITlbEntry .. => true
  | .mcrUnlockITlb .. => true
  | .mcrLockDTlbEntry .. => true
  | .mcrUnlockDTlb .. => true
  | .mrcMainId .. => true
  | .mcrMainId .. => true
  | .mrcCacheType .. => true
  | .mcrCacheType .. => true
  | .mrcL2SystemId .. => true
  | .mcrL2SystemId .. => true
  | .mrcL2CacheType .. => true
  | .mcrL2CacheType .. => true
  | .mrcControl .. => true
  | .mcrControl .. => true
  | .mrcAuxControl .. => true
  | .mcrAuxControl .. => true
  | .mrcTtBase .. => true
  | .mcrTtBase .. => true
  | .mrcDacr .. => true
  | .mcrDacr .. => true
  | .mrcFsr .. => true
  | .mcrFsr .. => true
  | .mrcFar .. => true
  | .mcrFar .. => true
  | .mrcProcessId .. => true
  | .mcrProcessId .. => true
  | .mrcIbr0 .. => true
  | .mcrIbr0 .. => true
  | .mrcIbr1 .. => true
  | .mcrIbr1 .. => true
  | .mrcDbr0 .. => true
  | .mcrDbr0 .. => true
  | .mrcDbr1 .. => true
  | .mcrDbr1 .. => true
  | .mrcDbcon .. => true
  | .mcrDbcon .. => true
  | .mrcCpar .. => true
  | .mcrCpar .. => true
  | .mrcPmnc .. => true
  | .mcrPmnc .. => true
  | .mrcCcnt .. => true
  | .mcrCcnt .. => true
  | .mrcInten .. => true
  | .mcrInten .. => true
  | .mrcFlag .. => true
  | .mcrFlag .. => true
  | .mrcEvtsel .. => true
  | .mcrEvtsel .. => true
  | .mrcPmn0 .. => true
  | .mcrPmn0 .. => true
  | .mrcPmn1 .. => true
  | .mcrPmn1 .. => true
  | .mrcPmn2 .. => true
  | .mcrPmn2 .. => true
  | .mrcPmn3 .. => true
  | .mcrPmn3 .. => true
  | .mrcCclkcfg .. => true
  | .mcrCclkcfg .. => true
  | .mrcPwrmode .. => true
  | .mcrPwrmode .. => true
  | .mcrTx .. => true
  | .mrcRx .. => true
  | .mrcDcsr .. => true
  | .mcrDcsr .. => true
  | .mrcTbreg .. => true
  | .mrcChkpt0 .. => true
  | .mcrChkpt0 .. => true
  | .mrcChkpt1 .. => true
  | .mcrChkpt1 .. => true
  | .mrcTxrxctrl .. => true
  | .mcrTxrxctrl .. => true
  | .mrcErrlog .. => true
  | .mcrErrlog .. => true
  | .mrcErradrl .. => true
  | .mcrErradrl .. => true
  | .mrcErradru .. => true
  | .mcrErradru .. => true
  | .mcrP15Other _ opcode1 crn _ opcode2 crm => !cp15Writes.contains (cpKey opcode1 crn crm opcode2)
  | .mcrP14Other _ opcode1 crn _ opcode2 crm => !cp14Writes.contains (cpKey opcode1 crn crm opcode2)
  | .mcrP7Other _ opcode1 crn _ opcode2 => !cp7Writes.contains (cpKey opcode1 crn 2 opcode2)
  | .mcrP0Other _ opcode1 crn _ _ _ => !(opcode1 == 1 && miaOpcodes.contains crn)
  | .mcr _ _ _ _ cpNum _ crm => cpNum != 15 && cpNum != 14 && cpNum != 0 && !(cpNum == 7 && crm == 2)
  | .mrcP15Other _ opcode1 crn _ opcode2 crm => !cp15Reads.contains (cpKey opcode1 crn crm opcode2)
  | .mrcP14Other _ opcode1 crn _ opcode2 crm => !cp14Reads.contains (cpKey opcode1 crn crm opcode2)
  | .mrcP7Other _ opcode1 crn _ opcode2 => !cp7Reads.contains (cpKey opcode1 crn 2 opcode2)
  | .mrcP0Other .. => true
  | .mrc _ _ _ _ cpNum _ crm => cpNum != 15 && cpNum != 14 && cpNum != 0 && !(cpNum == 7 && crm == 2)
  | .swi .. => true
  | .tLslImm .. => true
  | .tLsrImm .. => true
  | .tAsrImm .. => true
  | .tAddReg .. => true
  | .tSubReg .. => true
  | .tAddImm3 .. => true
  | .tSubImm3 .. => true
  | .tMovImm .. => true
  | .tCmpImm .. => true
  | .tAddImm8 .. => true
  | .tSubImm8 .. => true
  | .tAnd .. => true
  | .tEor .. => true
  | .tLslReg .. => true
  | .tLsrReg .. => true
  | .tAsrReg .. => true
  | .tAdc .. => true
  | .tSbc .. => true
  | .tRor .. => true
  | .tTst .. => true
  | .tNeg .. => true
  | .tCmpReg .. => true
  | .tCmn .. => true
  | .tOrr .. => true
  | .tMul .. => true
  | .tBic .. => true
  | .tMvn .. => true
  | .tAddHigh .. => true
  | .tCmpHigh .. => true
  | .tMovHigh .. => true
  | .tBx .. => true
  | .tBlxReg .. => true
  | .tLdrPc .. => true
  | .tStrReg .. => true
  | .tStrhReg .. => true
  | .tStrbReg .. => true
  | .tLdrsbReg .. => true
  | .tLdrReg .. => true
  | .tLdrhReg .. => true
  | .tLdrbReg .. => true
  | .tLdrshReg .. => true
  | .tStrImm .. => true
  | .tLdrImm .. => true
  | .tStrbImm .. => true
  | .tLdrbImm .. => true
  | .tStrhImm .. => true
  | .tLdrhImm .. => true
  | .tStrSp .. => true
  | .tLdrSp .. => true
  | .tAddPcImm .. => true
  | .tAddSpImm .. => true
  | .tIncSp .. => true
  | .tDecSp .. => true
  | .tPush .. => true
  | .tPop .. => true
  | .tBkpt .. => true
  | .tUndef1011 raw => !isThumbMisc raw
  | .tStmia .. => true
  | .tLdmia .. => true
  | .tSwi .. => true
  | .tUndefCond .. => true
  | .tBCond cond _ => cond != .al
  | .tB .. => true
  | .tBlxSuffix .. => true
  | .tUndefBlx .. => true
  | .tBlPrefix .. => true
  | .tBlSuffix .. => true

end Sys2Proof
end

