-- ==== Sys2Proof/Decode.lean ====
section
/-!
DEFINITION. The decoder and the encoder: which instruction an ARM word or a Thumb halfword stands for
(`30_encoding` R454 to R463, in the priority order of the opcode table), and the word of an
instruction, written from the same layouts.
-/
namespace Sys2Proof

noncomputable section

/-- Why a decode gives no instruction. -/
inductive Reject where
  /-- fewer bytes are given than the instruction has -/
  | truncated
deriving DecidableEq, Repr

/-- `ConditionPassed`'s numbering of the conditions; 1111 is no condition (`30_encoding` R452). -/
def Cond.ofBits (b : BitVec 4) : Option Cond :=
  if b = 0 then some .eq
  else if b = 1 then some .ne
  else if b = 2 then some .cs
  else if b = 3 then some .cc
  else if b = 4 then some .mi
  else if b = 5 then some .pl
  else if b = 6 then some .vs
  else if b = 7 then some .vc
  else if b = 8 then some .hi
  else if b = 9 then some .ls
  else if b = 10 then some .ge
  else if b = 11 then some .lt
  else if b = 12 then some .gt
  else if b = 13 then some .le
  else if b = 14 then some .al
  else none

/-- The four bits of a condition (`30_encoding` R452). -/
def Cond.bits : Cond → BitVec 4
  | .eq => 0
  | .ne => 1
  | .cs => 2
  | .cc => 3
  | .mi => 4
  | .pl => 5
  | .vs => 6
  | .vc => 7
  | .hi => 8
  | .ls => 9
  | .ge => 10
  | .lt => 11
  | .gt => 12
  | .le => 13
  | .al => 14

/-- MCR to coprocessor 15 (`43_cp15_functions`). -/
def decodeCp15Write (cond : Cond) (w : Word) : Instr :=
  let key := cpKey (w.extractLsb' 21 3) (w.extractLsb' 16 4) (w.extractLsb' 0 4) (w.extractLsb' 5 3)
  if key = cpKey 0 7 5 0 then .mcrInvICacheBtb cond (w.extractLsb' 12 4)
  else if key = cpKey 0 7 5 1 then .mcrInvICacheLine cond (w.extractLsb' 12 4)
  else if key = cpKey 0 7 5 6 then .mcrInvBtb cond (w.extractLsb' 12 4)
  else if key = cpKey 0 7 6 0 then .mcrInvDCache cond (w.extractLsb' 12 4)
  else if key = cpKey 0 7 6 1 then .mcrInvDCacheLine cond (w.extractLsb' 12 4)
  else if key = cpKey 0 7 7 0 then .mcrInvCachesBtb cond (w.extractLsb' 12 4)
  else if key = cpKey 0 7 10 1 then .mcrCleanDLineMva cond (w.extractLsb' 12 4)
  else if key = cpKey 0 7 10 2 then .mcrCleanDLineSetWay cond (w.extractLsb' 12 4)
  else if key = cpKey 0 7 14 1 then .mcrCleanInvDLineMva cond (w.extractLsb' 12 4)
  else if key = cpKey 0 7 14 2 then .mcrCleanInvDLineSetWay cond (w.extractLsb' 12 4)
  else if key = cpKey 1 7 7 1 then .mcrInvL2Line cond (w.extractLsb' 12 4)
  else if key = cpKey 1 7 11 1 then .mcrCleanL2LineMva cond (w.extractLsb' 12 4)
  else if key = cpKey 1 7 11 2 then .mcrCleanL2LineSetWay cond (w.extractLsb' 12 4)
  else if key = cpKey 1 7 15 2 then .mcrCleanInvL2LineSetWay cond (w.extractLsb' 12 4)
  else if key = cpKey 0 7 5 4 then .mcrPrefetchFlush cond (w.extractLsb' 12 4)
  else if key = cpKey 0 7 10 4 then .mcrDataWriteBarrier cond (w.extractLsb' 12 4)
  else if key = cpKey 0 7 10 5 then .mcrDataMemoryBarrier cond (w.extractLsb' 12 4)
  else if key = cpKey 0 7 2 5 then .mcrDLineAllocate cond (w.extractLsb' 12 4)
  else if key = cpKey 0 8 7 0 then .mcrInvTlbs cond (w.extractLsb' 12 4)
  else if key = cpKey 0 8 5 0 then .mcrInvITlb cond (w.extractLsb' 12 4)
  else if key = cpKey 0 8 5 1 then .mcrInvITlbEntry cond (w.extractLsb' 12 4)
  else if key = cpKey 0 8 6 0 then .mcrInvDTlb cond (w.extractLsb' 12 4)
  else if key = cpKey 0 8 6 1 then .mcrInvDTlbEntry cond (w.extractLsb' 12 4)
  else if key = cpKey 0 9 5 0 then .mcrLockILine cond (w.extractLsb' 12 4)
  else if key = cpKey 1 9 5 0 then .mcrLockL2Line cond (w.extractLsb' 12 4)
  else if key = cpKey 0 9 5 1 then .mcrUnlockICache cond (w.extractLsb' 12 4)
  else if key = cpKey 1 9 5 1 then .mcrUnlockL2 cond (w.extractLsb' 12 4)
  else if key = cpKey 1 9 5 2 then .mcrAllocLockL2Line cond (w.extractLsb' 12 4)
  else if key = cpKey 0 9 6 0 then .mcrDLock cond (w.extractLsb' 12 4)
  else if key = cpKey 0 9 6 1 then .mcrUnlockDCache cond (w.extractLsb' 12 4)
  else if key = cpKey 0 9 1 0 then .mcrLockILineLegacy cond (w.extractLsb' 12 4)
  else if key = cpKey 0 9 1 1 then .mcrUnlockICacheLegacy cond (w.extractLsb' 12 4)
  else if key = cpKey 0 9 2 0 then .mcrDLockLegacy cond (w.extractLsb' 12 4)
  else if key = cpKey 0 9 2 1 then .mcrUnlockDCacheLegacy cond (w.extractLsb' 12 4)
  else if key = cpKey 0 10 4 0 then .mcrLockITlbEntry cond (w.extractLsb' 12 4)
  else if key = cpKey 0 10 4 1 then .mcrUnlockITlb cond (w.extractLsb' 12 4)
  else if key = cpKey 0 10 8 0 then .mcrLockDTlbEntry cond (w.extractLsb' 12 4)
  else if key = cpKey 0 10 8 1 then .mcrUnlockDTlb cond (w.extractLsb' 12 4)
  else if key = cpKey 0 0 0 0 then .mcrMainId cond (w.extractLsb' 12 4)
  else if key = cpKey 0 0 0 1 then .mcrCacheType cond (w.extractLsb' 12 4)
  else if key = cpKey 1 0 0 0 then .mcrL2SystemId cond (w.extractLsb' 12 4)
  else if key = cpKey 1 0 0 1 then .mcrL2CacheType cond (w.extractLsb' 12 4)
  else if key = cpKey 0 1 0 0 then .mcrControl cond (w.extractLsb' 12 4)
  else if key = cpKey 0 1 0 1 then .mcrAuxControl cond (w.extractLsb' 12 4)
  else if key = cpKey 0 2 0 0 then .mcrTtBase cond (w.extractLsb' 12 4)
  else if key = cpKey 0 3 0 0 then .mcrDacr cond (w.extractLsb' 12 4)
  else if key = cpKey 0 5 0 0 then .mcrFsr cond (w.extractLsb' 12 4)
  else if key = cpKey 0 6 0 0 then .mcrFar cond (w.extractLsb' 12 4)
  else if key = cpKey 0 13 0 0 then .mcrProcessId cond (w.extractLsb' 12 4)
  else if key = cpKey 0 14 8 0 then .mcrIbr0 cond (w.extractLsb' 12 4)
  else if key = cpKey 0 14 9 0 then .mcrIbr1 cond (w.extractLsb' 12 4)
  else if key = cpKey 0 14 0 0 then .mcrDbr0 cond (w.extractLsb' 12 4)
  else if key = cpKey 0 14 3 0 then .mcrDbr1 cond (w.extractLsb' 12 4)
  else if key = cpKey 0 14 4 0 then .mcrDbcon cond (w.extractLsb' 12 4)
  else if key = cpKey 0 15 1 0 then .mcrCpar cond (w.extractLsb' 12 4)
  else .mcrP15Other cond (w.extractLsb' 21 3) (w.extractLsb' 16 4) (w.extractLsb' 12 4) (w.extractLsb' 5 3) (w.extractLsb' 0 4)

/-- MRC from coprocessor 15 (`43_cp15_functions`). -/
def decodeCp15Read (cond : Cond) (w : Word) : Instr :=
  let key := cpKey (w.extractLsb' 21 3) (w.extractLsb' 16 4) (w.extractLsb' 0 4) (w.extractLsb' 5 3)
  if key = cpKey 0 9 6 0 then .mrcDLock cond (w.extractLsb' 12 4)
  else if key = cpKey 0 9 2 0 then .mrcDLockLegacy cond (w.extractLsb' 12 4)
  else if key = cpKey 0 0 0 0 then .mrcMainId cond (w.extractLsb' 12 4)
  else if key = cpKey 0 0 0 1 then .mrcCacheType cond (w.extractLsb' 12 4)
  else if key = cpKey 1 0 0 0 then .mrcL2SystemId cond (w.extractLsb' 12 4)
  else if key = cpKey 1 0 0 1 then .mrcL2CacheType cond (w.extractLsb' 12 4)
  else if key = cpKey 0 1 0 0 then .mrcControl cond (w.extractLsb' 12 4)
  else if key = cpKey 0 1 0 1 then .mrcAuxControl cond (w.extractLsb' 12 4)
  else if key = cpKey 0 2 0 0 then .mrcTtBase cond (w.extractLsb' 12 4)
  else if key = cpKey 0 3 0 0 then .mrcDacr cond (w.extractLsb' 12 4)
  else if key = cpKey 0 5 0 0 then .mrcFsr cond (w.extractLsb' 12 4)
  else if key = cpKey 0 6 0 0 then .mrcFar cond (w.extractLsb' 12 4)
  else if key = cpKey 0 13 0 0 then .mrcProcessId cond (w.extractLsb' 12 4)
  else if key = cpKey 0 14 8 0 then .mrcIbr0 cond (w.extractLsb' 12 4)
  else if key = cpKey 0 14 9 0 then .mrcIbr1 cond (w.extractLsb' 12 4)
  else if key = cpKey 0 14 0 0 then .mrcDbr0 cond (w.extractLsb' 12 4)
  else if key = cpKey 0 14 3 0 then .mrcDbr1 cond (w.extractLsb' 12 4)
  else if key = cpKey 0 14 4 0 then .mrcDbcon cond (w.extractLsb' 12 4)
  else if key = cpKey 0 15 1 0 then .mrcCpar cond (w.extractLsb' 12 4)
  else .mrcP15Other cond (w.extractLsb' 21 3) (w.extractLsb' 16 4) (w.extractLsb' 12 4) (w.extractLsb' 5 3) (w.extractLsb' 0 4)

/-- MCR to coprocessor 14 (`44_cp14_cp7` R850). -/
def decodeCp14Write (cond : Cond) (w : Word) : Instr :=
  let key := cpKey (w.extractLsb' 21 3) (w.extractLsb' 16 4) (w.extractLsb' 0 4) (w.extractLsb' 5 3)
  if key = cpKey 0 0 1 0 then .mcrPmnc cond (w.extractLsb' 12 4)
  else if key = cpKey 0 1 1 0 then .mcrCcnt cond (w.extractLsb' 12 4)
  else if key = cpKey 0 4 1 0 then .mcrInten cond (w.extractLsb' 12 4)
  else if key = cpKey 0 5 1 0 then .mcrFlag cond (w.extractLsb' 12 4)
  else if key = cpKey 0 8 1 0 then .mcrEvtsel cond (w.extractLsb' 12 4)
  else if key = cpKey 0 0 2 0 then .mcrPmn0 cond (w.extractLsb' 12 4)
  else if key = cpKey 0 1 2 0 then .mcrPmn1 cond (w.extractLsb' 12 4)
  else if key = cpKey 0 2 2 0 then .mcrPmn2 cond (w.extractLsb' 12 4)
  else if key = cpKey 0 3 2 0 then .mcrPmn3 cond (w.extractLsb' 12 4)
  else if key = cpKey 0 6 0 0 then .mcrCclkcfg cond (w.extractLsb' 12 4)
  else if key = cpKey 0 7 0 0 then .mcrPwrmode cond (w.extractLsb' 12 4)
  else if key = cpKey 0 8 0 0 then .mcrTx cond (w.extractLsb' 12 4)
  else if key = cpKey 0 10 0 0 then .mcrDcsr cond (w.extractLsb' 12 4)
  else if key = cpKey 0 12 0 0 then .mcrChkpt0 cond (w.extractLsb' 12 4)
  else if key = cpKey 0 13 0 0 then .mcrChkpt1 cond (w.extractLsb' 12 4)
  else if key = cpKey 0 14 0 0 then .mcrTxrxctrl cond (w.extractLsb' 12 4)
  else .mcrP14Other cond (w.extractLsb' 21 3) (w.extractLsb' 16 4) (w.extractLsb' 12 4) (w.extractLsb' 5 3) (w.extractLsb' 0 4)

/-- MRC from coprocessor 14 (`44_cp14_cp7` R850). -/
def decodeCp14Read (cond : Cond) (w : Word) : Instr :=
  let key := cpKey (w.extractLsb' 21 3) (w.extractLsb' 16 4) (w.extractLsb' 0 4) (w.extractLsb' 5 3)
  if key = cpKey 0 0 1 0 then .mrcPmnc cond (w.extractLsb' 12 4)
  else if key = cpKey 0 1 1 0 then .mrcCcnt cond (w.extractLsb' 12 4)
  else if key = cpKey 0 4 1 0 then .mrcInten cond (w.extractLsb' 12 4)
  else if key = cpKey 0 5 1 0 then .mrcFlag cond (w.extractLsb' 12 4)
  else if key = cpKey 0 8 1 0 then .mrcEvtsel cond (w.extractLsb' 12 4)
  else if key = cpKey 0 0 2 0 then .mrcPmn0 cond (w.extractLsb' 12 4)
  else if key = cpKey 0 1 2 0 then .mrcPmn1 cond (w.extractLsb' 12 4)
  else if key = cpKey 0 2 2 0 then .mrcPmn2 cond (w.extractLsb' 12 4)
  else if key = cpKey 0 3 2 0 then .mrcPmn3 cond (w.extractLsb' 12 4)
  else if key = cpKey 0 6 0 0 then .mrcCclkcfg cond (w.extractLsb' 12 4)
  else if key = cpKey 0 7 0 0 then .mrcPwrmode cond (w.extractLsb' 12 4)
  else if key = cpKey 0 9 0 0 then .mrcRx cond (w.extractLsb' 12 4)
  else if key = cpKey 0 10 0 0 then .mrcDcsr cond (w.extractLsb' 12 4)
  else if key = cpKey 0 11 0 0 then .mrcTbreg cond (w.extractLsb' 12 4)
  else if key = cpKey 0 12 0 0 then .mrcChkpt0 cond (w.extractLsb' 12 4)
  else if key = cpKey 0 13 0 0 then .mrcChkpt1 cond (w.extractLsb' 12 4)
  else if key = cpKey 0 14 0 0 then .mrcTxrxctrl cond (w.extractLsb' 12 4)
  else .mrcP14Other cond (w.extractLsb' 21 3) (w.extractLsb' 16 4) (w.extractLsb' 12 4) (w.extractLsb' 5 3) (w.extractLsb' 0 4)

/-- MCR to coprocessor 7 with CRm = 2 (`44_cp14_cp7` R860). -/
def decodeCp7Write (cond : Cond) (w : Word) : Instr :=
  let key := cpKey (w.extractLsb' 21 3) (w.extractLsb' 16 4) (w.extractLsb' 0 4) (w.extractLsb' 5 3)
  if key = cpKey 0 0 2 0 then .mcrErrlog cond (w.extractLsb' 12 4)
  else if key = cpKey 0 1 2 0 then .mcrErradrl cond (w.extractLsb' 12 4)
  else if key = cpKey 0 2 2 0 then .mcrErradru cond (w.extractLsb' 12 4)
  else .mcrP7Other cond (w.extractLsb' 21 3) (w.extractLsb' 16 4) (w.extractLsb' 12 4) (w.extractLsb' 5 3)

/-- MRC from coprocessor 7 with CRm = 2 (`44_cp14_cp7` R860). -/
def decodeCp7Read (cond : Cond) (w : Word) : Instr :=
  let key := cpKey (w.extractLsb' 21 3) (w.extractLsb' 16 4) (w.extractLsb' 0 4) (w.extractLsb' 5 3)
  if key = cpKey 0 0 2 0 then .mrcErrlog cond (w.extractLsb' 12 4)
  else if key = cpKey 0 1 2 0 then .mrcErradrl cond (w.extractLsb' 12 4)
  else if key = cpKey 0 2 2 0 then .mrcErradru cond (w.extractLsb' 12 4)
  else .mrcP7Other cond (w.extractLsb' 21 3) (w.extractLsb' 16 4) (w.extractLsb' 12 4) (w.extractLsb' 5 3)

/-- MCR with coprocessor 0: the multiply with internal accumulate format, or no instruction of
coprocessor 0 (`30_encoding` R459). -/
def decodeCp0Write (cond : Cond) (w : Word) : Instr :=
  if w.extractLsb' 21 3 = 1 then
    if w.extractLsb' 16 4 = 0b0000 then .mia cond (w.extractLsb' 12 4) (w.extractLsb' 5 3) (w.extractLsb' 0 4)
    else if w.extractLsb' 16 4 = 0b1000 then .miaph cond (w.extractLsb' 12 4) (w.extractLsb' 5 3) (w.extractLsb' 0 4)
    else if w.extractLsb' 16 4 = 0b1100 then .miabb cond (w.extractLsb' 12 4) (w.extractLsb' 5 3) (w.extractLsb' 0 4)
    else if w.extractLsb' 16 4 = 0b1101 then .miabt cond (w.extractLsb' 12 4) (w.extractLsb' 5 3) (w.extractLsb' 0 4)
    else if w.extractLsb' 16 4 = 0b1110 then .miatb cond (w.extractLsb' 12 4) (w.extractLsb' 5 3) (w.extractLsb' 0 4)
    else if w.extractLsb' 16 4 = 0b1111 then .miatt cond (w.extractLsb' 12 4) (w.extractLsb' 5 3) (w.extractLsb' 0 4)
    else .mcrP0Other cond (w.extractLsb' 21 3) (w.extractLsb' 16 4) (w.extractLsb' 12 4) (w.extractLsb' 5 3) (w.extractLsb' 0 4)
  else .mcrP0Other cond (w.extractLsb' 21 3) (w.extractLsb' 16 4) (w.extractLsb' 12 4) (w.extractLsb' 5 3) (w.extractLsb' 0 4)

/-- Bits [27:24] = 1110: CDP, MCR and MRC (`30_encoding` R454 lines 26 and 27). -/
def decodeCpRegister (cond : Cond) (w : Word) : Instr :=
  if w.getLsbD 4 = false then .cdp cond (w.extractLsb' 20 4) (w.extractLsb' 16 4) (w.extractLsb' 12 4) (w.extractLsb' 8 4) (w.extractLsb' 5 3) (w.extractLsb' 0 4)
  else if w.getLsbD 20 = false then
    if w.extractLsb' 8 4 = 15 then decodeCp15Write cond w
    else if w.extractLsb' 8 4 = 14 then decodeCp14Write cond w
    else if w.extractLsb' 8 4 = 0 then decodeCp0Write cond w
    else if w.extractLsb' 8 4 = 7 then
      if w.extractLsb' 0 4 = 2 then decodeCp7Write cond w
      else .mcr cond (w.extractLsb' 21 3) (w.extractLsb' 16 4) (w.extractLsb' 12 4) (w.extractLsb' 8 4) (w.extractLsb' 5 3) (w.extractLsb' 0 4)
    else .mcr cond (w.extractLsb' 21 3) (w.extractLsb' 16 4) (w.extractLsb' 12 4) (w.extractLsb' 8 4) (w.extractLsb' 5 3) (w.extractLsb' 0 4)
  else
    if w.extractLsb' 8 4 = 15 then decodeCp15Read cond w
    else if w.extractLsb' 8 4 = 14 then decodeCp14Read cond w
    else if w.extractLsb' 8 4 = 0 then .mrcP0Other cond (w.extractLsb' 21 3) (w.extractLsb' 16 4) (w.extractLsb' 12 4) (w.extractLsb' 5 3) (w.extractLsb' 0 4)
    else if w.extractLsb' 8 4 = 7 then
      if w.extractLsb' 0 4 = 2 then decodeCp7Read cond w
      else .mrc cond (w.extractLsb' 21 3) (w.extractLsb' 16 4) (w.extractLsb' 12 4) (w.extractLsb' 8 4) (w.extractLsb' 5 3) (w.extractLsb' 0 4)
    else .mrc cond (w.extractLsb' 21 3) (w.extractLsb' 16 4) (w.extractLsb' 12 4) (w.extractLsb' 8 4) (w.extractLsb' 5 3) (w.extractLsb' 0 4)

/-- Bits [27:25] = 110: MCRR and MRRC (with coprocessor 0: MAR and MRA), LDC and STC
(`30_encoding` R454 lines 24 and 25). -/
def decodeCpMemory (cond : Cond) (w : Word) : Instr :=
  if w.getLsbD 24 = false ∧ w.getLsbD 23 = false ∧ w.getLsbD 22 = true ∧ w.getLsbD 21 = false then
    if w.getLsbD 20 = false then
      if w.extractLsb' 8 4 = 0 then .mar cond (w.extractLsb' 16 4) (w.extractLsb' 12 4) (w.extractLsb' 3 5) (w.extractLsb' 0 3)
      else .mcrr cond (w.extractLsb' 16 4) (w.extractLsb' 12 4) (w.extractLsb' 8 4) (w.extractLsb' 4 4) (w.extractLsb' 0 4)
    else
      if w.extractLsb' 8 4 = 0 then .mra cond (w.extractLsb' 16 4) (w.extractLsb' 12 4) (w.extractLsb' 3 5) (w.extractLsb' 0 3)
      else .mrrc cond (w.extractLsb' 16 4) (w.extractLsb' 12 4) (w.extractLsb' 8 4) (w.extractLsb' 4 4) (w.extractLsb' 0 4)
  else if w.getLsbD 20 then
    if w.extractLsb' 8 4 = 14 then .ldcP14 cond (w.getLsbD 24) (w.getLsbD 23) (w.getLsbD 22) (w.getLsbD 21) (w.extractLsb' 16 4) (w.extractLsb' 12 4) (w.extractLsb' 0 8)
    else .ldc cond (w.getLsbD 24) (w.getLsbD 23) (w.getLsbD 22) (w.getLsbD 21) (w.extractLsb' 16 4) (w.extractLsb' 12 4) (w.extractLsb' 8 4) (w.extractLsb' 0 8)
  else
    if w.extractLsb' 8 4 = 14 then .stcP14 cond (w.getLsbD 24) (w.getLsbD 23) (w.getLsbD 22) (w.getLsbD 21) (w.extractLsb' 16 4) (w.extractLsb' 12 4) (w.extractLsb' 0 8)
    else .stc cond (w.getLsbD 24) (w.getLsbD 23) (w.getLsbD 22) (w.getLsbD 21) (w.extractLsb' 16 4) (w.extractLsb' 12 4) (w.extractLsb' 8 4) (w.extractLsb' 0 8)

/-- Data processing, immediate shift (`30_encoding` R454 line 14). -/
def decodeDpShImm (cond : Cond) (w : Word) : Instr :=
  if w.extractLsb' 21 4 = 0 then .andShImm cond (w.getLsbD 20) (w.extractLsb' 16 4) (w.extractLsb' 12 4) (w.extractLsb' 7 5) (w.extractLsb' 5 2) (w.extractLsb' 0 4)
  else if w.extractLsb' 21 4 = 1 then .eorShImm cond (w.getLsbD 20) (w.extractLsb' 16 4) (w.extractLsb' 12 4) (w.extractLsb' 7 5) (w.extractLsb' 5 2) (w.extractLsb' 0 4)
  else if w.extractLsb' 21 4 = 2 then .subShImm cond (w.getLsbD 20) (w.extractLsb' 16 4) (w.extractLsb' 12 4) (w.extractLsb' 7 5) (w.extractLsb' 5 2) (w.extractLsb' 0 4)
  else if w.extractLsb' 21 4 = 3 then .rsbShImm cond (w.getLsbD 20) (w.extractLsb' 16 4) (w.extractLsb' 12 4) (w.extractLsb' 7 5) (w.extractLsb' 5 2) (w.extractLsb' 0 4)
  else if w.extractLsb' 21 4 = 4 then .addShImm cond (w.getLsbD 20) (w.extractLsb' 16 4) (w.extractLsb' 12 4) (w.extractLsb' 7 5) (w.extractLsb' 5 2) (w.extractLsb' 0 4)
  else if w.extractLsb' 21 4 = 5 then .adcShImm cond (w.getLsbD 20) (w.extractLsb' 16 4) (w.extractLsb' 12 4) (w.extractLsb' 7 5) (w.extractLsb' 5 2) (w.extractLsb' 0 4)
  else if w.extractLsb' 21 4 = 6 then .sbcShImm cond (w.getLsbD 20) (w.extractLsb' 16 4) (w.extractLsb' 12 4) (w.extractLsb' 7 5) (w.extractLsb' 5 2) (w.extractLsb' 0 4)
  else if w.extractLsb' 21 4 = 7 then .rscShImm cond (w.getLsbD 20) (w.extractLsb' 16 4) (w.extractLsb' 12 4) (w.extractLsb' 7 5) (w.extractLsb' 5 2) (w.extractLsb' 0 4)
  else if w.extractLsb' 21 4 = 8 then .tstShImm cond (w.extractLsb' 16 4) (w.extractLsb' 12 4) (w.extractLsb' 7 5) (w.extractLsb' 5 2) (w.extractLsb' 0 4)
  else if w.extractLsb' 21 4 = 9 then .teqShImm cond (w.extractLsb' 16 4) (w.extractLsb' 12 4) (w.extractLsb' 7 5) (w.extractLsb' 5 2) (w.extractLsb' 0 4)
  else if w.extractLsb' 21 4 = 10 then .cmpShImm cond (w.extractLsb' 16 4) (w.extractLsb' 12 4) (w.extractLsb' 7 5) (w.extractLsb' 5 2) (w.extractLsb' 0 4)
  else if w.extractLsb' 21 4 = 11 then .cmnShImm cond (w.extractLsb' 16 4) (w.extractLsb' 12 4) (w.extractLsb' 7 5) (w.extractLsb' 5 2) (w.extractLsb' 0 4)
  else if w.extractLsb' 21 4 = 12 then .orrShImm cond (w.getLsbD 20) (w.extractLsb' 16 4) (w.extractLsb' 12 4) (w.extractLsb' 7 5) (w.extractLsb' 5 2) (w.extractLsb' 0 4)
  else if w.extractLsb' 21 4 = 13 then .movShImm cond (w.getLsbD 20) (w.extractLsb' 16 4) (w.extractLsb' 12 4) (w.extractLsb' 7 5) (w.extractLsb' 5 2) (w.extractLsb' 0 4)
  else if w.extractLsb' 21 4 = 14 then .bicShImm cond (w.getLsbD 20) (w.extractLsb' 16 4) (w.extractLsb' 12 4) (w.extractLsb' 7 5) (w.extractLsb' 5 2) (w.extractLsb' 0 4)
  else .mvnShImm cond (w.getLsbD 20) (w.extractLsb' 16 4) (w.extractLsb' 12 4) (w.extractLsb' 7 5) (w.extractLsb' 5 2) (w.extractLsb' 0 4)

/-- Data processing, register shift (`30_encoding` R454 line 15). -/
def decodeDpShReg (cond : Cond) (w : Word) : Instr :=
  if w.extractLsb' 21 4 = 0 then .andShReg cond (w.getLsbD 20) (w.extractLsb' 16 4) (w.extractLsb' 12 4) (w.extractLsb' 8 4) (w.extractLsb' 5 2) (w.extractLsb' 0 4)
  else if w.extractLsb' 21 4 = 1 then .eorShReg cond (w.getLsbD 20) (w.extractLsb' 16 4) (w.extractLsb' 12 4) (w.extractLsb' 8 4) (w.extractLsb' 5 2) (w.extractLsb' 0 4)
  else if w.extractLsb' 21 4 = 2 then .subShReg cond (w.getLsbD 20) (w.extractLsb' 16 4) (w.extractLsb' 12 4) (w.extractLsb' 8 4) (w.extractLsb' 5 2) (w.extractLsb' 0 4)
  else if w.extractLsb' 21 4 = 3 then .rsbShReg cond (w.getLsbD 20) (w.extractLsb' 16 4) (w.extractLsb' 12 4) (w.extractLsb' 8 4) (w.extractLsb' 5 2) (w.extractLsb' 0 4)
  else if w.extractLsb' 21 4 = 4 then .addShReg cond (w.getLsbD 20) (w.extractLsb' 16 4) (w.extractLsb' 12 4) (w.extractLsb' 8 4) (w.extractLsb' 5 2) (w.extractLsb' 0 4)
  else if w.extractLsb' 21 4 = 5 then .adcShReg cond (w.getLsbD 20) (w.extractLsb' 16 4) (w.extractLsb' 12 4) (w.extractLsb' 8 4) (w.extractLsb' 5 2) (w.extractLsb' 0 4)
  else if w.extractLsb' 21 4 = 6 then .sbcShReg cond (w.getLsbD 20) (w.extractLsb' 16 4) (w.extractLsb' 12 4) (w.extractLsb' 8 4) (w.extractLsb' 5 2) (w.extractLsb' 0 4)
  else if w.extractLsb' 21 4 = 7 then .rscShReg cond (w.getLsbD 20) (w.extractLsb' 16 4) (w.extractLsb' 12 4) (w.extractLsb' 8 4) (w.extractLsb' 5 2) (w.extractLsb' 0 4)
  else if w.extractLsb' 21 4 = 8 then .tstShReg cond (w.extractLsb' 16 4) (w.extractLsb' 12 4) (w.extractLsb' 8 4) (w.extractLsb' 5 2) (w.extractLsb' 0 4)
  else if w.extractLsb' 21 4 = 9 then .teqShReg cond (w.extractLsb' 16 4) (w.extractLsb' 12 4) (w.extractLsb' 8 4) (w.extractLsb' 5 2) (w.extractLsb' 0 4)
  else if w.extractLsb' 21 4 = 10 then .cmpShReg cond (w.extractLsb' 16 4) (w.extractLsb' 12 4) (w.extractLsb' 8 4) (w.extractLsb' 5 2) (w.extractLsb' 0 4)
  else if w.extractLsb' 21 4 = 11 then .cmnShReg cond (w.extractLsb' 16 4) (w.extractLsb' 12 4) (w.extractLsb' 8 4) (w.extractLsb' 5 2) (w.extractLsb' 0 4)
  else if w.extractLsb' 21 4 = 12 then .orrShReg cond (w.getLsbD 20) (w.extractLsb' 16 4) (w.extractLsb' 12 4) (w.extractLsb' 8 4) (w.extractLsb' 5 2) (w.extractLsb' 0 4)
  else if w.extractLsb' 21 4 = 13 then .movShReg cond (w.getLsbD 20) (w.extractLsb' 16 4) (w.extractLsb' 12 4) (w.extractLsb' 8 4) (w.extractLsb' 5 2) (w.extractLsb' 0 4)
  else if w.extractLsb' 21 4 = 14 then .bicShReg cond (w.getLsbD 20) (w.extractLsb' 16 4) (w.extractLsb' 12 4) (w.extractLsb' 8 4) (w.extractLsb' 5 2) (w.extractLsb' 0 4)
  else .mvnShReg cond (w.getLsbD 20) (w.extractLsb' 16 4) (w.extractLsb' 12 4) (w.extractLsb' 8 4) (w.extractLsb' 5 2) (w.extractLsb' 0 4)

/-- Data processing, immediate (`30_encoding` R454 line 18). -/
def decodeDpImm (cond : Cond) (w : Word) : Instr :=
  if w.extractLsb' 21 4 = 0 then .andImm cond (w.getLsbD 20) (w.extractLsb' 16 4) (w.extractLsb' 12 4) (w.extractLsb' 8 4) (w.extractLsb' 0 8)
  else if w.extractLsb' 21 4 = 1 then .eorImm cond (w.getLsbD 20) (w.extractLsb' 16 4) (w.extractLsb' 12 4) (w.extractLsb' 8 4) (w.extractLsb' 0 8)
  else if w.extractLsb' 21 4 = 2 then .subImm cond (w.getLsbD 20) (w.extractLsb' 16 4) (w.extractLsb' 12 4) (w.extractLsb' 8 4) (w.extractLsb' 0 8)
  else if w.extractLsb' 21 4 = 3 then .rsbImm cond (w.getLsbD 20) (w.extractLsb' 16 4) (w.extractLsb' 12 4) (w.extractLsb' 8 4) (w.extractLsb' 0 8)
  else if w.extractLsb' 21 4 = 4 then .addImm cond (w.getLsbD 20) (w.extractLsb' 16 4) (w.extractLsb' 12 4) (w.extractLsb' 8 4) (w.extractLsb' 0 8)
  else if w.extractLsb' 21 4 = 5 then .adcImm cond (w.getLsbD 20) (w.extractLsb' 16 4) (w.extractLsb' 12 4) (w.extractLsb' 8 4) (w.extractLsb' 0 8)
  else if w.extractLsb' 21 4 = 6 then .sbcImm cond (w.getLsbD 20) (w.extractLsb' 16 4) (w.extractLsb' 12 4) (w.extractLsb' 8 4) (w.extractLsb' 0 8)
  else if w.extractLsb' 21 4 = 7 then .rscImm cond (w.getLsbD 20) (w.extractLsb' 16 4) (w.extractLsb' 12 4) (w.extractLsb' 8 4) (w.extractLsb' 0 8)
  else if w.extractLsb' 21 4 = 8 then .tstImm cond (w.extractLsb' 16 4) (w.extractLsb' 12 4) (w.extractLsb' 8 4) (w.extractLsb' 0 8)
  else if w.extractLsb' 21 4 = 9 then .teqImm cond (w.extractLsb' 16 4) (w.extractLsb' 12 4) (w.extractLsb' 8 4) (w.extractLsb' 0 8)
  else if w.extractLsb' 21 4 = 10 then .cmpImm cond (w.extractLsb' 16 4) (w.extractLsb' 12 4) (w.extractLsb' 8 4) (w.extractLsb' 0 8)
  else if w.extractLsb' 21 4 = 11 then .cmnImm cond (w.extractLsb' 16 4) (w.extractLsb' 12 4) (w.extractLsb' 8 4) (w.extractLsb' 0 8)
  else if w.extractLsb' 21 4 = 12 then .orrImm cond (w.getLsbD 20) (w.extractLsb' 16 4) (w.extractLsb' 12 4) (w.extractLsb' 8 4) (w.extractLsb' 0 8)
  else if w.extractLsb' 21 4 = 13 then .movImm cond (w.getLsbD 20) (w.extractLsb' 16 4) (w.extractLsb' 12 4) (w.extractLsb' 8 4) (w.extractLsb' 0 8)
  else if w.extractLsb' 21 4 = 14 then .bicImm cond (w.getLsbD 20) (w.extractLsb' 16 4) (w.extractLsb' 12 4) (w.extractLsb' 8 4) (w.extractLsb' 0 8)
  else .mvnImm cond (w.getLsbD 20) (w.extractLsb' 16 4) (w.extractLsb' 12 4) (w.extractLsb' 8 4) (w.extractLsb' 0 8)

/-- Bits [27:25] = 000 and bits [7:4] = 1001: the multiplies and SWP (`30_encoding` R454 lines 1 to
3a). -/
def decodeMultiply (cond : Cond) (w : Word) : Instr :=
  if w.getLsbD 24 = false then
    if w.getLsbD 23 = false then
      if w.getLsbD 22 = false then
        if w.getLsbD 21 = false then .mul cond (w.getLsbD 20) (w.extractLsb' 16 4) (w.extractLsb' 12 4) (w.extractLsb' 8 4) (w.extractLsb' 0 4)
        else .mla cond (w.getLsbD 20) (w.extractLsb' 16 4) (w.extractLsb' 12 4) (w.extractLsb' 8 4) (w.extractLsb' 0 4)
      else .undefExt cond (w.extractLsb' 8 17) (w.extractLsb' 0 4)
    else if w.getLsbD 22 = false then
      if w.getLsbD 21 = false then .umull cond (w.getLsbD 20) (w.extractLsb' 16 4) (w.extractLsb' 12 4) (w.extractLsb' 8 4) (w.extractLsb' 0 4)
      else .umlal cond (w.getLsbD 20) (w.extractLsb' 16 4) (w.extractLsb' 12 4) (w.extractLsb' 8 4) (w.extractLsb' 0 4)
    else
      if w.getLsbD 21 = false then .smull cond (w.getLsbD 20) (w.extractLsb' 16 4) (w.extractLsb' 12 4) (w.extractLsb' 8 4) (w.extractLsb' 0 4)
      else .smlal cond (w.getLsbD 20) (w.extractLsb' 16 4) (w.extractLsb' 12 4) (w.extractLsb' 8 4) (w.extractLsb' 0 4)
  else if w.getLsbD 23 = false ∧ w.getLsbD 21 = false ∧ w.getLsbD 20 = false then
    if w.getLsbD 22 = false then .swp cond (w.extractLsb' 16 4) (w.extractLsb' 12 4) (w.extractLsb' 8 4) (w.extractLsb' 0 4)
    else .swpb cond (w.extractLsb' 16 4) (w.extractLsb' 12 4) (w.extractLsb' 8 4) (w.extractLsb' 0 4)
  else .undefExt cond (w.extractLsb' 8 17) (w.extractLsb' 0 4)

/-- Bits [27:25] = 000 and bits [7:4] = 1011, 1101 or 1111: halfword, signed and doubleword loads and
stores (`30_encoding` R454 line 4), `low` being bits [7:4]. -/
def decodeExtraMemory (cond : Cond) (w : Word) (low : BitVec 4) : Instr :=
  if w.getLsbD 20 = false then
    if low = 0b1011 then .strh cond (w.getLsbD 24) (w.getLsbD 23) (w.getLsbD 22) (w.getLsbD 21) (w.extractLsb' 16 4) (w.extractLsb' 12 4) (w.extractLsb' 8 4) (w.extractLsb' 0 4)
    else if low = 0b1101 then .ldrd cond (w.getLsbD 24) (w.getLsbD 23) (w.getLsbD 22) (w.getLsbD 21) (w.extractLsb' 16 4) (w.extractLsb' 12 4) (w.extractLsb' 8 4) (w.extractLsb' 0 4)
    else .strd cond (w.getLsbD 24) (w.getLsbD 23) (w.getLsbD 22) (w.getLsbD 21) (w.extractLsb' 16 4) (w.extractLsb' 12 4) (w.extractLsb' 8 4) (w.extractLsb' 0 4)
  else
    if low = 0b1011 then .ldrh cond (w.getLsbD 24) (w.getLsbD 23) (w.getLsbD 22) (w.getLsbD 21) (w.extractLsb' 16 4) (w.extractLsb' 12 4) (w.extractLsb' 8 4) (w.extractLsb' 0 4)
    else if low = 0b1101 then .ldrsb cond (w.getLsbD 24) (w.getLsbD 23) (w.getLsbD 22) (w.getLsbD 21) (w.extractLsb' 16 4) (w.extractLsb' 12 4) (w.extractLsb' 8 4) (w.extractLsb' 0 4)
    else .ldrsh cond (w.getLsbD 24) (w.getLsbD 23) (w.getLsbD 22) (w.getLsbD 21) (w.extractLsb' 16 4) (w.extractLsb' 12 4) (w.extractLsb' 8 4) (w.extractLsb' 0 4)

/-- Bits [27:20] = 0001 0xx0 (`30_encoding` R454 lines 5 to 13). The four low bits are read one by
one because the x and y bits of the DSP multiplies stand among them. -/
def decodeMisc (cond : Cond) (w : Word) : Instr :=
  if w.getLsbD 7 then
    if w.getLsbD 4 = false then
      if w.getLsbD 22 = false then
        if w.getLsbD 21 = false then .smlaXY cond (w.extractLsb' 16 4) (w.extractLsb' 12 4) (w.extractLsb' 8 4) (w.getLsbD 6) (w.getLsbD 5) (w.extractLsb' 0 4)
        else if w.getLsbD 5 = false then .smlawY cond (w.extractLsb' 16 4) (w.extractLsb' 12 4) (w.extractLsb' 8 4) (w.getLsbD 6) (w.extractLsb' 0 4)
        else .smulwY cond (w.extractLsb' 16 4) (w.extractLsb' 12 4) (w.extractLsb' 8 4) (w.getLsbD 6) (w.extractLsb' 0 4)
      else if w.getLsbD 21 = false then .smlalXY cond (w.extractLsb' 16 4) (w.extractLsb' 12 4) (w.extractLsb' 8 4) (w.getLsbD 6) (w.getLsbD 5) (w.extractLsb' 0 4)
      else .smulXY cond (w.extractLsb' 16 4) (w.extractLsb' 12 4) (w.extractLsb' 8 4) (w.getLsbD 6) (w.getLsbD 5) (w.extractLsb' 0 4)
    else .undefMisc cond (w.extractLsb' 21 2) (w.extractLsb' 0 20)
  else if w.getLsbD 6 = false then
    if w.getLsbD 5 = false then
      if w.getLsbD 4 = false then
        if w.getLsbD 21 = false then .mrs cond (w.getLsbD 22) (w.extractLsb' 16 4) (w.extractLsb' 12 4) (w.extractLsb' 8 4) (w.extractLsb' 0 4)
        else .msrReg cond (w.getLsbD 22) (w.extractLsb' 16 4) (w.extractLsb' 8 8) (w.extractLsb' 0 4)
      else if w.getLsbD 21 = false then .undefMisc cond (w.extractLsb' 21 2) (w.extractLsb' 0 20)
      else if w.getLsbD 22 = false then .bx cond (w.extractLsb' 8 12) (w.extractLsb' 0 4)
      else .clz cond (w.extractLsb' 16 4) (w.extractLsb' 12 4) (w.extractLsb' 8 4) (w.extractLsb' 0 4)
    else if w.getLsbD 4 ∧ w.getLsbD 22 = false ∧ w.getLsbD 21 then .blxReg cond (w.extractLsb' 8 12) (w.extractLsb' 0 4)
    else .undefMisc cond (w.extractLsb' 21 2) (w.extractLsb' 0 20)
  else if w.getLsbD 5 = false then
    if w.getLsbD 4 = false then .undefMisc cond (w.extractLsb' 21 2) (w.extractLsb' 0 20)
    else if w.getLsbD 22 = false then
      if w.getLsbD 21 = false then .qadd cond (w.extractLsb' 16 4) (w.extractLsb' 12 4) (w.extractLsb' 8 4) (w.extractLsb' 0 4)
      else .qsub cond (w.extractLsb' 16 4) (w.extractLsb' 12 4) (w.extractLsb' 8 4) (w.extractLsb' 0 4)
    else
      if w.getLsbD 21 = false then .qdadd cond (w.extractLsb' 16 4) (w.extractLsb' 12 4) (w.extractLsb' 8 4) (w.extractLsb' 0 4)
      else .qdsub cond (w.extractLsb' 16 4) (w.extractLsb' 12 4) (w.extractLsb' 8 4) (w.extractLsb' 0 4)
  else if w.getLsbD 4 ∧ w.getLsbD 22 = false ∧ w.getLsbD 21 then .bkpt cond (w.extractLsb' 8 12) (w.extractLsb' 0 4)
  else .undefMisc cond (w.extractLsb' 21 2) (w.extractLsb' 0 20)

/-- Bits [27:25] = 000 (`30_encoding` R454 lines 1 to 15). -/
def decodeGroup0 (cond : Cond) (w : Word) : Instr :=
  if w.getLsbD 7 ∧ w.getLsbD 4 then
    if w.getLsbD 6 = false ∧ w.getLsbD 5 = false then decodeMultiply cond w
    else decodeExtraMemory cond w (w.extractLsb' 4 4)
  else if w.getLsbD 24 ∧ w.getLsbD 23 = false ∧ w.getLsbD 20 = false then decodeMisc cond w
  else if w.getLsbD 4 then decodeDpShReg cond w
  else decodeDpShImm cond w

/-- Bits [27:25] = 001 (`30_encoding` R454 lines 16 to 18). -/
def decodeGroup1 (cond : Cond) (w : Word) : Instr :=
  if w.getLsbD 24 ∧ w.getLsbD 23 = false ∧ w.getLsbD 20 = false then
    if w.getLsbD 21 then .msrImm cond (w.getLsbD 22) (w.extractLsb' 16 4) (w.extractLsb' 12 4) (w.extractLsb' 8 4) (w.extractLsb' 0 8)
    else .undefImm cond (w.getLsbD 22) (w.extractLsb' 0 20)
  else decodeDpImm cond w

/-- Bits [27:25] = 010 (`30_encoding` R454 line 19). -/
def decodeGroup2 (cond : Cond) (w : Word) : Instr :=
  if w.getLsbD 24 = false ∧ w.getLsbD 21 then
    if w.getLsbD 20 then
      if w.getLsbD 22 = false then .ldrtImm cond (w.getLsbD 23) (w.extractLsb' 16 4) (w.extractLsb' 12 4) (w.extractLsb' 0 12)
      else .ldrbtImm cond (w.getLsbD 23) (w.extractLsb' 16 4) (w.extractLsb' 12 4) (w.extractLsb' 0 12)
    else
      if w.getLsbD 22 = false then .strtImm cond (w.getLsbD 23) (w.extractLsb' 16 4) (w.extractLsb' 12 4) (w.extractLsb' 0 12)
      else .strbtImm cond (w.getLsbD 23) (w.extractLsb' 16 4) (w.extractLsb' 12 4) (w.extractLsb' 0 12)
  else
    if w.getLsbD 20 then
      if w.getLsbD 22 = false then .ldrImm cond (w.getLsbD 24) (w.getLsbD 23) (w.getLsbD 21) (w.extractLsb' 16 4) (w.extractLsb' 12 4) (w.extractLsb' 0 12)
      else .ldrbImm cond (w.getLsbD 24) (w.getLsbD 23) (w.getLsbD 21) (w.extractLsb' 16 4) (w.extractLsb' 12 4) (w.extractLsb' 0 12)
    else
      if w.getLsbD 22 = false then .strImm cond (w.getLsbD 24) (w.getLsbD 23) (w.getLsbD 21) (w.extractLsb' 16 4) (w.extractLsb' 12 4) (w.extractLsb' 0 12)
      else .strbImm cond (w.getLsbD 24) (w.getLsbD 23) (w.getLsbD 21) (w.extractLsb' 16 4) (w.extractLsb' 12 4) (w.extractLsb' 0 12)

/-- Bits [27:25] = 011 (`30_encoding` R454 lines 20 and 21). -/
def decodeGroup3 (cond : Cond) (w : Word) : Instr :=
  if w.getLsbD 4 then .undefMedia cond (w.extractLsb' 5 20) (w.extractLsb' 0 4)
  else if w.getLsbD 24 = false ∧ w.getLsbD 21 then
    if w.getLsbD 20 then
      if w.getLsbD 22 = false then .ldrtReg cond (w.getLsbD 23) (w.extractLsb' 16 4) (w.extractLsb' 12 4) (w.extractLsb' 7 5) (w.extractLsb' 5 2) (w.extractLsb' 0 4)
      else .ldrbtReg cond (w.getLsbD 23) (w.extractLsb' 16 4) (w.extractLsb' 12 4) (w.extractLsb' 7 5) (w.extractLsb' 5 2) (w.extractLsb' 0 4)
    else
      if w.getLsbD 22 = false then .strtReg cond (w.getLsbD 23) (w.extractLsb' 16 4) (w.extractLsb' 12 4) (w.extractLsb' 7 5) (w.extractLsb' 5 2) (w.extractLsb' 0 4)
      else .strbtReg cond (w.getLsbD 23) (w.extractLsb' 16 4) (w.extractLsb' 12 4) (w.extractLsb' 7 5) (w.extractLsb' 5 2) (w.extractLsb' 0 4)
  else
    if w.getLsbD 20 then
      if w.getLsbD 22 = false then .ldrReg cond (w.getLsbD 24) (w.getLsbD 23) (w.getLsbD 21) (w.extractLsb' 16 4) (w.extractLsb' 12 4) (w.extractLsb' 7 5) (w.extractLsb' 5 2) (w.extractLsb' 0 4)
      else .ldrbReg cond (w.getLsbD 24) (w.getLsbD 23) (w.getLsbD 21) (w.extractLsb' 16 4) (w.extractLsb' 12 4) (w.extractLsb' 7 5) (w.extractLsb' 5 2) (w.extractLsb' 0 4)
    else
      if w.getLsbD 22 = false then .strReg cond (w.getLsbD 24) (w.getLsbD 23) (w.getLsbD 21) (w.extractLsb' 16 4) (w.extractLsb' 12 4) (w.extractLsb' 7 5) (w.extractLsb' 5 2) (w.extractLsb' 0 4)
      else .strbReg cond (w.getLsbD 24) (w.getLsbD 23) (w.getLsbD 21) (w.extractLsb' 16 4) (w.extractLsb' 12 4) (w.extractLsb' 7 5) (w.extractLsb' 5 2) (w.extractLsb' 0 4)

/-- Bits [27:25] = 100 (`30_encoding` R454 line 22). -/
def decodeGroup4 (cond : Cond) (w : Word) : Instr :=
  if w.getLsbD 22 = false then
    if w.getLsbD 20 then .ldm cond (w.getLsbD 24) (w.getLsbD 23) (w.getLsbD 21) (w.extractLsb' 16 4) (w.extractLsb' 0 16)
    else .stm cond (w.getLsbD 24) (w.getLsbD 23) (w.getLsbD 21) (w.extractLsb' 16 4) (w.extractLsb' 0 16)
  else if w.getLsbD 20 then
    if w.getLsbD 15 = false then .ldmUser cond (w.getLsbD 24) (w.getLsbD 23) (w.getLsbD 21) (w.extractLsb' 16 4) (w.extractLsb' 0 15)
    else .ldmReturn cond (w.getLsbD 24) (w.getLsbD 23) (w.getLsbD 21) (w.extractLsb' 16 4) (w.extractLsb' 0 15)
  else .stmUser cond (w.getLsbD 24) (w.getLsbD 23) (w.getLsbD 21) (w.extractLsb' 16 4) (w.extractLsb' 0 16)

/-- The words with a condition (`30_encoding` R454). -/
def decodeConditional (cond : Cond) (w : Word) : Instr :=
  if w.extractLsb' 25 3 = 0b000 then decodeGroup0 cond w
  else if w.extractLsb' 25 3 = 0b001 then decodeGroup1 cond w
  else if w.extractLsb' 25 3 = 0b010 then decodeGroup2 cond w
  else if w.extractLsb' 25 3 = 0b011 then decodeGroup3 cond w
  else if w.extractLsb' 25 3 = 0b100 then decodeGroup4 cond w
  else if w.extractLsb' 25 3 = 0b101 then
    if w.getLsbD 24 = false then .b cond (w.extractLsb' 0 24)
    else .bl cond (w.extractLsb' 0 24)
  else if w.extractLsb' 25 3 = 0b110 then decodeCpMemory cond w
  else if w.getLsbD 24 = false then decodeCpRegister cond w
  else .swi cond (w.extractLsb' 0 24)

/-- The words with bits [31:28] = 1111 (`30_encoding` R453). -/
def decodeUnconditional (w : Word) : Instr :=
  if w.getLsbD 27 then
    if w.getLsbD 26 = false then
      if w.getLsbD 25 then .blxImm (w.getLsbD 24) (w.extractLsb' 0 24)
      else .undefUncond (w.extractLsb' 0 28)
    else if w.getLsbD 25 = false then
      if w.getLsbD 20 then .ldc2 (w.getLsbD 24) (w.getLsbD 23) (w.getLsbD 22) (w.getLsbD 21) (w.extractLsb' 16 4) (w.extractLsb' 12 4) (w.extractLsb' 8 4) (w.extractLsb' 0 8)
      else .stc2 (w.getLsbD 24) (w.getLsbD 23) (w.getLsbD 22) (w.getLsbD 21) (w.extractLsb' 16 4) (w.extractLsb' 12 4) (w.extractLsb' 8 4) (w.extractLsb' 0 8)
    else if w.getLsbD 24 = false then
      if w.getLsbD 4 = false then .cdp2 (w.extractLsb' 20 4) (w.extractLsb' 16 4) (w.extractLsb' 12 4) (w.extractLsb' 8 4) (w.extractLsb' 5 3) (w.extractLsb' 0 4)
      else if w.getLsbD 20 = false then .mcr2 (w.extractLsb' 21 3) (w.extractLsb' 16 4) (w.extractLsb' 12 4) (w.extractLsb' 8 4) (w.extractLsb' 5 3) (w.extractLsb' 0 4)
      else .mrc2 (w.extractLsb' 21 3) (w.extractLsb' 16 4) (w.extractLsb' 12 4) (w.extractLsb' 8 4) (w.extractLsb' 5 3) (w.extractLsb' 0 4)
    else .undefUncond (w.extractLsb' 0 28)
  else if w.getLsbD 26 ∧ w.getLsbD 24 ∧ w.getLsbD 22 ∧ w.getLsbD 21 = false ∧ w.getLsbD 20 then
    if w.extractLsb' 12 4 = 0b1111 then
      if w.getLsbD 25 = false then .pldImm (w.getLsbD 23) (w.extractLsb' 16 4) (w.extractLsb' 0 12)
      else if w.getLsbD 4 = false then .pldReg (w.getLsbD 23) (w.extractLsb' 16 4) (w.extractLsb' 7 5) (w.extractLsb' 5 2) (w.extractLsb' 0 4)
      else .undefUncond (w.extractLsb' 0 28)
    else .undefUncond (w.extractLsb' 0 28)
  else .undefUncond (w.extractLsb' 0 28)

/-- The instruction of an ARM word; every word has one (`30_encoding` R453, R454). -/
def decodeArm (w : Word) : Instr :=
  match Cond.ofBits (w.extractLsb' 28 4) with
  | some cond => decodeConditional cond w
  | none => decodeUnconditional w

/-- Bits [15:10] = 010000 (`30_encoding` R463 T4). -/
def decodeThumbAlu (w : Half) : Instr :=
  if w.extractLsb' 6 4 = 0b0000 then .tAnd (w.extractLsb' 3 3) (w.extractLsb' 0 3)
  else if w.extractLsb' 6 4 = 0b0001 then .tEor (w.extractLsb' 3 3) (w.extractLsb' 0 3)
  else if w.extractLsb' 6 4 = 0b0010 then .tLslReg (w.extractLsb' 3 3) (w.extractLsb' 0 3)
  else if w.extractLsb' 6 4 = 0b0011 then .tLsrReg (w.extractLsb' 3 3) (w.extractLsb' 0 3)
  else if w.extractLsb' 6 4 = 0b0100 then .tAsrReg (w.extractLsb' 3 3) (w.extractLsb' 0 3)
  else if w.extractLsb' 6 4 = 0b0101 then .tAdc (w.extractLsb' 3 3) (w.extractLsb' 0 3)
  else if w.extractLsb' 6 4 = 0b0110 then .tSbc (w.extractLsb' 3 3) (w.extractLsb' 0 3)
  else if w.extractLsb' 6 4 = 0b0111 then .tRor (w.extractLsb' 3 3) (w.extractLsb' 0 3)
  else if w.extractLsb' 6 4 = 0b1000 then .tTst (w.extractLsb' 3 3) (w.extractLsb' 0 3)
  else if w.extractLsb' 6 4 = 0b1001 then .tNeg (w.extractLsb' 3 3) (w.extractLsb' 0 3)
  else if w.extractLsb' 6 4 = 0b1010 then .tCmpReg (w.extractLsb' 3 3) (w.extractLsb' 0 3)
  else if w.extractLsb' 6 4 = 0b1011 then .tCmn (w.extractLsb' 3 3) (w.extractLsb' 0 3)
  else if w.extractLsb' 6 4 = 0b1100 then .tOrr (w.extractLsb' 3 3) (w.extractLsb' 0 3)
  else if w.extractLsb' 6 4 = 0b1101 then .tMul (w.extractLsb' 3 3) (w.extractLsb' 0 3)
  else if w.extractLsb' 6 4 = 0b1110 then .tBic (w.extractLsb' 3 3) (w.extractLsb' 0 3)
  else .tMvn (w.extractLsb' 3 3) (w.extractLsb' 0 3)

/-- Bits [15:10] = 010001 (`30_encoding` R463 T5). -/
def decodeThumbHigh (w : Half) : Instr :=
  if w.extractLsb' 8 2 = 0b00 then .tAddHigh (w.getLsbD 7) (w.getLsbD 6) (w.extractLsb' 3 3) (w.extractLsb' 0 3)
  else if w.extractLsb' 8 2 = 0b01 then .tCmpHigh (w.getLsbD 7) (w.getLsbD 6) (w.extractLsb' 3 3) (w.extractLsb' 0 3)
  else if w.extractLsb' 8 2 = 0b10 then .tMovHigh (w.getLsbD 7) (w.getLsbD 6) (w.extractLsb' 3 3) (w.extractLsb' 0 3)
  else if w.getLsbD 7 = false then .tBx (w.getLsbD 6) (w.extractLsb' 3 3) (w.extractLsb' 0 3)
  else .tBlxReg (w.getLsbD 6) (w.extractLsb' 3 3) (w.extractLsb' 0 3)

/-- Bits [15:12] = 0101 (`30_encoding` R463 T7). -/
def decodeThumbRegOffset (w : Half) : Instr :=
  if w.extractLsb' 9 3 = 0b000 then .tStrReg (w.extractLsb' 6 3) (w.extractLsb' 3 3) (w.extractLsb' 0 3)
  else if w.extractLsb' 9 3 = 0b001 then .tStrhReg (w.extractLsb' 6 3) (w.extractLsb' 3 3) (w.extractLsb' 0 3)
  else if w.extractLsb' 9 3 = 0b010 then .tStrbReg (w.extractLsb' 6 3) (w.extractLsb' 3 3) (w.extractLsb' 0 3)
  else if w.extractLsb' 9 3 = 0b011 then .tLdrsbReg (w.extractLsb' 6 3) (w.extractLsb' 3 3) (w.extractLsb' 0 3)
  else if w.extractLsb' 9 3 = 0b100 then .tLdrReg (w.extractLsb' 6 3) (w.extractLsb' 3 3) (w.extractLsb' 0 3)
  else if w.extractLsb' 9 3 = 0b101 then .tLdrhReg (w.extractLsb' 6 3) (w.extractLsb' 3 3) (w.extractLsb' 0 3)
  else if w.extractLsb' 9 3 = 0b110 then .tLdrbReg (w.extractLsb' 6 3) (w.extractLsb' 3 3) (w.extractLsb' 0 3)
  else .tLdrshReg (w.extractLsb' 6 3) (w.extractLsb' 3 3) (w.extractLsb' 0 3)

/-- Bits [15:12] = 1011 (`30_encoding` R463 T12 to T14). -/
def decodeThumbMisc (w : Half) : Instr :=
  if w.getLsbD 11 = false ∧ w.getLsbD 10 = false ∧ w.getLsbD 9 = false ∧ w.getLsbD 8 = false then
    if w.getLsbD 7 = false then .tIncSp (w.extractLsb' 0 7)
    else .tDecSp (w.extractLsb' 0 7)
  else if w.getLsbD 10 ∧ w.getLsbD 9 = false then
    if w.getLsbD 11 = false then .tPush (w.getLsbD 8) (w.extractLsb' 0 8)
    else .tPop (w.getLsbD 8) (w.extractLsb' 0 8)
  else if w.getLsbD 11 ∧ w.getLsbD 10 ∧ w.getLsbD 8 = false then .tBkpt (w.extractLsb' 0 8)
  else .tUndef1011 (w.extractLsb' 0 12)

/-- Bits [15:12] = 1101 (`30_encoding` R463 T16, T17, R462). -/
def decodeThumbCond (w : Half) : Instr :=
  match Cond.ofBits (w.extractLsb' 8 4) with
  | none => .tSwi (w.extractLsb' 0 8)
  | some cond => if cond = .al then .tUndefCond (w.extractLsb' 0 8) else .tBCond cond (w.extractLsb' 0 8)

/-- The instruction of a Thumb halfword; every halfword has one (`30_encoding` R463). -/
def decodeThumb (w : Half) : Instr :=
  if w.extractLsb' 13 3 = 0b000 then
    if w.extractLsb' 11 2 = 0b00 then .tLslImm (w.extractLsb' 6 5) (w.extractLsb' 3 3) (w.extractLsb' 0 3)
    else if w.extractLsb' 11 2 = 0b01 then .tLsrImm (w.extractLsb' 6 5) (w.extractLsb' 3 3) (w.extractLsb' 0 3)
    else if w.extractLsb' 11 2 = 0b10 then .tAsrImm (w.extractLsb' 6 5) (w.extractLsb' 3 3) (w.extractLsb' 0 3)
    else if w.extractLsb' 9 2 = 0b00 then .tAddReg (w.extractLsb' 6 3) (w.extractLsb' 3 3) (w.extractLsb' 0 3)
    else if w.extractLsb' 9 2 = 0b01 then .tSubReg (w.extractLsb' 6 3) (w.extractLsb' 3 3) (w.extractLsb' 0 3)
    else if w.extractLsb' 9 2 = 0b10 then .tAddImm3 (w.extractLsb' 6 3) (w.extractLsb' 3 3) (w.extractLsb' 0 3)
    else .tSubImm3 (w.extractLsb' 6 3) (w.extractLsb' 3 3) (w.extractLsb' 0 3)
  else if w.extractLsb' 13 3 = 0b001 then
    if w.extractLsb' 11 2 = 0b00 then .tMovImm (w.extractLsb' 8 3) (w.extractLsb' 0 8)
    else if w.extractLsb' 11 2 = 0b01 then .tCmpImm (w.extractLsb' 8 3) (w.extractLsb' 0 8)
    else if w.extractLsb' 11 2 = 0b10 then .tAddImm8 (w.extractLsb' 8 3) (w.extractLsb' 0 8)
    else .tSubImm8 (w.extractLsb' 8 3) (w.extractLsb' 0 8)
  else if w.extractLsb' 13 3 = 0b010 then
    if w.getLsbD 12 then decodeThumbRegOffset w
    else if w.getLsbD 11 then .tLdrPc (w.extractLsb' 8 3) (w.extractLsb' 0 8)
    else if w.getLsbD 10 then decodeThumbHigh w
    else decodeThumbAlu w
  else if w.extractLsb' 13 3 = 0b011 then
    if w.extractLsb' 11 2 = 0b00 then .tStrImm (w.extractLsb' 6 5) (w.extractLsb' 3 3) (w.extractLsb' 0 3)
    else if w.extractLsb' 11 2 = 0b01 then .tLdrImm (w.extractLsb' 6 5) (w.extractLsb' 3 3) (w.extractLsb' 0 3)
    else if w.extractLsb' 11 2 = 0b10 then .tStrbImm (w.extractLsb' 6 5) (w.extractLsb' 3 3) (w.extractLsb' 0 3)
    else .tLdrbImm (w.extractLsb' 6 5) (w.extractLsb' 3 3) (w.extractLsb' 0 3)
  else if w.extractLsb' 13 3 = 0b100 then
    if w.extractLsb' 11 2 = 0b00 then .tStrhImm (w.extractLsb' 6 5) (w.extractLsb' 3 3) (w.extractLsb' 0 3)
    else if w.extractLsb' 11 2 = 0b01 then .tLdrhImm (w.extractLsb' 6 5) (w.extractLsb' 3 3) (w.extractLsb' 0 3)
    else if w.extractLsb' 11 2 = 0b10 then .tStrSp (w.extractLsb' 8 3) (w.extractLsb' 0 8)
    else .tLdrSp (w.extractLsb' 8 3) (w.extractLsb' 0 8)
  else if w.extractLsb' 13 3 = 0b101 then
    if w.getLsbD 12 then decodeThumbMisc w
    else if w.getLsbD 11 = false then .tAddPcImm (w.extractLsb' 8 3) (w.extractLsb' 0 8)
    else .tAddSpImm (w.extractLsb' 8 3) (w.extractLsb' 0 8)
  else if w.extractLsb' 13 3 = 0b110 then
    if w.getLsbD 12 then decodeThumbCond w
    else if w.getLsbD 11 = false then .tStmia (w.extractLsb' 8 3) (w.extractLsb' 0 8)
    else .tLdmia (w.extractLsb' 8 3) (w.extractLsb' 0 8)
  else if w.extractLsb' 11 2 = 0b00 then .tB (w.extractLsb' 0 11)
  else if w.extractLsb' 11 2 = 0b01 then
    if w.getLsbD 0 = false then .tBlxSuffix (w.extractLsb' 1 10)
    else .tUndefBlx (w.extractLsb' 1 10)
  else if w.extractLsb' 11 2 = 0b10 then .tBlPrefix (w.extractLsb' 0 11)
  else .tBlSuffix (w.extractLsb' 0 11)

/-- An instruction as it stands in memory: an ARM word or a Thumb halfword (`30_encoding` R450). -/
inductive Code where
  | arm (w : Word)
  | thumb (w : Half)
deriving DecidableEq, Repr

/-- The instruction a code unit stands for. -/
def decode : Code → Instr
  | .arm w => decodeArm w
  | .thumb w => decodeThumb w

/-- Read one instruction from the bytes at the program counter, the least significant byte first, in
Thumb state (`thumb`) or in ARM state; the rest of the bytes is given back. -/
def decodeBytes (thumb : Bool) : List Byte → Except Reject (Instr × List Byte)
  | b0 :: b1 :: rest =>
    if thumb then .ok (decodeThumb (b1 ++ b0), rest)
    else match rest with
      | b2 :: b3 :: rest => .ok (decodeArm (b3 ++ b2 ++ b1 ++ b0), rest)
      | _ => .error .truncated
  | _ => .error .truncated

/-- Byte `k` of a word, byte 0 the least significant. -/
def byteAt (w k : Nat) : Byte := BitVec.ofNat 8 (w / 2 ^ (8 * k))

/-- The instruction the decoder reads from the `nbits` low bits of `w`: 32 bits are an ARM word, 16
bits a Thumb halfword; no instruction has another length (`30_encoding` R450). -/
def decodeTableWord (nbits w : Nat) : Option Instr :=
  if nbits = 32 then
    match decodeBytes false [byteAt w 0, byteAt w 1, byteAt w 2, byteAt w 3] with
    | .ok (i, _) => some i
    | .error _ => none
  else if nbits = 16 then
    match decodeBytes true [byteAt w 0, byteAt w 1] with
    | .ok (i, _) => some i
    | .error _ => none
  else none

/-- Write the field `y` below the fields already written in `x`. -/
def put {n k : Nat} (y : BitVec k) (x : BitVec n) : BitVec n := x <<< k ||| y.setWidth n

/-- Write a one-bit field. -/
def putBit {n : Nat} (y : Bool) (x : BitVec n) : BitVec n := put (BitVec.ofBool y) x

/-- The word or halfword of an instruction: the fields of its row of the opcode table, written from
the most significant one down (`30_encoding` R455, R459, R460, R463). -/
def encode : Instr → Code
  | .pldImm uBit rn offset12 => .arm (0 |> put 0b11110101#8 |> putBit uBit |> put 0b101#3 |> put rn |> put 0b1111#4 |> put offset12)
  | .pldReg uBit rn shiftImm shift rm => .arm (0 |> put 0b11110111#8 |> putBit uBit |> put 0b101#3 |> put rn |> put 0b1111#4 |> put shiftImm |> put shift |> put 0b0#1 |> put rm)
  | .blxImm hBit signedImmed24 => .arm (0 |> put 0b1111101#7 |> putBit hBit |> put signedImmed24)
  | .ldc2 pBit uBit nBit wBit rn crd cpNum offset8 => .arm (0 |> put 0b1111110#7 |> putBit pBit |> putBit uBit |> putBit nBit |> putBit wBit |> put 0b1#1 |> put rn |> put crd |> put cpNum |> put offset8)
  | .stc2 pBit uBit nBit wBit rn crd cpNum offset8 => .arm (0 |> put 0b1111110#7 |> putBit pBit |> putBit uBit |> putBit nBit |> putBit wBit |> put 0b0#1 |> put rn |> put crd |> put cpNum |> put offset8)
  | .cdp2 opcode1 crn crd cpNum opcode2 crm => .arm (0 |> put 0b11111110#8 |> put opcode1 |> put crn |> put crd |> put cpNum |> put opcode2 |> put 0b0#1 |> put crm)
  | .mcr2 opcode1 crn rd cpNum opcode2 crm => .arm (0 |> put 0b11111110#8 |> put opcode1 |> put 0b0#1 |> put crn |> put rd |> put cpNum |> put opcode2 |> put 0b1#1 |> put crm)
  | .mrc2 opcode1 crn rd cpNum opcode2 crm => .arm (0 |> put 0b11111110#8 |> put opcode1 |> put 0b1#1 |> put crn |> put rd |> put cpNum |> put opcode2 |> put 0b1#1 |> put crm)
  | .undefUncond raw => .arm (0 |> put 0b1111#4 |> put raw)
  | .mul cond sBit rd sb rs rm => .arm (0 |> put cond.bits |> put 0b0000000#7 |> putBit sBit |> put rd |> put sb |> put rs |> put 0b1001#4 |> put rm)
  | .mla cond sBit rd rn rs rm => .arm (0 |> put cond.bits |> put 0b0000001#7 |> putBit sBit |> put rd |> put rn |> put rs |> put 0b1001#4 |> put rm)
  | .umull cond sBit rdHi rdLo rs rm => .arm (0 |> put cond.bits |> put 0b0000100#7 |> putBit sBit |> put rdHi |> put rdLo |> put rs |> put 0b1001#4 |> put rm)
  | .umlal cond sBit rdHi rdLo rs rm => .arm (0 |> put cond.bits |> put 0b0000101#7 |> putBit sBit |> put rdHi |> put rdLo |> put rs |> put 0b1001#4 |> put rm)
  | .smull cond sBit rdHi rdLo rs rm => .arm (0 |> put cond.bits |> put 0b0000110#7 |> putBit sBit |> put rdHi |> put rdLo |> put rs |> put 0b1001#4 |> put rm)
  | .smlal cond sBit rdHi rdLo rs rm => .arm (0 |> put cond.bits |> put 0b0000111#7 |> putBit sBit |> put rdHi |> put rdLo |> put rs |> put 0b1001#4 |> put rm)
  | .swp cond rn rd sb rm => .arm (0 |> put cond.bits |> put 0b00010000#8 |> put rn |> put rd |> put sb |> put 0b1001#4 |> put rm)
  | .swpb cond rn rd sb rm => .arm (0 |> put cond.bits |> put 0b00010100#8 |> put rn |> put rd |> put sb |> put 0b1001#4 |> put rm)
  | .undefExt cond raw1 raw2 => .arm (0 |> put cond.bits |> put 0b000#3 |> put raw1 |> put 0b1001#4 |> put raw2)
  | .strh cond pBit uBit iBit wBit rn rd addrHi addrLo => .arm (0 |> put cond.bits |> put 0b000#3 |> putBit pBit |> putBit uBit |> putBit iBit |> putBit wBit |> put 0b0#1 |> put rn |> put rd |> put addrHi |> put 0b1011#4 |> put addrLo)
  | .ldrd cond pBit uBit iBit wBit rn rd addrHi addrLo => .arm (0 |> put cond.bits |> put 0b000#3 |> putBit pBit |> putBit uBit |> putBit iBit |> putBit wBit |> put 0b0#1 |> put rn |> put rd |> put addrHi |> put 0b1101#4 |> put addrLo)
  | .strd cond pBit uBit iBit wBit rn rd addrHi addrLo => .arm (0 |> put cond.bits |> put 0b000#3 |> putBit pBit |> putBit uBit |> putBit iBit |> putBit wBit |> put 0b0#1 |> put rn |> put rd |> put addrHi |> put 0b1111#4 |> put addrLo)
  | .ldrh cond pBit uBit iBit wBit rn rd addrHi addrLo => .arm (0 |> put cond.bits |> put 0b000#3 |> putBit pBit |> putBit uBit |> putBit iBit |> putBit wBit |> put 0b1#1 |> put rn |> put rd |> put addrHi |> put 0b1011#4 |> put addrLo)
  | .ldrsb cond pBit uBit iBit wBit rn rd addrHi addrLo => .arm (0 |> put cond.bits |> put 0b000#3 |> putBit pBit |> putBit uBit |> putBit iBit |> putBit wBit |> put 0b1#1 |> put rn |> put rd |> put addrHi |> put 0b1101#4 |> put addrLo)
  | .ldrsh cond pBit uBit iBit wBit rn rd addrHi addrLo => .arm (0 |> put cond.bits |> put 0b000#3 |> putBit pBit |> putBit uBit |> putBit iBit |> putBit wBit |> put 0b1#1 |> put rn |> put rd |> put addrHi |> put 0b1111#4 |> put addrLo)
  | .mrs cond rBit sb1 rd sb2 sb3 => .arm (0 |> put cond.bits |> put 0b00010#5 |> putBit rBit |> put 0b00#2 |> put sb1 |> put rd |> put sb2 |> put 0b0000#4 |> put sb3)
  | .msrReg cond rBit fieldMask sb rm => .arm (0 |> put cond.bits |> put 0b00010#5 |> putBit rBit |> put 0b10#2 |> put fieldMask |> put sb |> put 0b0000#4 |> put rm)
  | .bx cond sb rm => .arm (0 |> put cond.bits |> put 0b00010010#8 |> put sb |> put 0b0001#4 |> put rm)
  | .blxReg cond sb rm => .arm (0 |> put cond.bits |> put 0b00010010#8 |> put sb |> put 0b0011#4 |> put rm)
  | .clz cond sb1 rd sb2 rm => .arm (0 |> put cond.bits |> put 0b00010110#8 |> put sb1 |> put rd |> put sb2 |> put 0b0001#4 |> put rm)
  | .qadd cond rn rd sb rm => .arm (0 |> put cond.bits |> put 0b00010000#8 |> put rn |> put rd |> put sb |> put 0b0101#4 |> put rm)
  | .qsub cond rn rd sb rm => .arm (0 |> put cond.bits |> put 0b00010010#8 |> put rn |> put rd |> put sb |> put 0b0101#4 |> put rm)
  | .qdadd cond rn rd sb rm => .arm (0 |> put cond.bits |> put 0b00010100#8 |> put rn |> put rd |> put sb |> put 0b0101#4 |> put rm)
  | .qdsub cond rn rd sb rm => .arm (0 |> put cond.bits |> put 0b00010110#8 |> put rn |> put rd |> put sb |> put 0b0101#4 |> put rm)
  | .bkpt cond immedHi immedLo => .arm (0 |> put cond.bits |> put 0b00010010#8 |> put immedHi |> put 0b0111#4 |> put immedLo)
  | .smlaXY cond rd rn rs yBit xBit rm => .arm (0 |> put cond.bits |> put 0b00010000#8 |> put rd |> put rn |> put rs |> put 0b1#1 |> putBit yBit |> putBit xBit |> put 0b0#1 |> put rm)
  | .smlawY cond rd rn rs yBit rm => .arm (0 |> put cond.bits |> put 0b00010010#8 |> put rd |> put rn |> put rs |> put 0b1#1 |> putBit yBit |> put 0b00#2 |> put rm)
  | .smulwY cond rd sb rs yBit rm => .arm (0 |> put cond.bits |> put 0b00010010#8 |> put rd |> put sb |> put rs |> put 0b1#1 |> putBit yBit |> put 0b10#2 |> put rm)
  | .smlalXY cond rdHi rdLo rs yBit xBit rm => .arm (0 |> put cond.bits |> put 0b00010100#8 |> put rdHi |> put rdLo |> put rs |> put 0b1#1 |> putBit yBit |> putBit xBit |> put 0b0#1 |> put rm)
  | .smulXY cond rd sb rs yBit xBit rm => .arm (0 |> put cond.bits |> put 0b00010110#8 |> put rd |> put sb |> put rs |> put 0b1#1 |> putBit yBit |> putBit xBit |> put 0b0#1 |> put rm)
  | .undefMisc cond raw1 raw2 => .arm (0 |> put cond.bits |> put 0b00010#5 |> put raw1 |> put 0b0#1 |> put raw2)
  | .andShImm cond sBit rn rd shiftImm shift rm => .arm (0 |> put cond.bits |> put 0b0000000#7 |> putBit sBit |> put rn |> put rd |> put shiftImm |> put shift |> put 0b0#1 |> put rm)
  | .eorShImm cond sBit rn rd shiftImm shift rm => .arm (0 |> put cond.bits |> put 0b0000001#7 |> putBit sBit |> put rn |> put rd |> put shiftImm |> put shift |> put 0b0#1 |> put rm)
  | .subShImm cond sBit rn rd shiftImm shift rm => .arm (0 |> put cond.bits |> put 0b0000010#7 |> putBit sBit |> put rn |> put rd |> put shiftImm |> put shift |> put 0b0#1 |> put rm)
  | .rsbShImm cond sBit rn rd shiftImm shift rm => .arm (0 |> put cond.bits |> put 0b0000011#7 |> putBit sBit |> put rn |> put rd |> put shiftImm |> put shift |> put 0b0#1 |> put rm)
  | .addShImm cond sBit rn rd shiftImm shift rm => .arm (0 |> put cond.bits |> put 0b0000100#7 |> putBit sBit |> put rn |> put rd |> put shiftImm |> put shift |> put 0b0#1 |> put rm)
  | .adcShImm cond sBit rn rd shiftImm shift rm => .arm (0 |> put cond.bits |> put 0b0000101#7 |> putBit sBit |> put rn |> put rd |> put shiftImm |> put shift |> put 0b0#1 |> put rm)
  | .sbcShImm cond sBit rn rd shiftImm shift rm => .arm (0 |> put cond.bits |> put 0b0000110#7 |> putBit sBit |> put rn |> put rd |> put shiftImm |> put shift |> put 0b0#1 |> put rm)
  | .rscShImm cond sBit rn rd shiftImm shift rm => .arm (0 |> put cond.bits |> put 0b0000111#7 |> putBit sBit |> put rn |> put rd |> put shiftImm |> put shift |> put 0b0#1 |> put rm)
  | .tstShImm cond rn sb shiftImm shift rm => .arm (0 |> put cond.bits |> put 0b00010001#8 |> put rn |> put sb |> put shiftImm |> put shift |> put 0b0#1 |> put rm)
  | .teqShImm cond rn sb shiftImm shift rm => .arm (0 |> put cond.bits |> put 0b00010011#8 |> put rn |> put sb |> put shiftImm |> put shift |> put 0b0#1 |> put rm)
  | .cmpShImm cond rn sb shiftImm shift rm => .arm (0 |> put cond.bits |> put 0b00010101#8 |> put rn |> put sb |> put shiftImm |> put shift |> put 0b0#1 |> put rm)
  | .cmnShImm cond rn sb shiftImm shift rm => .arm (0 |> put cond.bits |> put 0b00010111#8 |> put rn |> put sb |> put shiftImm |> put shift |> put 0b0#1 |> put rm)
  | .orrShImm cond sBit rn rd shiftImm shift rm => .arm (0 |> put cond.bits |> put 0b0001100#7 |> putBit sBit |> put rn |> put rd |> put shiftImm |> put shift |> put 0b0#1 |> put rm)
  | .movShImm cond sBit sb rd shiftImm shift rm => .arm (0 |> put cond.bits |> put 0b0001101#7 |> putBit sBit |> put sb |> put rd |> put shiftImm |> put shift |> put 0b0#1 |> put rm)
  | .bicShImm cond sBit rn rd shiftImm shift rm => .arm (0 |> put cond.bits |> put 0b0001110#7 |> putBit sBit |> put rn |> put rd |> put shiftImm |> put shift |> put 0b0#1 |> put rm)
  | .mvnShImm cond sBit sb rd shiftImm shift rm => .arm (0 |> put cond.bits |> put 0b0001111#7 |> putBit sBit |> put sb |> put rd |> put shiftImm |> put shift |> put 0b0#1 |> put rm)
  | .andShReg cond sBit rn rd rs shift rm => .arm (0 |> put cond.bits |> put 0b0000000#7 |> putBit sBit |> put rn |> put rd |> put rs |> put 0b0#1 |> put shift |> put 0b1#1 |> put rm)
  | .eorShReg cond sBit rn rd rs shift rm => .arm (0 |> put cond.bits |> put 0b0000001#7 |> putBit sBit |> put rn |> put rd |> put rs |> put 0b0#1 |> put shift |> put 0b1#1 |> put rm)
  | .subShReg cond sBit rn rd rs shift rm => .arm (0 |> put cond.bits |> put 0b0000010#7 |> putBit sBit |> put rn |> put rd |> put rs |> put 0b0#1 |> put shift |> put 0b1#1 |> put rm)
  | .rsbShReg cond sBit rn rd rs shift rm => .arm (0 |> put cond.bits |> put 0b0000011#7 |> putBit sBit |> put rn |> put rd |> put rs |> put 0b0#1 |> put shift |> put 0b1#1 |> put rm)
  | .addShReg cond sBit rn rd rs shift rm => .arm (0 |> put cond.bits |> put 0b0000100#7 |> putBit sBit |> put rn |> put rd |> put rs |> put 0b0#1 |> put shift |> put 0b1#1 |> put rm)
  | .adcShReg cond sBit rn rd rs shift rm => .arm (0 |> put cond.bits |> put 0b0000101#7 |> putBit sBit |> put rn |> put rd |> put rs |> put 0b0#1 |> put shift |> put 0b1#1 |> put rm)
  | .sbcShReg cond sBit rn rd rs shift rm => .arm (0 |> put cond.bits |> put 0b0000110#7 |> putBit sBit |> put rn |> put rd |> put rs |> put 0b0#1 |> put shift |> put 0b1#1 |> put rm)
  | .rscShReg cond sBit rn rd rs shift rm => .arm (0 |> put cond.bits |> put 0b0000111#7 |> putBit sBit |> put rn |> put rd |> put rs |> put 0b0#1 |> put shift |> put 0b1#1 |> put rm)
  | .tstShReg cond rn sb rs shift rm => .arm (0 |> put cond.bits |> put 0b00010001#8 |> put rn |> put sb |> put rs |> put 0b0#1 |> put shift |> put 0b1#1 |> put rm)
  | .teqShReg cond rn sb rs shift rm => .arm (0 |> put cond.bits |> put 0b00010011#8 |> put rn |> put sb |> put rs |> put 0b0#1 |> put shift |> put 0b1#1 |> put rm)
  | .cmpShReg cond rn sb rs shift rm => .arm (0 |> put cond.bits |> put 0b00010101#8 |> put rn |> put sb |> put rs |> put 0b0#1 |> put shift |> put 0b1#1 |> put rm)
  | .cmnShReg cond rn sb rs shift rm => .arm (0 |> put cond.bits |> put 0b00010111#8 |> put rn |> put sb |> put rs |> put 0b0#1 |> put shift |> put 0b1#1 |> put rm)
  | .orrShReg cond sBit rn rd rs shift rm => .arm (0 |> put cond.bits |> put 0b0001100#7 |> putBit sBit |> put rn |> put rd |> put rs |> put 0b0#1 |> put shift |> put 0b1#1 |> put rm)
  | .movShReg cond sBit sb rd rs shift rm => .arm (0 |> put cond.bits |> put 0b0001101#7 |> putBit sBit |> put sb |> put rd |> put rs |> put 0b0#1 |> put shift |> put 0b1#1 |> put rm)
  | .bicShReg cond sBit rn rd rs shift rm => .arm (0 |> put cond.bits |> put 0b0001110#7 |> putBit sBit |> put rn |> put rd |> put rs |> put 0b0#1 |> put shift |> put 0b1#1 |> put rm)
  | .mvnShReg cond sBit sb rd rs shift rm => .arm (0 |> put cond.bits |> put 0b0001111#7 |> putBit sBit |> put sb |> put rd |> put rs |> put 0b0#1 |> put shift |> put 0b1#1 |> put rm)
  | .msrImm cond rBit fieldMask sb rotateImm immed8 => .arm (0 |> put cond.bits |> put 0b00110#5 |> putBit rBit |> put 0b10#2 |> put fieldMask |> put sb |> put rotateImm |> put immed8)
  | .undefImm cond raw1 raw2 => .arm (0 |> put cond.bits |> put 0b00110#5 |> putBit raw1 |> put 0b00#2 |> put raw2)
  | .andImm cond sBit rn rd rotateImm immed8 => .arm (0 |> put cond.bits |> put 0b0010000#7 |> putBit sBit |> put rn |> put rd |> put rotateImm |> put immed8)
  | .eorImm cond sBit rn rd rotateImm immed8 => .arm (0 |> put cond.bits |> put 0b0010001#7 |> putBit sBit |> put rn |> put rd |> put rotateImm |> put immed8)
  | .subImm cond sBit rn rd rotateImm immed8 => .arm (0 |> put cond.bits |> put 0b0010010#7 |> putBit sBit |> put rn |> put rd |> put rotateImm |> put immed8)
  | .rsbImm cond sBit rn rd rotateImm immed8 => .arm (0 |> put cond.bits |> put 0b0010011#7 |> putBit sBit |> put rn |> put rd |> put rotateImm |> put immed8)
  | .addImm cond sBit rn rd rotateImm immed8 => .arm (0 |> put cond.bits |> put 0b0010100#7 |> putBit sBit |> put rn |> put rd |> put rotateImm |> put immed8)
  | .adcImm cond sBit rn rd rotateImm immed8 => .arm (0 |> put cond.bits |> put 0b0010101#7 |> putBit sBit |> put rn |> put rd |> put rotateImm |> put immed8)
  | .sbcImm cond sBit rn rd rotateImm immed8 => .arm (0 |> put cond.bits |> put 0b0010110#7 |> putBit sBit |> put rn |> put rd |> put rotateImm |> put immed8)
  | .rscImm cond sBit rn rd rotateImm immed8 => .arm (0 |> put cond.bits |> put 0b0010111#7 |> putBit sBit |> put rn |> put rd |> put rotateImm |> put immed8)
  | .tstImm cond rn sb rotateImm immed8 => .arm (0 |> put cond.bits |> put 0b00110001#8 |> put rn |> put sb |> put rotateImm |> put immed8)
  | .teqImm cond rn sb rotateImm immed8 => .arm (0 |> put cond.bits |> put 0b00110011#8 |> put rn |> put sb |> put rotateImm |> put immed8)
  | .cmpImm cond rn sb rotateImm immed8 => .arm (0 |> put cond.bits |> put 0b00110101#8 |> put rn |> put sb |> put rotateImm |> put immed8)
  | .cmnImm cond rn sb rotateImm immed8 => .arm (0 |> put cond.bits |> put 0b00110111#8 |> put rn |> put sb |> put rotateImm |> put immed8)
  | .orrImm cond sBit rn rd rotateImm immed8 => .arm (0 |> put cond.bits |> put 0b0011100#7 |> putBit sBit |> put rn |> put rd |> put rotateImm |> put immed8)
  | .movImm cond sBit sb rd rotateImm immed8 => .arm (0 |> put cond.bits |> put 0b0011101#7 |> putBit sBit |> put sb |> put rd |> put rotateImm |> put immed8)
  | .bicImm cond sBit rn rd rotateImm immed8 => .arm (0 |> put cond.bits |> put 0b0011110#7 |> putBit sBit |> put rn |> put rd |> put rotateImm |> put immed8)
  | .mvnImm cond sBit sb rd rotateImm immed8 => .arm (0 |> put cond.bits |> put 0b0011111#7 |> putBit sBit |> put sb |> put rd |> put rotateImm |> put immed8)
  | .ldrtImm cond uBit rn rd offset12 => .arm (0 |> put cond.bits |> put 0b0100#4 |> putBit uBit |> put 0b011#3 |> put rn |> put rd |> put offset12)
  | .ldrbtImm cond uBit rn rd offset12 => .arm (0 |> put cond.bits |> put 0b0100#4 |> putBit uBit |> put 0b111#3 |> put rn |> put rd |> put offset12)
  | .strtImm cond uBit rn rd offset12 => .arm (0 |> put cond.bits |> put 0b0100#4 |> putBit uBit |> put 0b010#3 |> put rn |> put rd |> put offset12)
  | .strbtImm cond uBit rn rd offset12 => .arm (0 |> put cond.bits |> put 0b0100#4 |> putBit uBit |> put 0b110#3 |> put rn |> put rd |> put offset12)
  | .ldrImm cond pBit uBit wBit rn rd offset12 => .arm (0 |> put cond.bits |> put 0b010#3 |> putBit pBit |> putBit uBit |> put 0b0#1 |> putBit wBit |> put 0b1#1 |> put rn |> put rd |> put offset12)
  | .ldrbImm cond pBit uBit wBit rn rd offset12 => .arm (0 |> put cond.bits |> put 0b010#3 |> putBit pBit |> putBit uBit |> put 0b1#1 |> putBit wBit |> put 0b1#1 |> put rn |> put rd |> put offset12)
  | .strImm cond pBit uBit wBit rn rd offset12 => .arm (0 |> put cond.bits |> put 0b010#3 |> putBit pBit |> putBit uBit |> put 0b0#1 |> putBit wBit |> put 0b0#1 |> put rn |> put rd |> put offset12)
  | .strbImm cond pBit uBit wBit rn rd offset12 => .arm (0 |> put cond.bits |> put 0b010#3 |> putBit pBit |> putBit uBit |> put 0b1#1 |> putBit wBit |> put 0b0#1 |> put rn |> put rd |> put offset12)
  | .ldrtReg cond uBit rn rd shiftImm shift rm => .arm (0 |> put cond.bits |> put 0b0110#4 |> putBit uBit |> put 0b011#3 |> put rn |> put rd |> put shiftImm |> put shift |> put 0b0#1 |> put rm)
  | .ldrbtReg cond uBit rn rd shiftImm shift rm => .arm (0 |> put cond.bits |> put 0b0110#4 |> putBit uBit |> put 0b111#3 |> put rn |> put rd |> put shiftImm |> put shift |> put 0b0#1 |> put rm)
  | .strtReg cond uBit rn rd shiftImm shift rm => .arm (0 |> put cond.bits |> put 0b0110#4 |> putBit uBit |> put 0b010#3 |> put rn |> put rd |> put shiftImm |> put shift |> put 0b0#1 |> put rm)
  | .strbtReg cond uBit rn rd shiftImm shift rm => .arm (0 |> put cond.bits |> put 0b0110#4 |> putBit uBit |> put 0b110#3 |> put rn |> put rd |> put shiftImm |> put shift |> put 0b0#1 |> put rm)
  | .ldrReg cond pBit uBit wBit rn rd shiftImm shift rm => .arm (0 |> put cond.bits |> put 0b011#3 |> putBit pBit |> putBit uBit |> put 0b0#1 |> putBit wBit |> put 0b1#1 |> put rn |> put rd |> put shiftImm |> put shift |> put 0b0#1 |> put rm)
  | .ldrbReg cond pBit uBit wBit rn rd shiftImm shift rm => .arm (0 |> put cond.bits |> put 0b011#3 |> putBit pBit |> putBit uBit |> put 0b1#1 |> putBit wBit |> put 0b1#1 |> put rn |> put rd |> put shiftImm |> put shift |> put 0b0#1 |> put rm)
  | .strReg cond pBit uBit wBit rn rd shiftImm shift rm => .arm (0 |> put cond.bits |> put 0b011#3 |> putBit pBit |> putBit uBit |> put 0b0#1 |> putBit wBit |> put 0b0#1 |> put rn |> put rd |> put shiftImm |> put shift |> put 0b0#1 |> put rm)
  | .strbReg cond pBit uBit wBit rn rd shiftImm shift rm => .arm (0 |> put cond.bits |> put 0b011#3 |> putBit pBit |> putBit uBit |> put 0b1#1 |> putBit wBit |> put 0b0#1 |> put rn |> put rd |> put shiftImm |> put shift |> put 0b0#1 |> put rm)
  | .undefMedia cond raw1 raw2 => .arm (0 |> put cond.bits |> put 0b011#3 |> put raw1 |> put 0b1#1 |> put raw2)
  | .ldm cond pBit uBit wBit rn registerList => .arm (0 |> put cond.bits |> put 0b100#3 |> putBit pBit |> putBit uBit |> put 0b0#1 |> putBit wBit |> put 0b1#1 |> put rn |> put registerList)
  | .ldmUser cond pBit uBit sb rn registerList => .arm (0 |> put cond.bits |> put 0b100#3 |> putBit pBit |> putBit uBit |> put 0b1#1 |> putBit sb |> put 0b1#1 |> put rn |> put 0b0#1 |> put registerList)
  | .ldmReturn cond pBit uBit wBit rn registerList => .arm (0 |> put cond.bits |> put 0b100#3 |> putBit pBit |> putBit uBit |> put 0b1#1 |> putBit wBit |> put 0b1#1 |> put rn |> put 0b1#1 |> put registerList)
  | .stm cond pBit uBit wBit rn registerList => .arm (0 |> put cond.bits |> put 0b100#3 |> putBit pBit |> putBit uBit |> put 0b0#1 |> putBit wBit |> put 0b0#1 |> put rn |> put registerList)
  | .stmUser cond pBit uBit sb rn registerList => .arm (0 |> put cond.bits |> put 0b100#3 |> putBit pBit |> putBit uBit |> put 0b1#1 |> putBit sb |> put 0b0#1 |> put rn |> put registerList)
  | .b cond signedImmed24 => .arm (0 |> put cond.bits |> put 0b1010#4 |> put signedImmed24)
  | .bl cond signedImmed24 => .arm (0 |> put cond.bits |> put 0b1011#4 |> put signedImmed24)
  | .mar cond rdHi rdLo sb acc => .arm (0 |> put cond.bits |> put 0b11000100#8 |> put rdHi |> put rdLo |> put 0b0000#4 |> put sb |> put acc)
  | .mra cond rdHi rdLo sb acc => .arm (0 |> put cond.bits |> put 0b11000101#8 |> put rdHi |> put rdLo |> put 0b0000#4 |> put sb |> put acc)
  | .mcrr cond rn rd cpNum opcode crm => .arm (0 |> put cond.bits |> put 0b11000100#8 |> put rn |> put rd |> put cpNum |> put opcode |> put crm)
  | .mrrc cond rn rd cpNum opcode crm => .arm (0 |> put cond.bits |> put 0b11000101#8 |> put rn |> put rd |> put cpNum |> put opcode |> put crm)
  | .ldcP14 cond pBit uBit nBit wBit rn crd offset8 => .arm (0 |> put cond.bits |> put 0b110#3 |> putBit pBit |> putBit uBit |> putBit nBit |> putBit wBit |> put 0b1#1 |> put rn |> put crd |> put 0b1110#4 |> put offset8)
  | .stcP14 cond pBit uBit nBit wBit rn crd offset8 => .arm (0 |> put cond.bits |> put 0b110#3 |> putBit pBit |> putBit uBit |> putBit nBit |> putBit wBit |> put 0b0#1 |> put rn |> put crd |> put 0b1110#4 |> put offset8)
  | .ldc cond pBit uBit nBit wBit rn crd cpNum offset8 => .arm (0 |> put cond.bits |> put 0b110#3 |> putBit pBit |> putBit uBit |> putBit nBit |> putBit wBit |> put 0b1#1 |> put rn |> put crd |> put cpNum |> put offset8)
  | .stc cond pBit uBit nBit wBit rn crd cpNum offset8 => .arm (0 |> put cond.bits |> put 0b110#3 |> putBit pBit |> putBit uBit |> putBit nBit |> putBit wBit |> put 0b0#1 |> put rn |> put crd |> put cpNum |> put offset8)
  | .cdp cond opcode1 crn crd cpNum opcode2 crm => .arm (0 |> put cond.bits |> put 0b1110#4 |> put opcode1 |> put crn |> put crd |> put cpNum |> put opcode2 |> put 0b0#1 |> put crm)
  | .mia cond rs acc rm => .arm (0 |> put cond.bits |> put 0b111000100000#12 |> put rs |> put 0b0000#4 |> put acc |> put 0b1#1 |> put rm)
  | .miaph cond rs acc rm => .arm (0 |> put cond.bits |> put 0b111000101000#12 |> put rs |> put 0b0000#4 |> put acc |> put 0b1#1 |> put rm)
  | .miabb cond rs acc rm => .arm (0 |> put cond.bits |> put 0b111000101100#12 |> put rs |> put 0b0000#4 |> put acc |> put 0b1#1 |> put rm)
  | .miabt cond rs acc rm => .arm (0 |> put cond.bits |> put 0b111000101101#12 |> put rs |> put 0b0000#4 |> put acc |> put 0b1#1 |> put rm)
  | .miatb cond rs acc rm => .arm (0 |> put cond.bits |> put 0b111000101110#12 |> put rs |> put 0b0000#4 |> put acc |> put 0b1#1 |> put rm)
  | .miatt cond rs acc rm => .arm (0 |> put cond.bits |> put 0b111000101111#12 |> put rs |> put 0b0000#4 |> put acc |> put 0b1#1 |> put rm)
  | .mcrInvICacheBtb cond rd => .arm (0 |> put cond.bits |> put 0b111000000111#12 |> put rd |> put 0b111100010101#12)
  | .mcrInvICacheLine cond rd => .arm (0 |> put cond.bits |> put 0b111000000111#12 |> put rd |> put 0b111100110101#12)
  | .mcrInvBtb cond rd => .arm (0 |> put cond.bits |> put 0b111000000111#12 |> put rd |> put 0b111111010101#12)
  | .mcrInvDCache cond rd => .arm (0 |> put cond.bits |> put 0b111000000111#12 |> put rd |> put 0b111100010110#12)
  | .mcrInvDCacheLine cond rd => .arm (0 |> put cond.bits |> put 0b111000000111#12 |> put rd |> put 0b111100110110#12)
  | .mcrInvCachesBtb cond rd => .arm (0 |> put cond.bits |> put 0b111000000111#12 |> put rd |> put 0b111100010111#12)
  | .mcrCleanDLineMva cond rd => .arm (0 |> put cond.bits |> put 0b111000000111#12 |> put rd |> put 0b111100111010#12)
  | .mcrCleanDLineSetWay cond rd => .arm (0 |> put cond.bits |> put 0b111000000111#12 |> put rd |> put 0b111101011010#12)
  | .mcrCleanInvDLineMva cond rd => .arm (0 |> put cond.bits |> put 0b111000000111#12 |> put rd |> put 0b111100111110#12)
  | .mcrCleanInvDLineSetWay cond rd => .arm (0 |> put cond.bits |> put 0b111000000111#12 |> put rd |> put 0b111101011110#12)
  | .mcrInvL2Line cond rd => .arm (0 |> put cond.bits |> put 0b111000100111#12 |> put rd |> put 0b111100110111#12)
  | .mcrCleanL2LineMva cond rd => .arm (0 |> put cond.bits |> put 0b111000100111#12 |> put rd |> put 0b111100111011#12)
  | .mcrCleanL2LineSetWay cond rd => .arm (0 |> put cond.bits |> put 0b111000100111#12 |> put rd |> put 0b111101011011#12)
  | .mcrCleanInvL2LineSetWay cond rd => .arm (0 |> put cond.bits |> put 0b111000100111#12 |> put rd |> put 0b111101011111#12)
  | .mcrPrefetchFlush cond rd => .arm (0 |> put cond.bits |> put 0b111000000111#12 |> put rd |> put 0b111110010101#12)
  | .mcrDataWriteBarrier cond rd => .arm (0 |> put cond.bits |> put 0b111000000111#12 |> put rd |> put 0b111110011010#12)
  | .mcrDataMemoryBarrier cond rd => .arm (0 |> put cond.bits |> put 0b111000000111#12 |> put rd |> put 0b111110111010#12)
  | .mcrDLineAllocate cond rd => .arm (0 |> put cond.bits |> put 0b111000000111#12 |> put rd |> put 0b111110110010#12)
  | .mcrInvTlbs cond rd => .arm (0 |> put cond.bits |> put 0b111000001000#12 |> put rd |> put 0b111100010111#12)
  | .mcrInvITlb cond rd => .arm (0 |> put cond.bits |> put 0b111000001000#12 |> put rd |> put 0b111100010101#12)
  | .mcrInvITlbEntry cond rd => .arm (0 |> put cond.bits |> put 0b111000001000#12 |> put rd |> put 0b111100110101#12)
  | .mcrInvDTlb cond rd => .arm (0 |> put cond.bits |> put 0b111000001000#12 |> put rd |> put 0b111100010110#12)
  | .mcrInvDTlbEntry cond rd => .arm (0 |> put cond.bits |> put 0b111000001000#12 |> put rd |> put 0b111100110110#12)
  | .mcrLockILine cond rd => .arm (0 |> put cond.bits |> put 0b111000001001#12 |> put rd |> put 0b111100010101#12)
  | .mcrLockL2Line cond rd => .arm (0 |> put cond.bits |> put 0b111000101001#12 |> put rd |> put 0b111100010101#12)
  | .mcrUnlockICache cond rd => .arm (0 |> put cond.bits |> put 0b111000001001#12 |> put rd |> put 0b111100110101#12)
  | .mcrUnlockL2 cond rd => .arm (0 |> put cond.bits |> put 0b111000101001#12 |> put rd |> put 0b111100110101#12)
  | .mcrAllocLockL2Line cond rd => .arm (0 |> put cond.bits |> put 0b111000101001#12 |> put rd |> put 0b111101010101#12)
  | .mrcDLock cond rd => .arm (0 |> put cond.bits |> put 0b111000011001#12 |> put rd |> put 0b111100010110#12)
  | .mcrDLock cond rd => .arm (0 |> put cond.bits |> put 0b111000001001#12 |> put rd |> put 0b111100010110#12)
  | .mcrUnlockDCache cond rd => .arm (0 |> put cond.bits |> put 0b111000001001#12 |> put rd |> put 0b111100110110#12)
  | .mcrLockILineLegacy cond rd => .arm (0 |> put cond.bits |> put 0b111000001001#12 |> put rd |> put 0b111100010001#12)
  | .mcrUnlockICacheLegacy cond rd => .arm (0 |> put cond.bits |> put 0b111000001001#12 |> put rd |> put 0b111100110001#12)
  | .mrcDLockLegacy cond rd => .arm (0 |> put cond.bits |> put 0b111000011001#12 |> put rd |> put 0b111100010010#12)
  | .mcrDLockLegacy cond rd => .arm (0 |> put cond.bits |> put 0b111000001001#12 |> put rd |> put 0b111100010010#12)
  | .mcrUnlockDCacheLegacy cond rd => .arm (0 |> put cond.bits |> put 0b111000001001#12 |> put rd |> put 0b111100110010#12)
  | .mcrLockITlbEntry cond rd => .arm (0 |> put cond.bits |> put 0b111000001010#12 |> put rd |> put 0b111100010100#12)
  | .mcrUnlockITlb cond rd => .arm (0 |> put cond.bits |> put 0b111000001010#12 |> put rd |> put 0b111100110100#12)
  | .mcrLockDTlbEntry cond rd => .arm (0 |> put cond.bits |> put 0b111000001010#12 |> put rd |> put 0b111100011000#12)
  | .mcrUnlockDTlb cond rd => .arm (0 |> put cond.bits |> put 0b111000001010#12 |> put rd |> put 0b111100111000#12)
  | .mrcMainId cond rd => .arm (0 |> put cond.bits |> put 0b111000010000#12 |> put rd |> put 0b111100010000#12)
  | .mcrMainId cond rd => .arm (0 |> put cond.bits |> put 0b111000000000#12 |> put rd |> put 0b111100010000#12)
  | .mrcCacheType cond rd => .arm (0 |> put cond.bits |> put 0b111000010000#12 |> put rd |> put 0b111100110000#12)
  | .mcrCacheType cond rd => .arm (0 |> put cond.bits |> put 0b111000000000#12 |> put rd |> put 0b111100110000#12)
  | .mrcL2SystemId cond rd => .arm (0 |> put cond.bits |> put 0b111000110000#12 |> put rd |> put 0b111100010000#12)
  | .mcrL2SystemId cond rd => .arm (0 |> put cond.bits |> put 0b111000100000#12 |> put rd |> put 0b111100010000#12)
  | .mrcL2CacheType cond rd => .arm (0 |> put cond.bits |> put 0b111000110000#12 |> put rd |> put 0b111100110000#12)
  | .mcrL2CacheType cond rd => .arm (0 |> put cond.bits |> put 0b111000100000#12 |> put rd |> put 0b111100110000#12)
  | .mrcControl cond rd => .arm (0 |> put cond.bits |> put 0b111000010001#12 |> put rd |> put 0b111100010000#12)
  | .mcrControl cond rd => .arm (0 |> put cond.bits |> put 0b111000000001#12 |> put rd |> put 0b111100010000#12)
  | .mrcAuxControl cond rd => .arm (0 |> put cond.bits |> put 0b111000010001#12 |> put rd |> put 0b111100110000#12)
  | .mcrAuxControl cond rd => .arm (0 |> put cond.bits |> put 0b111000000001#12 |> put rd |> put 0b111100110000#12)
  | .mrcTtBase cond rd => .arm (0 |> put cond.bits |> put 0b111000010010#12 |> put rd |> put 0b111100010000#12)
  | .mcrTtBase cond rd => .arm (0 |> put cond.bits |> put 0b111000000010#12 |> put rd |> put 0b111100010000#12)
  | .mrcDacr cond rd => .arm (0 |> put cond.bits |> put 0b111000010011#12 |> put rd |> put 0b111100010000#12)
  | .mcrDacr cond rd => .arm (0 |> put cond.bits |> put 0b111000000011#12 |> put rd |> put 0b111100010000#12)
  | .mrcFsr cond rd => .arm (0 |> put cond.bits |> put 0b111000010101#12 |> put rd |> put 0b111100010000#12)
  | .mcrFsr cond rd => .arm (0 |> put cond.bits |> put 0b111000000101#12 |> put rd |> put 0b111100010000#12)
  | .mrcFar cond rd => .arm (0 |> put cond.bits |> put 0b111000010110#12 |> put rd |> put 0b111100010000#12)
  | .mcrFar cond rd => .arm (0 |> put cond.bits |> put 0b111000000110#12 |> put rd |> put 0b111100010000#12)
  | .mrcProcessId cond rd => .arm (0 |> put cond.bits |> put 0b111000011101#12 |> put rd |> put 0b111100010000#12)
  | .mcrProcessId cond rd => .arm (0 |> put cond.bits |> put 0b111000001101#12 |> put rd |> put 0b111100010000#12)
  | .mrcIbr0 cond rd => .arm (0 |> put cond.bits |> put 0b111000011110#12 |> put rd |> put 0b111100011000#12)
  | .mcrIbr0 cond rd => .arm (0 |> put cond.bits |> put 0b111000001110#12 |> put rd |> put 0b111100011000#12)
  | .mrcIbr1 cond rd => .arm (0 |> put cond.bits |> put 0b111000011110#12 |> put rd |> put 0b111100011001#12)
  | .mcrIbr1 cond rd => .arm (0 |> put cond.bits |> put 0b111000001110#12 |> put rd |> put 0b111100011001#12)
  | .mrcDbr0 cond rd => .arm (0 |> put cond.bits |> put 0b111000011110#12 |> put rd |> put 0b111100010000#12)
  | .mcrDbr0 cond rd => .arm (0 |> put cond.bits |> put 0b111000001110#12 |> put rd |> put 0b111100010000#12)
  | .mrcDbr1 cond rd => .arm (0 |> put cond.bits |> put 0b111000011110#12 |> put rd |> put 0b111100010011#12)
  | .mcrDbr1 cond rd => .arm (0 |> put cond.bits |> put 0b111000001110#12 |> put rd |> put 0b111100010011#12)
  | .mrcDbcon cond rd => .arm (0 |> put cond.bits |> put 0b111000011110#12 |> put rd |> put 0b111100010100#12)
  | .mcrDbcon cond rd => .arm (0 |> put cond.bits |> put 0b111000001110#12 |> put rd |> put 0b111100010100#12)
  | .mrcCpar cond rd => .arm (0 |> put cond.bits |> put 0b111000011111#12 |> put rd |> put 0b111100010001#12)
  | .mcrCpar cond rd => .arm (0 |> put cond.bits |> put 0b111000001111#12 |> put rd |> put 0b111100010001#12)
  | .mrcPmnc cond rd => .arm (0 |> put cond.bits |> put 0b111000010000#12 |> put rd |> put 0b111000010001#12)
  | .mcrPmnc cond rd => .arm (0 |> put cond.bits |> put 0b111000000000#12 |> put rd |> put 0b111000010001#12)
  | .mrcCcnt cond rd => .arm (0 |> put cond.bits |> put 0b111000010001#12 |> put rd |> put 0b111000010001#12)
  | .mcrCcnt cond rd => .arm (0 |> put cond.bits |> put 0b111000000001#12 |> put rd |> put 0b111000010001#12)
  | .mrcInten cond rd => .arm (0 |> put cond.bits |> put 0b111000010100#12 |> put rd |> put 0b111000010001#12)
  | .mcrInten cond rd => .arm (0 |> put cond.bits |> put 0b111000000100#12 |> put rd |> put 0b111000010001#12)
  | .mrcFlag cond rd => .arm (0 |> put cond.bits |> put 0b111000010101#12 |> put rd |> put 0b111000010001#12)
  | .mcrFlag cond rd => .arm (0 |> put cond.bits |> put 0b111000000101#12 |> put rd |> put 0b111000010001#12)
  | .mrcEvtsel cond rd => .arm (0 |> put cond.bits |> put 0b111000011000#12 |> put rd |> put 0b111000010001#12)
  | .mcrEvtsel cond rd => .arm (0 |> put cond.bits |> put 0b111000001000#12 |> put rd |> put 0b111000010001#12)
  | .mrcPmn0 cond rd => .arm (0 |> put cond.bits |> put 0b111000010000#12 |> put rd |> put 0b111000010010#12)
  | .mcrPmn0 cond rd => .arm (0 |> put cond.bits |> put 0b111000000000#12 |> put rd |> put 0b111000010010#12)
  | .mrcPmn1 cond rd => .arm (0 |> put cond.bits |> put 0b111000010001#12 |> put rd |> put 0b111000010010#12)
  | .mcrPmn1 cond rd => .arm (0 |> put cond.bits |> put 0b111000000001#12 |> put rd |> put 0b111000010010#12)
  | .mrcPmn2 cond rd => .arm (0 |> put cond.bits |> put 0b111000010010#12 |> put rd |> put 0b111000010010#12)
  | .mcrPmn2 cond rd => .arm (0 |> put cond.bits |> put 0b111000000010#12 |> put rd |> put 0b111000010010#12)
  | .mrcPmn3 cond rd => .arm (0 |> put cond.bits |> put 0b111000010011#12 |> put rd |> put 0b111000010010#12)
  | .mcrPmn3 cond rd => .arm (0 |> put cond.bits |> put 0b111000000011#12 |> put rd |> put 0b111000010010#12)
  | .mrcCclkcfg cond rd => .arm (0 |> put cond.bits |> put 0b111000010110#12 |> put rd |> put 0b111000010000#12)
  | .mcrCclkcfg cond rd => .arm (0 |> put cond.bits |> put 0b111000000110#12 |> put rd |> put 0b111000010000#12)
  | .mrcPwrmode cond rd => .arm (0 |> put cond.bits |> put 0b111000010111#12 |> put rd |> put 0b111000010000#12)
  | .mcrPwrmode cond rd => .arm (0 |> put cond.bits |> put 0b111000000111#12 |> put rd |> put 0b111000010000#12)
  | .mcrTx cond rd => .arm (0 |> put cond.bits |> put 0b111000001000#12 |> put rd |> put 0b111000010000#12)
  | .mrcRx cond rd => .arm (0 |> put cond.bits |> put 0b111000011001#12 |> put rd |> put 0b111000010000#12)
  | .mrcDcsr cond rd => .arm (0 |> put cond.bits |> put 0b111000011010#12 |> put rd |> put 0b111000010000#12)
  | .mcrDcsr cond rd => .arm (0 |> put cond.bits |> put 0b111000001010#12 |> put rd |> put 0b111000010000#12)
  | .mrcTbreg cond rd => .arm (0 |> put cond.bits |> put 0b111000011011#12 |> put rd |> put 0b111000010000#12)
  | .mrcChkpt0 cond rd => .arm (0 |> put cond.bits |> put 0b111000011100#12 |> put rd |> put 0b111000010000#12)
  | .mcrChkpt0 cond rd => .arm (0 |> put cond.bits |> put 0b111000001100#12 |> put rd |> put 0b111000010000#12)
  | .mrcChkpt1 cond rd => .arm (0 |> put cond.bits |> put 0b111000011101#12 |> put rd |> put 0b111000010000#12)
  | .mcrChkpt1 cond rd => .arm (0 |> put cond.bits |> put 0b111000001101#12 |> put rd |> put 0b111000010000#12)
  | .mrcTxrxctrl cond rd => .arm (0 |> put cond.bits |> put 0b111000011110#12 |> put rd |> put 0b111000010000#12)
  | .mcrTxrxctrl cond rd => .arm (0 |> put cond.bits |> put 0b111000001110#12 |> put rd |> put 0b111000010000#12)
  | .mrcErrlog cond rd => .arm (0 |> put cond.bits |> put 0b111000010000#12 |> put rd |> put 0b011100010010#12)
  | .mcrErrlog cond rd => .arm (0 |> put cond.bits |> put 0b111000000000#12 |> put rd |> put 0b011100010010#12)
  | .mrcErradrl cond rd => .arm (0 |> put cond.bits |> put 0b111000010001#12 |> put rd |> put 0b011100010010#12)
  | .mcrErradrl cond rd => .arm (0 |> put cond.bits |> put 0b111000000001#12 |> put rd |> put 0b011100010010#12)
  | .mrcErradru cond rd => .arm (0 |> put cond.bits |> put 0b111000010010#12 |> put rd |> put 0b011100010010#12)
  | .mcrErradru cond rd => .arm (0 |> put cond.bits |> put 0b111000000010#12 |> put rd |> put 0b011100010010#12)
  | .mcrP15Other cond opcode1 crn rd opcode2 crm => .arm (0 |> put cond.bits |> put 0b1110#4 |> put opcode1 |> put 0b0#1 |> put crn |> put rd |> put 0b1111#4 |> put opcode2 |> put 0b1#1 |> put crm)
  | .mcrP14Other cond opcode1 crn rd opcode2 crm => .arm (0 |> put cond.bits |> put 0b1110#4 |> put opcode1 |> put 0b0#1 |> put crn |> put rd |> put 0b1110#4 |> put opcode2 |> put 0b1#1 |> put crm)
  | .mcrP7Other cond opcode1 crn rd opcode2 => .arm (0 |> put cond.bits |> put 0b1110#4 |> put opcode1 |> put 0b0#1 |> put crn |> put rd |> put 0b0111#4 |> put opcode2 |> put 0b10010#5)
  | .mcrP0Other cond opcode1 crn rd opcode2 crm => .arm (0 |> put cond.bits |> put 0b1110#4 |> put opcode1 |> put 0b0#1 |> put crn |> put rd |> put 0b0000#4 |> put opcode2 |> put 0b1#1 |> put crm)
  | .mcr cond opcode1 crn rd cpNum opcode2 crm => .arm (0 |> put cond.bits |> put 0b1110#4 |> put opcode1 |> put 0b0#1 |> put crn |> put rd |> put cpNum |> put opcode2 |> put 0b1#1 |> put crm)
  | .mrcP15Other cond opcode1 crn rd opcode2 crm => .arm (0 |> put cond.bits |> put 0b1110#4 |> put opcode1 |> put 0b1#1 |> put crn |> put rd |> put 0b1111#4 |> put opcode2 |> put 0b1#1 |> put crm)
  | .mrcP14Other cond opcode1 crn rd opcode2 crm => .arm (0 |> put cond.bits |> put 0b1110#4 |> put opcode1 |> put 0b1#1 |> put crn |> put rd |> put 0b1110#4 |> put opcode2 |> put 0b1#1 |> put crm)
  | .mrcP7Other cond opcode1 crn rd opcode2 => .arm (0 |> put cond.bits |> put 0b1110#4 |> put opcode1 |> put 0b1#1 |> put crn |> put rd |> put 0b0111#4 |> put opcode2 |> put 0b10010#5)
  | .mrcP0Other cond opcode1 crn rd opcode2 crm => .arm (0 |> put cond.bits |> put 0b1110#4 |> put opcode1 |> put 0b1#1 |> put crn |> put rd |> put 0b0000#4 |> put opcode2 |> put 0b1#1 |> put crm)
  | .mrc cond opcode1 crn rd cpNum opcode2 crm => .arm (0 |> put cond.bits |> put 0b1110#4 |> put opcode1 |> put 0b1#1 |> put crn |> put rd |> put cpNum |> put opcode2 |> put 0b1#1 |> put crm)
  | .swi cond immed24 => .arm (0 |> put cond.bits |> put 0b1111#4 |> put immed24)
  | .tLslImm imm5 rm rd => .thumb (0 |> put 0b00000#5 |> put imm5 |> put rm |> put rd)
  | .tLsrImm imm5 rm rd => .thumb (0 |> put 0b00001#5 |> put imm5 |> put rm |> put rd)
  | .tAsrImm imm5 rm rd => .thumb (0 |> put 0b00010#5 |> put imm5 |> put rm |> put rd)
  | .tAddReg rm rn rd => .thumb (0 |> put 0b0001100#7 |> put rm |> put rn |> put rd)
  | .tSubReg rm rn rd => .thumb (0 |> put 0b0001101#7 |> put rm |> put rn |> put rd)
  | .tAddImm3 imm3 rn rd => .thumb (0 |> put 0b0001110#7 |> put imm3 |> put rn |> put rd)
  | .tSubImm3 imm3 rn rd => .thumb (0 |> put 0b0001111#7 |> put imm3 |> put rn |> put rd)
  | .tMovImm rd imm8 => .thumb (0 |> put 0b00100#5 |> put rd |> put imm8)
  | .tCmpImm rn imm8 => .thumb (0 |> put 0b00101#5 |> put rn |> put imm8)
  | .tAddImm8 rd imm8 => .thumb (0 |> put 0b00110#5 |> put rd |> put imm8)
  | .tSubImm8 rd imm8 => .thumb (0 |> put 0b00111#5 |> put rd |> put imm8)
  | .tAnd rm rd => .thumb (0 |> put 0b0100000000#10 |> put rm |> put rd)
  | .tEor rm rd => .thumb (0 |> put 0b0100000001#10 |> put rm |> put rd)
  | .tLslReg rs rd => .thumb (0 |> put 0b0100000010#10 |> put rs |> put rd)
  | .tLsrReg rs rd => .thumb (0 |> put 0b0100000011#10 |> put rs |> put rd)
  | .tAsrReg rs rd => .thumb (0 |> put 0b0100000100#10 |> put rs |> put rd)
  | .tAdc rm rd => .thumb (0 |> put 0b0100000101#10 |> put rm |> put rd)
  | .tSbc rm rd => .thumb (0 |> put 0b0100000110#10 |> put rm |> put rd)
  | .tRor rs rd => .thumb (0 |> put 0b0100000111#10 |> put rs |> put rd)
  | .tTst rm rn => .thumb (0 |> put 0b0100001000#10 |> put rm |> put rn)
  | .tNeg rm rd => .thumb (0 |> put 0b0100001001#10 |> put rm |> put rd)
  | .tCmpReg rm rn => .thumb (0 |> put 0b0100001010#10 |> put rm |> put rn)
  | .tCmn rm rn => .thumb (0 |> put 0b0100001011#10 |> put rm |> put rn)
  | .tOrr rm rd => .thumb (0 |> put 0b0100001100#10 |> put rm |> put rd)
  | .tMul rm rd => .thumb (0 |> put 0b0100001101#10 |> put rm |> put rd)
  | .tBic rm rd => .thumb (0 |> put 0b0100001110#10 |> put rm |> put rd)
  | .tMvn rm rd => .thumb (0 |> put 0b0100001111#10 |> put rm |> put rd)
  | .tAddHigh h1 h2 rm rd => .thumb (0 |> put 0b01000100#8 |> putBit h1 |> putBit h2 |> put rm |> put rd)
  | .tCmpHigh h1 h2 rm rn => .thumb (0 |> put 0b01000101#8 |> putBit h1 |> putBit h2 |> put rm |> put rn)
  | .tMovHigh h1 h2 rm rd => .thumb (0 |> put 0b01000110#8 |> putBit h1 |> putBit h2 |> put rm |> put rd)
  | .tBx h2 rm sb => .thumb (0 |> put 0b010001110#9 |> putBit h2 |> put rm |> put sb)
  | .tBlxReg h2 rm sb => .thumb (0 |> put 0b010001111#9 |> putBit h2 |> put rm |> put sb)
  | .tLdrPc rd imm8 => .thumb (0 |> put 0b01001#5 |> put rd |> put imm8)
  | .tStrReg rm rn rd => .thumb (0 |> put 0b0101000#7 |> put rm |> put rn |> put rd)
  | .tStrhReg rm rn rd => .thumb (0 |> put 0b0101001#7 |> put rm |> put rn |> put rd)
  | .tStrbReg rm rn rd => .thumb (0 |> put 0b0101010#7 |> put rm |> put rn |> put rd)
  | .tLdrsbReg rm rn rd => .thumb (0 |> put 0b0101011#7 |> put rm |> put rn |> put rd)
  | .tLdrReg rm rn rd => .thumb (0 |> put 0b0101100#7 |> put rm |> put rn |> put rd)
  | .tLdrhReg rm rn rd => .thumb (0 |> put 0b0101101#7 |> put rm |> put rn |> put rd)
  | .tLdrbReg rm rn rd => .thumb (0 |> put 0b0101110#7 |> put rm |> put rn |> put rd)
  | .tLdrshReg rm rn rd => .thumb (0 |> put 0b0101111#7 |> put rm |> put rn |> put rd)
  | .tStrImm imm5 rn rd => .thumb (0 |> put 0b01100#5 |> put imm5 |> put rn |> put rd)
  | .tLdrImm imm5 rn rd => .thumb (0 |> put 0b01101#5 |> put imm5 |> put rn |> put rd)
  | .tStrbImm imm5 rn rd => .thumb (0 |> put 0b01110#5 |> put imm5 |> put rn |> put rd)
  | .tLdrbImm imm5 rn rd => .thumb (0 |> put 0b01111#5 |> put imm5 |> put rn |> put rd)
  | .tStrhImm imm5 rn rd => .thumb (0 |> put 0b10000#5 |> put imm5 |> put rn |> put rd)
  | .tLdrhImm imm5 rn rd => .thumb (0 |> put 0b10001#5 |> put imm5 |> put rn |> put rd)
  | .tStrSp rd imm8 => .thumb (0 |> put 0b10010#5 |> put rd |> put imm8)
  | .tLdrSp rd imm8 => .thumb (0 |> put 0b10011#5 |> put rd |> put imm8)
  | .tAddPcImm rd imm8 => .thumb (0 |> put 0b10100#5 |> put rd |> put imm8)
  | .tAddSpImm rd imm8 => .thumb (0 |> put 0b10101#5 |> put rd |> put imm8)
  | .tIncSp imm7 => .thumb (0 |> put 0b101100000#9 |> put imm7)
  | .tDecSp imm7 => .thumb (0 |> put 0b101100001#9 |> put imm7)
  | .tPush rBit registerList => .thumb (0 |> put 0b1011010#7 |> putBit rBit |> put registerList)
  | .tPop rBit registerList => .thumb (0 |> put 0b1011110#7 |> putBit rBit |> put registerList)
  | .tBkpt imm8 => .thumb (0 |> put 0b10111110#8 |> put imm8)
  | .tUndef1011 raw => .thumb (0 |> put 0b1011#4 |> put raw)
  | .tStmia rn registerList => .thumb (0 |> put 0b11000#5 |> put rn |> put registerList)
  | .tLdmia rn registerList => .thumb (0 |> put 0b11001#5 |> put rn |> put registerList)
  | .tSwi imm8 => .thumb (0 |> put 0b11011111#8 |> put imm8)
  | .tUndefCond raw => .thumb (0 |> put 0b11011110#8 |> put raw)
  | .tBCond cond simm8 => .thumb (0 |> put 0b1101#4 |> put cond.bits |> put simm8)
  | .tB simm11 => .thumb (0 |> put 0b11100#5 |> put simm11)
  | .tBlxSuffix offset11Hi => .thumb (0 |> put 0b11101#5 |> put offset11Hi |> put 0b0#1)
  | .tUndefBlx raw => .thumb (0 |> put 0b11101#5 |> put raw |> put 0b1#1)
  | .tBlPrefix offset11 => .thumb (0 |> put 0b11110#5 |> put offset11)
  | .tBlSuffix offset11 => .thumb (0 |> put 0b11111#5 |> put offset11)

end

end Sys2Proof
end

