-- ==== Sys2Proof/Machine/Fetch.lean ====
section
/-!
DEFINITION. Fetching an instruction, the instruction breakpoints, and what is recorded about a step: the
trace buffer, the performance counters and the branch target buffer (`20_memory` R235,
`61_debug_pmu_power` R1000 to R1006, R1041, R1060, R1075, `22_caches` R372 to R376).
-/
namespace Sys2Proof.Machine

/-- Instructions come from the Debug SRAM: Special Debug State of Halt Mode (`20_memory` R205). -/
def State.inDebugSram (s : State) : Bool := s.haltMode && s.dbg.sds

/-- A word of the Debug SRAM (`61_debug_pmu_power` R1075). -/
def State.sramWord (s : State) (a : Word) : Word :=
  (tableGet (a.extractLsb' 2 9).toNat s.dbg.sram).getD 0

/-- The addresses of the Debug SRAM (`61_debug_pmu_power` R1075), and those from 0xFFFF7000 on where that is the base at
which the reset vector trap enters it (`70_reset_and_hazards` R1105; notes/assumptions 47). -/
def inSramWindow (a : Word) : Bool :=
  decide (a < 0x800) || (Config.resetTrapHigh && decide (a - 0xFFFF7000 < 0x800))

/-- The fetch from the Debug SRAM: past its end, and in Thumb state, nothing is defined. -/
def fetchSram : Exec Code := fun s =>
  if s.thumb then .error (.fault .debugSramThumb) s
  else if !inSramWindow s.pc then .error (.fault .debugSramOverrun) s
  else .ok (.arm (s.sramWord s.pc)) s

/-- The halfword of a word that an address names (`20_memory` R214). -/
def State.halfAt (s : State) (a w : Word) : Half :=
  if s.highHalf a then w.extractLsb' 16 16 else w.extractLsb' 0 16

/-- `InstrFetch` at the pc (`20_memory` R235). -/
def fetchInstr : Exec Code := do
  let s ← get
  if s.inDebugSram then fetchSram
  else
    let mva := s.pidRemap s.pc
    let w ← fetchWord mva
    pure (if s.thumb then .thumb (s.halfAt mva w) else .arm w)

/-! Instructions that are already fetched (`70_reset_and_hazards` R1131 a; notes/assumptions 29) -/

/-- Draw, for each change of what instructions are fetched under, oldest first, whether the next instruction was
fetched after it; from the first one on that it was fetched before, it is before the others too. -/
def dropSeen (n : Nat) : List FetchView → List FetchView × Nat
  | [] => ([], n)
  | v :: rest => if Config.freeBits 1 n = 1 then dropSeen (n + 1) rest else (v :: rest, n + 1)

/-- The views that the next instruction, and those after it, may still be fetched under. -/
def State.settleView (s : State) : State :=
  { s with stale := (dropSeen s.free s.stale).1, free := (dropSeen s.free s.stale).2 }

/-- The state as the instruction at the pc was fetched under. -/
def State.asFetched (s : State) : State :=
  match s.stale with
  | [] => s
  | v :: _ => { s with cp15 := v.cp15, itlb := v.itlb, icache := v.icache }

/-- What a fetch leaves: one that was made earlier leaves nothing now but its errors, logged and reported
(`60_exceptions` R920). -/
def State.afterFetch (s s1 : State) : State :=
  match s.stale with
  | [] => s1
  | _ :: _ => s.onlyErrors s1

/-- The instruction at the pc, as it was fetched. -/
def fetchNext : Exec Code := fun s =>
  match fetchInstr s.asFetched with
  | .ok c s1 => .ok c (s.afterFetch s1)
  | .error e s1 => .error e (s.afterFetch s1)

/-- An instruction breakpoint register matches (`61_debug_pmu_power` R1041). -/
def ibrMatches (ibr mva : Word) (thumb : Bool) : Bool :=
  ibr.getLsbD 0 &&
    (if thumb then ibr.extractLsb' 1 31 == mva.extractLsb' 1 31
    else ibr.extractLsb' 2 30 == mva.extractLsb' 2 30)

/-- An instruction breakpoint stops the instruction at the pc, as it was fetched (`61_debug_pmu_power` R1040,
R1041). -/
def State.instrBreak (s : State) : Bool :=
  let f := s.asFetched
  s.debugOn && !s.dbg.sds &&
    (ibrMatches f.cp15.ibr0 (f.pidRemap s.pc) s.thumb || ibrMatches f.cp15.ibr1 (f.pidRemap s.pc) s.thumb)

/-! The trace buffer -/

/-- The trace message of an instruction, when the buffer was enabled before and after it
(`61_debug_pmu_power` R1060; notes/assumptions 27). -/
def State.traceStep (s0 s : State) : State :=
  if s0.tracing && s.tracing then
    match s.note.flow with
    | .sequential => if s.note.half then s.traceHalf else s.traceSequential
    | .direct => s.traceDirect
    | .indirect => s.traceIndirect
    | .exception => s
    | .idle => s
  else s

/-! The performance counters (R1001 to R1006) -/

/-- The events of a step from `s0` to `s` that a model counts exactly, with their number: those of R1006 (event 0x07 of an
instruction whose condition failed is a free choice); no TLB miss while the TLBs are disabled, and every data access a miss
while the data cache is (R1004). Events 0x03, 0x04 and 0x0B of a step that begins or ends with the unit enabled are free
(notes/assumptions 26). -/
def State.eventCount (s0 s : State) (ev : BitVec 8) : Option Nat :=
  let n := s.note
  if ev = 0x05 then some n.isB.toNat
  else if ev = 0x07 then
    if n.entries ≠ 0 || n.flow == .idle then some 0 else if n.failed then some (s.freeBits 1).toNat else some 1
  else if ev = 0x03 || ev = 0x04 then (if s0.mmuOn || s.mmuOn then none else some 0)
  else if ev = 0x0A then some n.accesses
  else if ev = 0x0B then (if s0.ctrlBit 2 || s.ctrlBit 2 then none else some n.accesses)
  else if ev = 0x0D then some n.wrotePc.toNat
  else if ev = 0x0E then some n.isBranch.toNat
  else if ev = 0x18 then some (n.wrotePc.toNat + n.entries)
  else none

/-- The event numbers of Table 97 (R1004); the others are reserved. -/
def isEvent (ev : BitVec 8) : Bool :=
  decide (ev ≤ 0x0F) || decide (0x17 ≤ ev ∧ ev ≤ 0x1C) || ev == 0x1E || ev == 0x20 || ev == 0x23 ||
    ev == 0x40 || ev == 0x41 || ev == 0x43 || ev == 0x47 || ev == 0x48 || decide (0x80 ≤ ev ∧ ev ≤ 0x87)

/-- Set an overflow flag (R1002). -/
def Pmu.overflow (p : Pmu) (bit : Nat) : Pmu := { p with flag := p.flag ||| (1#5 <<< bit) }

/-- Add to a performance counter; a roll-over sets its flag (R1002). -/
def Pmu.bump (p : Pmu) (k : Fin 4) (n : Nat) : Pmu :=
  let p1 := { p with pmn := p.pmn.set k.val (p.pmn.get k + BitVec.ofNat 32 n) k.isLt }
  if 2 ^ 32 ≤ (p.pmn.get k).toNat + n then p1.overflow (k.val + 1) else p1

/-- Count the event of a counter in a step from `s0`: exactly, or by a free number; a reserved event leaves the counter free
(R1004, R1006; notes/assumptions 26). -/
def State.countEvent (s0 s : State) (k : Fin 4) : State :=
  let ev := s.pmu.event k
  if ev = 0xFF then s
  else if !isEvent ev then
    { s.drawn with pmu := { s.pmu with pmn := s.pmu.pmn.set k.val (s.freeBits 32) k.isLt } }
  else
    match s0.eventCount s ev with
    | some n => { s.drawn with pmu := s.pmu.bump k n }
    | none => { s.drawn with pmu := s.pmu.bump k (s.freeBits 32).toNat }

/-- CCNT advances by a free number of clocks, at least one, or of 64ths of them (R1001, R1006). -/
def State.countClock (s : State) : State :=
  let clocks := (s.freeBits 32).toNat + 1
  let total := if s.pmu.d then s.pmu.presc.toNat + clocks else clocks
  let n := if s.pmu.d then total / 64 else total
  let p1 := { s.pmu with
    ccnt := s.pmu.ccnt + BitVec.ofNat 32 n
    presc := if s.pmu.d then BitVec.ofNat 6 total else s.pmu.presc }
  { s.drawn with pmu := if 2 ^ 32 ≤ s.pmu.ccnt.toNat + n then p1.overflow 0 else p1 }

/-- The counters that were enabled before and after the step count. -/
def State.countStep (s0 s : State) : State :=
  if s0.pmu.e && s.pmu.e then
    let s1 := s.countClock
    if s0.pmu.m || s.pmu.m then s1
    else s0.countEvent (s0.countEvent (s0.countEvent (s0.countEvent s1 0) 1) 2) 3
  else s

/-- The PMU interrupt request, an output of the core (R1000). -/
def State.pmuRequest (s : State) : Bool := s.pmu.flag &&& s.pmu.inten != 0

/-! The branch target buffer (`22_caches` R372 to R374) -/

/-- The history after an outcome: SN, WN, WT, ST are 0 to 3 (R373). -/
def btbHistory (h : BitVec 2) (taken : Bool) : BitVec 2 :=
  if taken then (if h = 3 then 3 else h + 1) else if h = 0 then 0 else h - 1

/-- The entry of an instruction at an MVA: its place in the buffer and its tag (R372). -/
def btbPlace (mva : Word) : Nat × BitVec 24 :=
  ((mva.extractLsb' 2 7).toNat, mva.extractLsb' 9 23 ++ mva.extractLsb' 1 1)

/-- The place and tag of the instruction at the pc, by the MVA it was fetched at. -/
def State.btbKey (s : State) : Nat × BitVec 24 := btbPlace (s.asFetched.pidRemap s.pc)

/-- The entry that the buffer holds for the instruction at the pc. -/
def State.btbHit (s : State) : Option BtbEntry :=
  let p := s.btbKey
  match tableGet p.1 s.btb with
  | some e => if e.tag = p.2 then some e else none
  | none => none

/-- The buffer takes part in a step: it is enabled, and not for fetches from the Debug SRAM (R376). -/
def State.btbOn (s : State) : Bool := s.ctrlBit 11 && !s.inDebugSram

/-- The target of a branch as the buffer holds it: bits 31 to 1 of the MVA (R372). -/
def State.btbTarget (s : State) (va : Word) : BitVec 31 := (s.pidRemap va).extractLsb' 1 31

/-- The word of code that the instruction at the pc was fetched from (`20_memory` R235). -/
def State.fetchedWord (s : State) : Option Word :=
  match fetchWord (s.asFetched.pidRemap s.pc) s.asFetched with
  | .ok w _ => some w
  | .error _ _ => none

/-- The bits of its word of code that the instruction at the pc takes up: all of them in ARM state, one halfword in Thumb
state (`20_memory` R214). -/
def State.codeBits (s : State) : Word :=
  if !s.thumb then 0xFFFFFFFF
  else if s.highHalf (s.asFetched.pidRemap s.pc) then 0xFFFF0000 else 0x0000FFFF

/-- Make the entry of the branch at the pc of `s0`, which was taken, with the history WT (R374). -/
def State.btbMake (s0 s : State) : State :=
  match s0.fetchedWord with
  | some w =>
    let e : BtbEntry :=
      { tag := s0.btbKey.2, target := s0.btbTarget s.pc, history := 2, word := w, bits := s0.codeBits }
    { s with btb := tableSet s0.btbKey.1 e s.btb }
  | none => s

/-- Update the buffer after a B or BL (R374). An entry that is there keeps all but its history, also where a taken second half
of a Thumb BL, or a branch of the other instruction set, goes to another target: R374 stores a target only in a new entry and
does not say, DESIGN CHOICE, notes/assumptions 19. -/
def State.btbStep (s0 s : State) : State :=
  if s0.btbOn && s.note.isB then
    let taken := s.note.flow == .direct
    match s0.btbHit with
    | some e => { s with btb := tableSet s0.btbKey.1 { e with history := btbHistory e.history taken } s.btb }
    | none => if taken then s0.btbMake s else s
  else s

/-- The word of code no longer holds the branch that the entry was made for. -/
def BtbEntry.modified (e : BtbEntry) (w : Word) : Bool := w &&& e.bits != e.word &&& e.bits

/-- The buffer holds an entry for the instruction at the pc, whose address no longer holds the branch of that entry (R375).
Unmodified code is not stale in either instruction set: the tag has no T bit (R372), and a word whose ARM branch made the entry
may run as a Thumb instruction, a wrong prediction that is corrected. -/
def State.btbStale (s : State) : Bool :=
  s.btbOn && s.btbHit.any fun e => s.fetchedWord.any e.modified

/-- Executing modified code over an entry of the branch it replaced is unpredictable (R375). -/
def State.guardBtb (s0 : State) (r : Host.Outcome State Fault Refusal) : Host.Outcome State Fault Refusal :=
  match r with
  | .next s => if s0.btbStale then .refused .staleBranchTarget else .next s
  | r => r

/-- The buffer predicted the branch that was taken: its history is WT or ST (R373), and its target is where the branch went;
another target is a wrong prediction, which is corrected (R375): DEDUCED, notes/assumptions 19. -/
def State.btbPredicted (s0 s : State) : Bool :=
  s0.btbOn && s.note.flow == .direct &&
    s0.btbHit.any fun e => decide (2 ≤ e.history) && e.target == s0.btbTarget s.pc

/-- A taken branch that was not predicted, an exception entry and an exception return discard what is already fetched
(`70_reset_and_hazards` R1131 a). That is the earlier views; the instruction fetch buffers stay, though R1131 a names them:
`22_caches` R362 and R363 let them go on hitting, and R368 names what invalidates them: DESIGN CHOICE, notes/assumptions 29. -/
def State.dropFetched (s0 s : State) : State :=
  if s.note.flow == .sequential || s.note.flow == .idle || s0.btbPredicted s then s else { s with stale := [] }

/-- Everything recorded about a step from `s0` to `s`. -/
def State.account (s0 s : State) : State :=
  s0.dropFetched (s0.countStep (s0.btbStep (s0.traceStep s)))

/-- Execution in sequence past the top of the address space (`10_state` R38). -/
def State.pastTop (s0 s : State) : Bool :=
  s.note.flow == .sequential && decide (s0.nextPc < s0.pc)

/-- The end of an instruction that ran from `s0`. -/
def finishStep (s0 : State) (r : Host.Outcome State Fault Refusal) : Host.Outcome State Fault Refusal :=
  match r with
  | .next s => if s0.pastTop s then .fault .pcPastTop else .next (s0.account s)
  | .fault f => .fault f
  | .refused e => .refused e

end Sys2Proof.Machine
end

