-- ==== Sys2Proof/Machine/Events.lean ====
section
/-!
DEFINITION. The events between instructions: reset, the low-power state, the asynchronous exceptions, the
debugger's scans, and the other bus agents (`60_exceptions` R885, `70_reset_and_hazards` R1100 to R1108,
`61_debug_pmu_power` R1028, R1032, R1053 to R1078, R1090, `22_caches` R404, R410).
-/
namespace Sys2Proof.Machine

/-! Reset -/

/-- The core is held in reset (`70_reset_and_hazards` R1100). -/
def State.inReset (s : State) : Bool := s.pins.resetPin || s.dbg.holdReset

/-- CP15 after reset; `f k` is free value number `k` (R1101). -/
def resetCp15 (f : Nat → Word) : Cp15 :=
  { ctrl := 0x00000078, auxctrl := 0, ttbase := f 0 &&& 0xFFFFC01C, dacr := f 1, fsr := f 2 &&& 0x000006FF
    far := f 3, dclock := false, pid := 0, ibr0 := f 4 &&& ~~~1, ibr1 := f 5 &&& ~~~1, dbr0 := f 6
    dbr1 := f 7, dbcon := 0, cpar := 0, l2Ever := false }

/-- The performance monitoring unit after reset. -/
def resetPmu (f : Nat → Word) : Pmu :=
  { e := false, d := (f 0).getLsbD 0, m := (f 0).getLsbD 1, ccnt := f 1, presc := (f 2).extractLsb' 0 6
    inten := 0, flag := 0, evtsel := f 3, pmn := Vector.ofFn fun k => f (4 + k.val) }

/-- The debug unit after reset: the debugger's bits, the trace buffer and the Debug SRAM stay
(`70_reset_and_hazards` R1104). -/
def resetDebug (f : Nat → Word) (d : Debug) : Debug :=
  { d with
    dcsr := d.dcsr &&& ~~~0x8000007F, sds := false, pendFull := false, hit := false
    chkpt0 := f 0, chkpt1 := f 1, tx := f 2, rx := f 3, rr := false, ov := false, tr := false }

/-- The reset sequence without the vector trap (R1101): what the spec does not give is free. -/
def State.resetCore (s : State) : State :=
  let f (k : Nat) : Word := Config.freeBits 32 (s.free + k)
  { s with
    regs := Vector.ofFn fun k => f k.val
    spsrs := Vector.ofFn fun k => f (32 + k.val)
    cpsr := (f 38).extractLsb' 8 24 ++ (0xD3 : BitVec 8)
    pc := 0
    acc0 := Config.freeBits 40 (s.free + 39)
    cp15 := resetCp15 fun k => f (40 + k)
    pmu := resetPmu fun k => f (48 + k)
    dbg := resetDebug (fun k => f (56 + k)) s.dbg
    err := { errlog := 0, erradrl := 0, erradru := 0, sbeIrq := false }
    pwr := { mode := 0, cclkcfg := (f 60).extractLsb' 0 4 }
    itlb := Tlb.reset
    dtlb := Tlb.reset
    icache := { lines := [], repl := [], buffers := [] }
    btb := []
    dcache := { lines := [], repl := [] }
    buffers := []
    l2 := { lines := [], used := [] }
    l2Out := []
    stale := []
    subWord := false
    pendingAbort := none
    free := s.free + 61 }

/-- The end of reset: the sequence, then the reset vector trap (R1101, R1105). -/
def State.leaveReset (s : State) : State := s.resetCore.vectorTrap .reset

/-- Change the pin or the hold, running the reset sequence when the core leaves reset (R1100). -/
def State.changeReset (s : State) (f : State → State) : State :=
  let s1 := f s
  if s.inReset && !s1.inReset then s1.leaveReset else s1

/-! Pending events (`60_exceptions` R885, R886) -/

/-- A JTAG or trace-buffer-full break has to wait: Special Debug State, or Abort mode of Monitor Mode
(`61_debug_pmu_power` R1028, R1032). A JTAG break that finds SDS set in Monitor Mode, in the handler of an SOC break, waits as
it does in Halt Mode: the pseudocode of R1028 has no case for it and would take it, while R1022, R1030 and R1033 ignore it,
DESIGN CHOICE, notes/assumptions 66. -/
def State.breaksWait (s : State) : Bool := s.dbg.sds || (!s.haltMode && s.mode == modeAbort)

/-- The JTAG debug break is to be taken (R1028). -/
def State.jtagNow (s : State) : Bool := s.dbg.jtagBreak && !s.breaksWait

/-- The trace-buffer-full break is to be taken (R1032, R1068). -/
def State.fullNow (s : State) : Bool := s.dbg.pendFull && s.debugOn && !s.breaksWait

/-- The SOC debug break is to be taken (R1027). -/
def State.socNow (s : State) : Bool := s.pins.soc && s.debugOn && !s.dbg.sds

/-- Take one of the breaks of rank 6: which one, when several are due, is free, and MOE and the entry are those of the
one taken (R1032; notes/assumptions 44). -/
def State.takeBreak (s : State) : State :=
  let r : BitVec 2 := s.freeBits 2
  let full := s.fullNow && (!(s.jtagNow || s.socNow) || r.getLsbD 0)
  let soc := !full && s.socNow && (!s.jtagNow || r.getLsbD 1)
  let moe : BitVec 3 := if full then 0b110 else 0b100
  if soc then s.drawn.enterDebugMode moe (s.pc + 4) else s.drawn.debugException .dataAbort moe (s.pc + 4)

/-- The highest pending event between two instructions, ranks 4 to 8 (R885); `hold` leaves the asynchronous
ones pending (R886). -/
def State.takeEvent (s : State) (hold : Bool) : Option State :=
  if s.dbg.hit && !s.dbg.sds then some (s.debugException .dataAbort 0b010 (s.pc + 4))
  else if hold then none
  else
    match s.pendingAbort with
    | some a => some (s.impreciseAbort a)
    | none =>
      if s.jtagNow || s.fullNow || s.socNow then some s.takeBreak
      else if s.pins.fiq && !s.cpsr.getLsbD 6 && !s.dbg.sds then
        some (s.takeException .fiq (s.pc + 4) false)
      else if s.pins.irq && !s.cpsr.getLsbD 7 && !s.dbg.sds then
        some (s.takeException .irq (s.pc + 4) false)
      else none

/-- The event of the instruction about to execute before its fetch, rank 9. -/
def State.takeInstrBreak (s : State) : Option State :=
  if s.instrBreak then some (s.debugException .prefetchAbort 0b001 (s.pc + 4)) else none

/-- The core sleeps in a low-power state and no interrupt input wakes it (`61_debug_pmu_power` R1090). -/
def State.asleep (s : State) : Bool := s.pwr.mode != 0 && !s.pins.irq && !s.pins.fiq

/-- The core is in ACTIVE mode. -/
def State.awake (s : State) : State := { s with pwr := { s.pwr with mode := 0 } }

/-- What ends a fetch (`60_exceptions` R895; in Special Debug State `61_debug_pmu_power` R1030). -/
def fetchStopped (e : Stop) (s : State) : Host.Outcome State Fault Refusal :=
  match e with
  | .abort fs _ _ => if s.dbg.sds then .fault .prefetchAbortInSds else .next (s.prefetchAbort fs)
  | .undefined => s.raiseUndefined
  | .fault r => .fault r
  | .refuse r => .refused r

/-! The debugger (`61_debug_pmu_power` R1053 to R1078) -/

/-- The seven JTAG instruction opcodes the spec gives. -/
def irSelDcsr : BitVec 7 := 0b0001001
def irDbgTx : BitVec 7 := 0b0010000
def irDbgRx : BitVec 7 := 0b0000010
def irLdSram : BitVec 7 := 0b0000111

/-- The DCSR bits that JTAG writes: H and the traps (`10_state` R130). -/
def dcsrJtag : Word := 0x40DF0000

/-- The JTAG instruction must stay LDSRAM: a download is on its way (R1076), or a Download Request has had no
Download Complete (R1078). -/
def State.downloading (s : State) : Bool := s.dbg.ldReq || s.dbg.ldLeft != 0

/-- A scan of one of the 36-bit registers: the instruction register, and what comes out. -/
def State.scan (s : State) (ir : BitVec 7) (out : BitVec 36) (f : Debug → Debug) :
    Host.Outcome State Fault Refusal :=
  if s.downloading then .refused .debuggerAction
  else .next { s.drawn with dbg := f { s.dbg with jtagIr := ir, dbgSr := out } }

/-- The DCSR bits that SELDCSR writes: without H and TR while Chip Reset is asserted, where the ASSP says so (R1079,
step 3). -/
def State.dcsrScanned (s : State) : Word :=
  if s.pins.resetPin && !Config.haltBitsInReset then dcsrJtag &&& ~~~0x40010000 else dcsrJtag

/-- SELDCSR (R1054). Setting hold_reset while the core runs puts it in reset at once (`70_reset_and_hazards` R1100, though
R1055 calls the case not described): DESIGN CHOICE, notes/assumptions 36. -/
def State.scanSelDcsr (s : State) (sr : BitVec 36) : Host.Outcome State Fault Refusal :=
  let r := Config.freeBits 36 s.free
  let pin : Word := if s.pins.soc then 0x20000000 else 0
  let value := ((s.dbg.dcsr ||| pin) &&& ~~~0x1F20FF80) ||| (r.extractLsb' 3 32 &&& 0x1F20FF80)
  match s.scan irSelDcsr (r.extractLsb' 35 1 ++ value ++ (0b01 : BitVec 2) ++ r.extractLsb' 0 1) id with
  | .next s1 =>
    .next (s1.changeReset fun s => { s with dbg := { s.dbg with
      dcsr := (s.dbg.dcsr &&& ~~~s.dcsrScanned) ||| (sr.extractLsb' 3 32 &&& s.dcsrScanned)
      jtagBreak := sr.getLsbD 2
      holdReset := sr.getLsbD 1 } })
  | r => r

/-- DBGTX (R1056). -/
def State.scanTx (s : State) : Host.Outcome State Fault Refusal :=
  let r := Config.freeBits 36 s.free
  s.scan irDbgTx
    (r.extractLsb' 35 1 ++ (if s.dbg.tr then s.dbg.tx else r.extractLsb' 3 32) ++ r.extractLsb' 1 2 ++
      BitVec.ofBool s.dbg.tr)
    fun d => { d with tr := false }

/-- DBGRX (R1057). -/
def State.scanRx (s : State) (data : Word) (rxValid flushRr hsDownload : Bool) :
    Host.Outcome State Fault Refusal :=
  if rxValid && flushRr then .refused .debuggerAction
  else
    s.scan irDbgRx ((Config.freeBits 36 s.free).extractLsb' 1 35 ++ BitVec.ofBool s.dbg.rr) fun d =>
      let d1 := { d with d := hsDownload, rr := d.rr && !flushRr }
      if rxValid then
        if d.rr then { d1 with ov := true } else { d1 with rx := data, rr := true }
      else d1

/-- Write a word of the Debug SRAM. -/
def sramPut (k : Nat) (v : Word) (t : List (Nat × Word)) : List (Nat × Word) :=
  if v = 0 then tableErase k t else tableSet k v t

/-- The parity of a data packet: the exclusive or of its 32 data bits (R1077). -/
def packetParity (v : Word) : Bool := (List.range 32).foldl (fun p k => p != v.getLsbD k) false

/-- A data packet of the Load Debug SRAM function: one word; a wrong parity bit is not the host's to send
(R1077). -/
def State.ldData (s : State) (p : BitVec 33) : Host.Outcome State Fault Refusal :=
  if p.getLsbD 32 = packetParity (p.extractLsb' 0 32) then
    .next { s with dbg := { s.dbg with
      sram := sramPut s.dbg.ldAddr.toNat (p.extractLsb' 0 32) s.dbg.sram
      ldAddr := s.dbg.ldAddr + 1, ldLeft := s.dbg.ldLeft - 1 } }
  else .refused .debuggerAction

/-- The first packet of an LDSRAM function (R1077, R1078): a load waits for the Ready flag once a download is
requested. -/
def State.ldFunction (s : State) (p : BitVec 33) : Host.Outcome State Fault Refusal :=
  let f := p.extractLsb' 0 3
  if f = 0b000 ∨ f = 0b001 then .next s
  else if f = 0b011 then
    if p.extractLsb' 12 21 = 0 ∧ p.extractLsb' 3 3 = 0 ∧ (s.dbg.ldReq → s.dbg.ready) then
      .next { s with dbg := { s.dbg with ldLeft := 8, ldAddr := p.extractLsb' 6 6 ++ (0 : BitVec 3) } }
    else .refused .debuggerAction
  else if p.extractLsb' 3 30 ≠ 0 then .refused .debuggerAction
  else if f = 0b100 then .next { s with dbg := { s.dbg with ldReq := true } }
  else if f = 0b101 then .next { s with dbg := { s.dbg with ldReq := false, ready := false } }
  else .refused .debuggerAction

/-- LDSRAM (R1076): the Ready flag comes out, a free one from the request on until it is set; the packet goes in. -/
def State.scanLdSram (s : State) (packet : BitVec 33) : Host.Outcome State Fault Refusal :=
  let r := Config.freeBits 33 s.free
  let ready := s.dbg.ready || (s.dbg.ldReq && r.getLsbD 0)
  let s1 := { s.drawn with dbg := { s.dbg with
    jtagIr := irLdSram, ready := ready, ldSr1 := r.extractLsb' 1 32 ++ BitVec.ofBool ready
    ldReg := packet, ldSr2 := packet } }
  if s.dbg.ldLeft = 0 then s1.ldFunction packet else s1.ldData packet

/-- The identification register (R1058). -/
def idCode : Word :=
  (Config.jtagVersion.setWidth 32 <<< 28) ||| 0x0E640013 ||| (Config.jtagModel.setWidth 32 <<< 12)

/-- Reading the identification register; its opcode is not given, so the instruction register is free. -/
def State.scanId (s : State) : Host.Outcome State Fault Refusal :=
  let r := Config.freeBits 36 s.free
  s.scan (r.extractLsb' 0 7) (r.extractLsb' 32 4 ++ idCode) id

/-- JTAG reset (R1053, `70_reset_and_hazards` R1108); in the middle of a download its results are unpredictable
(R1077). Whether it clears jtag_dbg_break is not stated (R1028, R1053, R1108): it stays, DESIGN CHOICE, notes/assumptions
36. -/
def State.jtagReset (s : State) : Host.Outcome State Fault Refusal :=
  if s.downloading then .refused .debuggerAction
  else
    .next (s.changeReset fun s => { s.drawn with dbg := { s.dbg with
      jtagIr := (Config.freeBits 39 s.free).extractLsb' 32 7
      dcsr := s.dbg.dcsr &&& ~~~dcsrJtag
      holdReset := false
      rr := false
      d := false
      rx := (Config.freeBits 39 s.free).extractLsb' 0 32 } })

/-! Other bus agents (`22_caches` R404, R408, R414) -/

/-- Snoops happen: shared memory, a coherent platform, the L2 on, and not in reset (`70_reset_and_hazards` R1100). With the
L1 data cache disabled, where the spec supports no coherency and does not say what a snoop does (`22_caches` R383), they
go on: DESIGN CHOICE, notes/assumptions 22. -/
def State.snoops (s : State) (shared : Bool) : Bool := shared && s.cfg.coherent && s.l2On && !s.inReset

/-- The shared lines of a block leave the L1 data cache (`20_memory` R260). -/
def State.dropShared (s : State) (line : BitVec 31) : State :=
  { s with dcache := { s.dcache with
      lines := tableKeep (fun l => !(l.shared && l.pa == line)) s.dcache.lines } }

/-- A request of another agent to shared memory: what this core stored to the block, and what the L2 set/way functions
wrote back of it, leaves first, and the L1 data cache no longer holds it. That what waits comes before the request is a DESIGN
CHOICE, notes/assumptions 60: `22_caches` R390 lists no snoop among what releases a store, `20_memory` R245 and R260 promise no
order. -/
def State.snooped (s : State) (line : BitVec 31) : State :=
  ((s.releaseLine line).releaseOut line).dropShared line

/-- A snoop: `f` tells what becomes of a line held in the L2. What an uncorrectable error does to a snoop is not
stated (`22_caches` R423). -/
def State.snoopLine (s : State) (line : BitVec 31)
    (f : Nat → L2Line → State → Host.Outcome State Fault Refusal) : Host.Outcome State Fault Refusal :=
  let s1 := s.snooped line
  match s1.l2Find line with
  | some (k, l) =>
    let (s2, ok) := s1.l2Error k l
    if ok then f k { l with err := L2Error.none } s2 else .refused .maintenance
  | none => .next s1

/-- Another agent reads a block: a line held here answers and becomes owned or shared. -/
def State.snoopRead (s : State) (line : BitVec 31) : Host.Outcome State Fault Refusal :=
  s.snoopLine line fun k l s =>
    .next <| s.l2Put k { l with st := match l.st with | .modified => .owned | .exclusive => .shared | x => x }

/-- Another agent writes bytes of a block: a line held here is written back, unlocked and invalidated first. A bus error
on that write-back is unpredictable (`22_caches` R423, `93_implementation_defined` section 2.2). -/
def State.snoopWrite (s : State) (line : BitVec 31) : Host.Outcome State Fault Refusal :=
  s.snoopLine line fun k l s =>
    orRefuse (!l.dirty || s.busError l.pa == 0) .maintenance <|
    .next ((if l.dirty then s.busWriteLine l.pa wholeLine l.unk l.data else s).l2Drop k)

/-- Another agent pushes a block into the L2: the line is allocated as modified; one that is held is overwritten, with
the errors it had, which nothing reports. An error on the write-back of the dirty line of another block that the push
displaces is logged and raises an imprecise abort, as on any write-back, though R423 calls what an error of an external snoop
transaction does unpredictable. Both: DESIGN CHOICE, notes/assumptions 22. -/
def State.snoopPush (s : State) (line : BitVec 31) (data : BitVec 256) : State :=
  let s1 := s.snooped line
  match s1.l2Find line with
  | some (k, _) => (s1.l2Put k (writtenLine line 0 data)).l2Touch k
  | none => s1.l2Allocate (writtenLine line 0 data)

/-- Another agent pushes a block elsewhere: a line held here is lost, even a modified one (`22_caches` R404). -/
def State.snoopPushOther (s : State) (line : BitVec 31) : State :=
  let s1 := s.snooped line
  match s1.l2Find line with
  | some (k, _) => s1.l2Drop k
  | none => s1

/-- Another agent changes bytes of a block, after the snoop `r`; what its own caches hold counts as memory. -/
def otherWrites (line : BitVec 31) (mask : BitVec 32) (data : BitVec 256)
    (r : Host.Outcome State Fault Refusal) : Host.Outcome State Fault Refusal :=
  match r with
  | .next s => .next { s with mem := memWriteLine s.mem line mask data }
  | r => r

/-- An instruction is fetched that is not executed next: what the fetch leaves stays, and an abort of it is not
taken (`70_reset_and_hazards` R1133; notes/assumptions 18). -/
def State.fetchAhead (s : State) (va : Word) : State :=
  if s.asleep || s.inDebugSram then s
  else
    match fetchWord (s.pidRemap va) s with
    | .ok _ s1 => s1
    | .error _ s1 => s1

/-- A write-back of the L2 set/way functions reaches memory, with the others of its block. -/
def State.drainOut (s : State) (k : Nat) : State :=
  match s.l2Out[k]? with
  | some e => s.releaseOut e.line
  | none => s

/-- A buffered entry leaves, with the others of its block (`22_caches` R390). -/
def State.drainEntry (s : State) (k : Nat) : State :=
  match s.buffers[k]? with
  | some e => s.releaseLine e.line
  | none => s

/-- Change an entry of a table, if it is there. -/
def tableChange {α : Type} (k : Nat) (f : α → α) (t : List (Nat × α)) : List (Nat × α) :=
  match tableGet k t with
  | some v => tableSet k (f v) t
  | none => t

/-- A move takes place in this core's own buffers and caches. -/
def Move.inCore (m : Move) : Bool :=
  match m with
  | .drain _ | .drainL2 _ | .fetchAhead _ | .push .. | .asyncError | .injectI .. | .injectD .. | .injectL2 .. => true
  | .core | .hold | .irq _ | .fiq _ | .soc _ | .resetPin _ | .selDcsr _ | .dbgTx | .dbgRx .. | .ldSram _ | .idcode
  | .jtagReset | .busRead .. | .busWrite .. | .pushOther .. => false

/-- A move of an agent other than the core (notes/assumptions 11). In reset the core itself does nothing: what its buffers and
caches would do does not happen (`70_reset_and_hazards` R1100). -/
def State.agentMove (s : State) (m : Move) : Host.Outcome State Fault Refusal :=
  if s.inReset && m.inCore then .next s else
  match m with
  | .core => .next s
  | .hold => .next s
  | .drain k => .next (s.drainEntry k)
  | .drainL2 k => .next (s.drainOut k)
  | .fetchAhead va => .next (s.fetchAhead va)
  | .irq level => .next { s with pins := { s.pins with irq := level } }
  | .fiq level => .next { s with pins := { s.pins with fiq := level } }
  | .soc level => .next { s with pins := { s.pins with soc := level } }
  | .resetPin level => .next (s.changeReset fun s => { s with pins := { s.pins with resetPin := level } })
  | .selDcsr sr => s.scanSelDcsr sr
  | .dbgTx => s.scanTx
  | .dbgRx data rxValid flushRr hsDownload => s.scanRx data rxValid flushRr hsDownload
  | .ldSram packet => s.scanLdSram packet
  | .idcode => s.scanId
  | .jtagReset => s.jtagReset
  | .busRead line shared => if s.snoops shared then s.snoopRead line else .next s
  | .busWrite line mask data shared =>
    otherWrites line mask data (if s.snoops shared then s.snoopWrite line else .next s)
  | .push line data => if s.snoops true then .next (s.snoopPush line data) else .next s
  | .pushOther line data =>
    otherWrites line wholeLine data (.next (if s.snoops true then s.snoopPushOther line else s))
  | .asyncError => .next (s.pend .external)
  | .injectI k words =>
    .next { s with icache := { s.icache with
      lines := tableChange k (fun l => { l with bad := l.bad ||| words }) s.icache.lines } }
  | .injectD k bytes =>
    .next { s with dcache := { s.dcache with
      lines := tableChange k (fun l => { l with bad := l.bad ||| bytes }) s.dcache.lines } }
  | .injectL2 k e =>
    .next { s with l2 := { s.l2 with lines := tableChange k (fun l => { l with err := e }) s.l2.lines } }

/-! Placing an instruction -/

/-- Write a word of the base store at a physical address. -/
def memSetWord (m : List Host.Cell) (a : Nat) (v : Word) : List Host.Cell :=
  memSetByte (memSetByte (memSetByte (memSetByte m a (v.extractLsb' 0 8)) (a + 1) (v.extractLsb' 8 8))
    (a + 2) (v.extractLsb' 16 8)) (a + 3) (v.extractLsb' 24 8)

/-- The physical address the pc is fetched at, where its translation succeeds. -/
def State.fetchAddress (s : State) : Option (BitVec 36) :=
  match translate (s.pidRemap s.pc) .fetch s.privileged s with
  | .ok m _ => some (m.pa &&& ~~~3)
  | .error _ _ => none

/-- Store an instruction where the pc is fetched: in the Debug SRAM, or in memory with no stale copy in the
fetch buffers, the instruction cache and the L2. -/
def State.placeInstr (s : State) (w : Word) : State :=
  if s.inDebugSram then
    { s with dbg := { s.dbg with sram := sramPut (s.pc.extractLsb' 2 9).toNat w s.dbg.sram } }
  else
    match s.fetchAddress with
    | some pa =>
      let s1 := s.flushFetch
      { s1 with
        mem := memSetWord s1.mem pa.toNat w
        icache := { s1.icache with lines := tableKeep (fun l => l.tag != l1Tag (s.pidRemap s.pc)) s1.icache.lines }
        l2 := { s1.l2 with lines := tableKeep (fun l => l.pa != blockOf pa) s1.l2.lines } }
    | none => s

end Sys2Proof.Machine
end

