-- ==== Sys2Proof/Machine/Step.lean ====
section
/-!
DEFINITION. One step of the machine: the next move of the schedule, and the core's step
(`60_exceptions` R885, `40_arm_base` R500, `41_dsp_thumb` R670).
-/
namespace Sys2Proof.Machine

noncomputable section

/-- Fetch, decode and execute the instruction at the pc. -/
def runInstr (s : State) : Host.Outcome State Fault Refusal :=
  match fetchNext s with
  | .error e s1 => finishStep s (fetchStopped e s1)
  | .ok c s1 => finishStep s (s.guardBtb (exec (decode c) s1))

/-- The core steps: nothing in reset or asleep; else the highest pending event, or the instruction at the
pc. -/
def coreStep (hold : Bool) (s : State) : Host.Outcome State Fault Refusal :=
  if s.inReset || s.asleep then .next s
  else
    let s := s.awake
    match s.takeEvent hold with
    | some s1 => .next (s.account s1)
    | none =>
      let s := s.settleView
      match s.takeInstrBreak with
      | some s1 => .next (s.account s1)
      | none => runInstr s

/-- A move of the schedule. -/
def stepMove (m : Move) (s : State) : Host.Outcome State Fault Refusal :=
  match m with
  | .core => coreStep false s
  | .hold => coreStep true s
  | m => s.agentMove m

/-- One step: the head of the schedule moves; with an empty schedule the core does
(notes/assumptions 11). -/
def step (s : State) : Host.Outcome State Fault Refusal :=
  let s := { s with note := Note.empty }
  match s.schedule with
  | [] => coreStep false s
  | m :: rest => stepMove m { s with schedule := rest }

/-- The state whose next step runs the instruction with the bits `w` (notes/assumptions 12): a 16-bit one in
Thumb state, a 32-bit one in ARM state. -/
def State.withFetchWord (s : State) (nbits w : Nat) : State :=
  let s1 := { s.setThumb (nbits == 16) with
    schedule := [], stale := [], btb := tableErase (btbPlace (s.pidRemap s.pc)).1 s.btb }
  let v := BitVec.ofNat 32 (w % 2 ^ nbits)
  s1.placeInstr (if s1.thumb && s1.highHalf (s1.pidRemap s1.pc) then v <<< 16 else v)

end

end Sys2Proof.Machine
end

