-- ==== Sys2Proof/Safety.lean ====
section
/-!
DEFINITION. What holds of every state a run meets: the canonical form of memory, the legal modes, the alignment
of the pc, and the reserved bits of the control registers.
-/
namespace Sys2Proof.Machine

/-- The pc is aligned to the instruction set state: a word in ARM state, a halfword in Thumb state
(`10_state` R35, R37). -/
def State.pcAligned (s : State) : Bool :=
  if s.thumb then !s.pc.getLsbD 0 else s.pc.extractLsb' 0 2 == 0

/-- The bits of the control registers that no write reaches keep their values (`10_state` R75, R77, R79, R82,
R100, R102, R130). -/
def State.reservedOk (s : State) : Bool :=
  s.cp15.ctrl &&& ~~~0x04003B87 == 0x00000078 && s.cp15.auxctrl &&& ~~~0x00000C32 == 0 &&
    s.cp15.ttbase &&& ~~~0xFFFFC01C == 0 && s.cp15.fsr &&& ~~~0x000006FF == 0 &&
    s.cp15.dbcon &&& ~~~0x0000010F == 0 && s.dbg.dcsr &&& ~~~0xC0DF007F == 0

/-- The invariant of the machine. -/
structure State.Inv (s : State) : Prop where
  /-- memory is in its canonical form -/
  memory   : Memory.wf s.mem = true
  /-- the mode is one of `10_state` R42 -/
  mode     : isMode s.mode = true
  /-- the pc is aligned -/
  aligned  : s.pcAligned = true
  /-- reserved bits -/
  reserved : s.reservedOk = true

/-- A run of `k` steps with an instruction at every step: no fault, no refusal. -/
def safeFor : Nat → State → Prop
  | 0, _ => True
  | k + 1, s => ∃ s', step s = .next s' ∧ safeFor k s'

end Sys2Proof.Machine
end

