-- ==== Sys2Proof/Certificates/Slice0/Obligations.lean ====
section
/-!
DEFINITION. The statements for the provers, and before them the words they are written in: what it means that an
instruction completes, what a frame leaves alone, and the arithmetic of the spec in plain numbers.
-/
namespace Sys2Proof.Spec

open Sys2Proof.Machine

/-! Completion -/

/-- The instruction answers a next state, and `P` holds of it. -/
def Gives (i : Instr) (s : State) (P : State → Prop) : Prop := ∃ t, exec i s = .next t ∧ P t

/-! Frames -/

/-- The physical register that `Rn` names in the present mode, for `n` below 15. -/
def phys (s : State) (n : Reg) : BitVec 5 := physIndex s.mode n

/-- No byte. -/
def noBytes : Nat → Prop := fun _ => False

/-- The `n` bytes from physical address `p`. -/
def bytes (p n : Nat) : Nat → Prop := fun a => p ≤ a ∧ a < p + n

/-- Of the general registers only those of `ks` may differ; of memory only the bytes `stored`; every other piece of
state is the same, but for the CPSR, the pc and the model's own `note` and `free`. That an access of less than a word was
made (`10_state` R76 b) may become known. -/
structure Frame (s t : State) (ks : List (BitVec 5)) (stored : Nat → Prop) : Prop where
  regs : ∀ k : BitVec 5, k ∉ ks → t.regs.get k.toFin = s.regs.get k.toFin
  mem : ∀ a, ¬ stored a → memByte t.mem a = memByte s.mem a
  spsrs : t.spsrs = s.spsrs
  acc0 : t.acc0 = s.acc0
  cp15 : t.cp15 = s.cp15
  pmu : t.pmu = s.pmu
  dbg : t.dbg = s.dbg
  err : t.err = s.err
  pwr : t.pwr = s.pwr
  itlb : t.itlb = s.itlb
  dtlb : t.dtlb = s.dtlb
  icache : t.icache = s.icache
  btb : t.btb = s.btb
  dcache : t.dcache = s.dcache
  buffers : t.buffers = s.buffers
  l2 : t.l2 = s.l2
  l2Out : t.l2Out = s.l2Out
  stale : t.stale = s.stale
  subWord : s.subWord = true → t.subWord = true
  pins : t.pins = s.pins
  pendingAbort : t.pendingAbort = s.pendingAbort
  schedule : t.schedule = s.schedule
  cfg : t.cfg = s.cfg

/-- The flags of `t`, the other 28 bits of the CPSR being those of `s`. -/
def FlagsAre (s t : State) (n z c v : Bool) : Prop :=
  t.flagN = n ∧ t.flagZ = z ∧ t.flagC = c ∧ t.flagV = v ∧
    t.cpsr.extractLsb' 0 28 = s.cpsr.extractLsb' 0 28

/-! Arithmetic -/

/-- A number is no signed 32-bit number. -/
def outOfRange (x : Int) : Bool := decide (x < -(2 ^ 31) ∨ 2 ^ 31 ≤ x)

/-- `a + b + c`: C is the carry out, V the signed overflow. -/
def plus (a b : Word) (c : Bool) : Sum :=
  { value := a + b + (if c then 1 else 0)
    carry := decide (2 ^ 32 ≤ a.toNat + b.toNat + c.toNat)
    overflow := outOfRange (a.toInt + b.toInt + (c.toNat : Int)) }

/-- `a - b` and one less with a borrow: C is the absence of a borrow, V the signed overflow. -/
def minus (a b : Word) (borrow : Bool) : Sum :=
  { value := a - b - (if borrow then 1 else 0)
    carry := decide (b.toNat + borrow.toNat ≤ a.toNat)
    overflow := outOfRange (a.toInt - b.toInt - (borrow.toNat : Int)) }

/-- The sticky flag Q. -/
def flagQ (s : State) : Bool := s.cpsr.getLsbD 27

/-- The CPSR with Q set when `q` holds. -/
def withQ (cpsr : Word) (q : Bool) : Word := if q then cpsr ||| 0x08000000 else cpsr

/-- The nearest signed 32-bit number. -/
def clamp (x : Int) : Int := max (-(2 ^ 31)) (min x (2 ^ 31 - 1))

/-- A half of a register as a signed number. -/
def signedHalf (v : Word) (top : Bool) : Int :=
  if top then (v.extractLsb' 16 16).toInt else (v.extractLsb' 0 16).toInt

/-! Data processing -/

/-- `Rd` receives `v`, the status becomes `cpsr`, the next instruction in sequence follows, nothing else
changes. -/
def Writes (i : Instr) (s : State) (rd : Reg) (v cpsr : Word) : Prop :=
  Gives i s fun t =>
    t.regIn s.mode rd = v ∧ t.cpsr = cpsr ∧ t.pc = s.nextPc ∧ Frame s t [phys s rd] noBytes

/-- `Rd` receives a result; the flags are those of the result when `flags` holds, else unchanged. -/
def Computes (i : Instr) (s : State) (rd : Reg) (flags : Bool) (r : Sum) : Prop :=
  Gives i s fun t =>
    t.regIn s.mode rd = r.value ∧ t.pc = s.nextPc ∧ Frame s t [phys s rd] noBytes ∧
    (if flags then FlagsAre s t r.value.msb (r.value == 0) r.carry r.overflow else t.cpsr = s.cpsr)

/-- Only the flags receive a result. -/
def Compares (i : Instr) (s : State) (r : Sum) : Prop :=
  Gives i s fun t =>
    t.pc = s.nextPc ∧ Frame s t [] noBytes ∧
    FlagsAre s t r.value.msb (r.value == 0) r.carry r.overflow

/-- The three forms of the shifter operand. -/
inductive Operand where
  | imm (rotateImm : BitVec 4) (immed8 : BitVec 8)
  | shImm (shiftImm : BitVec 5) (shift : BitVec 2) (rm : Reg)
  | shReg (rs : Reg) (shift : BitVec 2) (rm : Reg)

/-- The value and the carry of an operand. -/
def Operand.eval (s : State) : Operand → Shifted
  | .imm r v => s.opImm r v
  | .shImm n t m => s.opShImm n t m
  | .shReg n t m => s.opShReg n t m

/-- The register forms that are predictable: with a register shift no operand is R15. -/
def Operand.ok : Operand → Bool
  | .imm _ _ => true
  | .shImm _ _ _ => true
  | .shReg rs _ rm => rs != 15 && rm != 15

/-- With a register shift the first operand is not R15 either. -/
def Operand.okFirst (rn : Reg) : Operand → Bool
  | .shReg _ _ _ => rn != 15
  | _ => true

/-- The twelve operations with a destination. -/
inductive DpOp where
  | and | eor | sub | rsb | add | adc | sbc | rsc | orr | mov | bic | mvn

/-- The four comparisons. -/
inductive DpTest where
  | tst | teq | cmp | cmn

/-- The instruction of an operation and an operand; MOV and MVN have no first operand and hold zeros in its
place. -/
def DpOp.instr (cond : Cond) (sBit : Bool) (rn rd : Reg) : DpOp → Operand → Instr
  | .and, .imm r v => .andImm cond sBit rn rd r v
  | .and, .shImm n t m => .andShImm cond sBit rn rd n t m
  | .and, .shReg n t m => .andShReg cond sBit rn rd n t m
  | .eor, .imm r v => .eorImm cond sBit rn rd r v
  | .eor, .shImm n t m => .eorShImm cond sBit rn rd n t m
  | .eor, .shReg n t m => .eorShReg cond sBit rn rd n t m
  | .sub, .imm r v => .subImm cond sBit rn rd r v
  | .sub, .shImm n t m => .subShImm cond sBit rn rd n t m
  | .sub, .shReg n t m => .subShReg cond sBit rn rd n t m
  | .rsb, .imm r v => .rsbImm cond sBit rn rd r v
  | .rsb, .shImm n t m => .rsbShImm cond sBit rn rd n t m
  | .rsb, .shReg n t m => .rsbShReg cond sBit rn rd n t m
  | .add, .imm r v => .addImm cond sBit rn rd r v
  | .add, .shImm n t m => .addShImm cond sBit rn rd n t m
  | .add, .shReg n t m => .addShReg cond sBit rn rd n t m
  | .adc, .imm r v => .adcImm cond sBit rn rd r v
  | .adc, .shImm n t m => .adcShImm cond sBit rn rd n t m
  | .adc, .shReg n t m => .adcShReg cond sBit rn rd n t m
  | .sbc, .imm r v => .sbcImm cond sBit rn rd r v
  | .sbc, .shImm n t m => .sbcShImm cond sBit rn rd n t m
  | .sbc, .shReg n t m => .sbcShReg cond sBit rn rd n t m
  | .rsc, .imm r v => .rscImm cond sBit rn rd r v
  | .rsc, .shImm n t m => .rscShImm cond sBit rn rd n t m
  | .rsc, .shReg n t m => .rscShReg cond sBit rn rd n t m
  | .orr, .imm r v => .orrImm cond sBit rn rd r v
  | .orr, .shImm n t m => .orrShImm cond sBit rn rd n t m
  | .orr, .shReg n t m => .orrShReg cond sBit rn rd n t m
  | .mov, .imm r v => .movImm cond sBit 0 rd r v
  | .mov, .shImm n t m => .movShImm cond sBit 0 rd n t m
  | .mov, .shReg n t m => .movShReg cond sBit 0 rd n t m
  | .bic, .imm r v => .bicImm cond sBit rn rd r v
  | .bic, .shImm n t m => .bicShImm cond sBit rn rd n t m
  | .bic, .shReg n t m => .bicShReg cond sBit rn rd n t m
  | .mvn, .imm r v => .mvnImm cond sBit 0 rd r v
  | .mvn, .shImm n t m => .mvnShImm cond sBit 0 rd n t m
  | .mvn, .shReg n t m => .mvnShReg cond sBit 0 rd n t m

/-- The instruction of a comparison. -/
def DpTest.instr (cond : Cond) (rn : Reg) : DpTest → Operand → Instr
  | .tst, .imm r v => .tstImm cond rn 0 r v
  | .tst, .shImm n t m => .tstShImm cond rn 0 n t m
  | .tst, .shReg n t m => .tstShReg cond rn 0 n t m
  | .teq, .imm r v => .teqImm cond rn 0 r v
  | .teq, .shImm n t m => .teqShImm cond rn 0 n t m
  | .teq, .shReg n t m => .teqShReg cond rn 0 n t m
  | .cmp, .imm r v => .cmpImm cond rn 0 r v
  | .cmp, .shImm n t m => .cmpShImm cond rn 0 n t m
  | .cmp, .shReg n t m => .cmpShReg cond rn 0 n t m
  | .cmn, .imm r v => .cmnImm cond rn 0 r v
  | .cmn, .shImm n t m => .cmnShImm cond rn 0 n t m
  | .cmn, .shReg n t m => .cmnShReg cond rn 0 n t m

/-- The result of an operation on `a` and the operand, in the state `s` (`40_arm_base` R510 to R525). A logical
operation takes C from the shifter and leaves V. -/
def DpOp.result (s : State) (a : Word) (o : Shifted) : DpOp → Sum
  | .and => { value := a &&& o.value, carry := o.carry, overflow := s.flagV }
  | .eor => { value := a ^^^ o.value, carry := o.carry, overflow := s.flagV }
  | .sub => minus a o.value false
  | .rsb => minus o.value a false
  | .add => plus a o.value false
  | .adc => plus a o.value s.flagC
  | .sbc => minus a o.value (!s.flagC)
  | .rsc => minus o.value a (!s.flagC)
  | .orr => { value := a ||| o.value, carry := o.carry, overflow := s.flagV }
  | .mov => { value := o.value, carry := o.carry, overflow := s.flagV }
  | .bic => { value := a &&& ~~~o.value, carry := o.carry, overflow := s.flagV }
  | .mvn => { value := ~~~o.value, carry := o.carry, overflow := s.flagV }

/-- The result a comparison gives the flags. -/
def DpTest.result (s : State) (a : Word) (o : Shifted) : DpTest → Sum
  | .tst => { value := a &&& o.value, carry := o.carry, overflow := s.flagV }
  | .teq => { value := a ^^^ o.value, carry := o.carry, overflow := s.flagV }
  | .cmp => minus a o.value false
  | .cmn => plus a o.value false

/-! Memory at its simplest -/

/-- The MMU is off, no data is cached or buffered, the bus answers everywhere, and no data breakpoint is armed: every
data access is Strongly Ordered (`21_mmu` R281) and goes straight to memory. -/
structure PlainMemory (s : State) : Prop where
  mmu : s.mmuOn = false
  dcache : s.dcache.lines = []
  buffers : s.buffers = []
  l2Out : s.l2Out = []
  bus : s.cfg.busErrors = []
  debug : s.debugOn = false

/-- An access of `n` bytes at `va` passes the alignment check: the check is off, or `va` is a multiple of `n`. -/
def alignedFor (s : State) (va : Word) (n : Nat) : Bool := !s.ctrlBit 1 || va.toNat % n == 0

/-- The physical address of the aligned word that holds `va`. -/
def wordAt (s : State) (va : Word) : Nat := (s.pidRemap va &&& ~~~3).toNat

/-- The physical address of the byte `va`: in big-endian operation the bytes of a word are numbered the other way
(`20_memory` R213). -/
def byteAt (s : State) (va : Word) : Nat :=
  (if s.bigEndian then s.pidRemap va ^^^ 3 else s.pidRemap va).toNat

/-- The physical address of the less significant byte of the halfword at the even address `va`. -/
def halfAt (s : State) (va : Word) : Nat :=
  (if s.bigEndian then s.pidRemap va ^^^ 2 else s.pidRemap va).toNat

/-- The word a load reads: the aligned word rotated right by eight bits for each byte of misalignment
(`20_memory` R222 a). -/
def loadedWord (s : State) (va : Word) : Word :=
  (memWord s.mem (wordAt s va)).rotateRight (8 * (va.toNat % 4))

/-- The byte a load reads. -/
def loadedByte (s : State) (va : Word) : Byte := memByte s.mem (byteAt s va)

/-- The halfword a load reads. -/
def loadedHalf (s : State) (va : Word) : Half :=
  memByte s.mem (halfAt s va + 1) ++ memByte s.mem (halfAt s va)

/-- The base register, where it is written back. -/
def baseRegs (s : State) (rn : Reg) (wb : Option Word) : List (BitVec 5) :=
  match wb with
  | some _ => [phys s rn]
  | none => []

/-- A load of `v` into `Rd`, the base written back as `wb` says. A load with write-back into its own base leaves a value
there that the spec does not give (`45_arm_loadstore` R580). -/
def Loads (i : Instr) (s : State) (rd rn : Reg) (wb : Option Word) (v : Word) : Prop :=
  Gives i s fun t =>
    (wb = none ∨ rd ≠ rn → t.regIn s.mode rd = v) ∧
    (∀ b, wb = some b → rd ≠ rn → t.regIn s.mode rn = b) ∧
    t.cpsr = s.cpsr ∧ t.pc = s.nextPc ∧ Frame s t (phys s rd :: baseRegs s rn wb) noBytes

/-- A store of the low `n` bytes of `v` at physical address `p`, the base written back as `wb` says. With no `v` the
value stored is one that the spec does not give. -/
def Stores (i : Instr) (s : State) (rn : Reg) (wb : Option Word) (p n : Nat) (v : Option Word) : Prop :=
  Gives i s fun t =>
    (∀ x, v = some x → ∀ k, k < n → memByte t.mem (p + k) = x.extractLsb' (8 * k) 8) ∧
    (∀ b, wb = some b → t.regIn s.mode rn = b) ∧
    t.cpsr = s.cpsr ∧ t.pc = s.nextPc ∧ Frame s t (baseRegs s rn wb) (bytes p n)

/-- The value a store of `Rd` writes (`10_state` R36, `45_arm_loadstore` R580): R15 stores the pc and
`STORE_PC_OFFSET`; a base that is written back is not given. -/
def storedValue (s : State) (rd rn : Reg) (wb : Option Word) : Option Word :=
  if wb.isSome && rd == rn then none
  else if rd = 15 then some (s.pc + (if Config.storePcTwelve then 12 else 8))
  else some (s.regIn s.mode rd)

/-- The forms of addressing mode 2 that are predictable, with an immediate. -/
def am2Imm (p w : Bool) (rn : Reg) : Prop := (p = true ∧ w = false) ∨ rn ≠ 15

/-- The forms of addressing mode 2 that are predictable, with a register. -/
def am2Reg (p w : Bool) (rn rm : Reg) : Prop :=
  rm ≠ 15 ∧ ((p = true ∧ w = false) ∨ (rn ≠ 15 ∧ rm ≠ rn))

/-- The forms of addressing mode 3 that are predictable. -/
def am3 (p i w : Bool) (rn hi lo : Reg) : Prop :=
  (i = true ∨ (hi = 0 ∧ lo ≠ 15)) ∧ (p = true ∨ w = false) ∧ ((p = true ∧ w = false) ∨ rn ≠ 15)

/-! Multiple transfers -/

/-- The physical address of word `k` of a block at `start`, with the process id 0. -/
def blockWord (start : Word) (k : Nat) : Nat := ((start + BitVec.ofNat 32 (4 * k)) &&& ~~~3).toNat

/-- The bytes of a block of `n` words. -/
def block (start : Word) (n : Nat) : Nat → Prop :=
  fun a => ∃ k, k < n ∧ bytes (blockWord start k) 4 a

/-- The base a list transfer writes back. -/
def listBase (wBit : Bool) (b : Word) : Option Word := if wBit then some b else none

/-- Loading a list: register number `k` of the list receives word `k` of the block, the base is written back unless it is
in the list; `m` is the mode whose registers are loaded. R15 is not in the list. -/
def LoadsList (i : Instr) (s : State) (m : BitVec 5) (rn : Reg) (wb : Option Word) (start : Word)
    (list : BitVec 16) : Prop :=
  Gives i s fun t =>
    (∀ k r, (listRegs list)[k]? = some r → (wb = none ∨ r ≠ rn) →
      t.regIn m r = memWord s.mem (blockWord start k)) ∧
    (∀ b, wb = some b → list.getLsbD rn.toNat = false → t.regIn s.mode rn = b) ∧
    t.cpsr = s.cpsr ∧ t.pc = s.nextPc ∧
    Frame s t ((listRegs list).map (physIndex m) ++ baseRegs s rn wb) noBytes

/-- Storing a list: word `k` of the block receives register number `k` of the list. The base, when it is written back
and is not the first register of the list, stores a value that the spec does not give (`45_arm_loadstore` R609). -/
def StoresList (i : Instr) (s : State) (m : BitVec 5) (rn : Reg) (wb : Option Word) (start : Word)
    (list : BitVec 16) : Prop :=
  Gives i s fun t =>
    (∀ k r, (listRegs list)[k]? = some r → (wb = none ∨ r ≠ rn ∨ k = 0) →
      ∀ j, j < 4 → memByte t.mem (blockWord start k + j) =
        (if r = 15 then s.pc + (if Config.storePcTwelve then 12 else 8) else s.regIn m r).extractLsb'
          (8 * j) 8) ∧
    (∀ b, wb = some b → t.regIn s.mode rn = b) ∧
    t.cpsr = s.cpsr ∧ t.pc = s.nextPc ∧
    Frame s t (baseRegs s rn wb) (block start (listRegs list).length)

/-! Exceptions -/

/-- Exception entry (`60_exceptions` R882): the link and the old CPSR in the banks of the mode entered, the new mode, ARM
state, IRQ disabled, FIQ disabled when `fiqOff` says so, the pc at the vector; nothing else of the registers or of memory
changes. -/
structure Enters (s t : State) (m : BitVec 5) (link vector : Word) (fiqOff : Bool) : Prop where
  link : t.regIn m 14 = link
  saved : t.spsrOf (bankOf m) = some s.cpsr
  mode : t.mode = m
  arm : t.thumb = false
  irq : t.cpsr.getLsbD 7 = true
  fiq : t.cpsr.getLsbD 6 = (fiqOff || s.cpsr.getLsbD 6)
  rest : t.cpsr.extractLsb' 8 24 = s.cpsr.extractLsb' 8 24
  pc : t.pc = (if s.ctrlBit 13 then 0xFFFF0000 else 0) + vector
  regs : ∀ k : BitVec 5, k ≠ physIndex m 14 → t.regs.get k.toFin = s.regs.get k.toFin
  spsrs : ∀ b, b ≠ bankOf m → t.spsrOf b = s.spsrOf b
  acc0 : t.acc0 = s.acc0
  mem : ∀ a, memByte t.mem a = memByte s.mem a

/-- The undefined instruction exception of the instruction at the pc (`60_exceptions` R890). -/
def Undefined (i : Instr) (s : State) : Prop :=
  Gives i s fun t => Enters s t 0b11011 s.nextPc 4 false ∧ t.cp15 = s.cp15

/-- The data abort of an access at a misaligned address: the link is the pc plus eight, FSR has an alignment status (bit 1
unknown), FAR the modified address; no register but the abort link and no byte of memory changes. -/
def MisalignedAbort (i : Instr) (s : State) (va : Word) : Prop :=
  Gives i s fun t => Enters s t 0b10111 (s.pc + 8) 0x10 false ∧ t.cp15.fsr &&& 0x60D = 1 ∧ t.cp15.far = s.pidRemap va ∧
    t.cp15 = { s.cp15 with fsr := t.cp15.fsr, far := t.cp15.far }

/-! The shifter and the multiplies -/

/-- A register shifted by `n` places: the value and the carry out (`40_arm_base` R504, R506). -/
def shifted (kind : BitVec 2) (m : Word) (n : Nat) (c : Bool) : Shifted :=
  if n = 0 then { value := m, carry := c }
  else if kind = 0 then { value := m <<< n, carry := decide (n ≤ 32) && m.getLsbD (32 - n) }
  else if kind = 1 then { value := m >>> n, carry := m.getLsbD (n - 1) }
  else if kind = 2 then { value := m.sshiftRight n, carry := m.getLsbD (min (n - 1) 31) }
  else { value := m.rotateRight n, carry := (m.rotateRight n).msb }

/-- `RdHi : RdLo` receives a 64-bit result; N and Z are those of the result when `flags` holds. -/
def ComputesPair (i : Instr) (s : State) (hi lo : Reg) (flags : Bool) (r : BitVec 64) : Prop :=
  Gives i s fun t =>
    t.regIn s.mode hi = r.extractLsb' 32 32 ∧ t.regIn s.mode lo = r.extractLsb' 0 32 ∧ t.pc = s.nextPc ∧
    Frame s t [phys s hi, phys s lo] noBytes ∧
    (if flags then FlagsAre s t r.msb (r == 0) s.flagC s.flagV else t.cpsr = s.cpsr)

/-- The 64-bit number in `RdHi : RdLo`. -/
def pairOf (s : State) (hi lo : Reg) : BitVec 64 := s.reg hi ++ s.reg lo

/-- A branch: the pc, the link if there is one, the T bit of the new state. -/
def Branches (i : Instr) (s : State) (target : Word) (link : Option Word) (thumb : Bool) : Prop :=
  Gives i s fun t =>
    t.pc = target ∧ t.cpsr = (if thumb then s.cpsr ||| 0x20 else s.cpsr &&& ~~~0x20) ∧
    (∀ l, link = some l → t.regIn s.mode 14 = l) ∧
    Frame s t (if link.isSome then [phys s 14] else []) noBytes

/-- A branch that exchanges the state: bit 0 of the target is the state (`10_state` R37). ARM state with bit 1 set is
unpredictable. -/
def Exchanges (i : Instr) (s : State) (v : Word) (link : Option Word) : Prop :=
  (v.getLsbD 0 = true ∨ v.getLsbD 1 = false) → Branches i s (v &&& ~~~1) link (v.getLsbD 0)

/-! More transfers -/

/-- A load of `v` into R15: the interworking branch (`10_state` R37), the base written back as `wb` says. ARM state with bit 1
set is unpredictable. -/
def LoadsPc (i : Instr) (s : State) (rn : Reg) (wb : Option Word) (v : Word) : Prop :=
  (v.getLsbD 0 = true ∨ v.getLsbD 1 = false) →
    Gives i s fun t =>
      t.pc = v &&& ~~~1 ∧ t.cpsr = (if v.getLsbD 0 then s.cpsr ||| 0x20 else s.cpsr &&& ~~~0x20) ∧
      (∀ b, wb = some b → t.regIn s.mode rn = b) ∧ Frame s t (baseRegs s rn wb) noBytes

/-- The value a halfword or byte store of `Rd` writes: a base that is written back is not given (`45_arm_loadstore` R580). -/
def storedReg (s : State) (rd rn : Reg) (wb : Option Word) : Option Word :=
  if wb.isSome && rd == rn then none else some (s.reg rd)

/-- A load of two words. -/
def LoadsTwo (i : Instr) (s : State) (rd rn : Reg) (wb : Option Word) (v v' : Word) : Prop :=
  Gives i s fun t =>
    t.regIn s.mode rd = v ∧ t.regIn s.mode (rd + 1) = v' ∧
    (∀ b, wb = some b → t.regIn s.mode rn = b) ∧
    t.cpsr = s.cpsr ∧ t.pc = s.nextPc ∧ Frame s t (phys s rd :: phys s (rd + 1) :: baseRegs s rn wb) noBytes

/-- A store of two words at physical addresses `p` and `p'`. -/
def StoresTwo (i : Instr) (s : State) (rn : Reg) (wb : Option Word) (p p' : Nat) (v v' : Word) : Prop :=
  Gives i s fun t =>
    memWord t.mem p = v ∧ memWord t.mem p' = v' ∧
    (∀ b, wb = some b → t.regIn s.mode rn = b) ∧
    t.cpsr = s.cpsr ∧ t.pc = s.nextPc ∧
    Frame s t (baseRegs s rn wb) (fun a => bytes p 4 a ∨ bytes p' 4 a)

/-- The predictable registers of LDRD and STRD (`45_arm_loadstore` R597). -/
def doubleRegs (p i w : Bool) (rn rd lo : Reg) : Prop :=
  rd.getLsbD 0 = false ∧ rd ≠ 14 ∧ ((p = true ∧ w = false) ∨ (rn ≠ rd ∧ rn ≠ rd + 1)) ∧
    (i = true ∨ (lo ≠ rd ∧ lo ≠ rd + 1))

/-- A swap: `Rd` receives `v`, `n` bytes at `p` receive those of `x`. -/
def Swaps (i : Instr) (s : State) (rd : Reg) (v : Word) (p n : Nat) (x : Word) : Prop :=
  Gives i s fun t =>
    t.regIn s.mode rd = v ∧ (∀ k, k < n → memByte t.mem (p + k) = x.extractLsb' (8 * k) 8) ∧
    t.cpsr = s.cpsr ∧ t.pc = s.nextPc ∧ Frame s t [phys s rd] (bytes p n)

/-- Where a list of `n` registers is transferred: the first address, and the base after it (`45_arm_loadstore` R605). -/
def listAt (s : State) (p u : Bool) (rn : Reg) (list : BitVec 16) : Word × Word :=
  multipleAddress p u (s.reg rn) (listCount 16 list)

/-- The halfword of a Thumb ALU operation, format T4 (`30_encoding` R463). -/
def aluCode (op : BitVec 4) (b d : BitVec 3) : Code := .thumb ((0b010000 : BitVec 6) ++ op ++ b ++ d)

/-- A list of Thumb registers. -/
def lowList (list : BitVec 8) : BitVec 16 := list.setWidth 16

/-! Coprocessors -/

/-- The instruction answers exactly `u`, but for the pc, which is the next instruction's. -/
def Effect (i : Instr) (s u : State) : Prop := exec i s = .next { u with pc := s.nextPc }

/-- The general registers, the status registers, the accumulator and CP15 stay; the next instruction follows. -/
structure Quiet (s t : State) : Prop where
  regs : t.regs = s.regs
  spsrs : t.spsrs = s.spsrs
  cpsr : t.cpsr = s.cpsr
  acc0 : t.acc0 = s.acc0
  cp15 : t.cp15 = s.cp15
  pc : t.pc = s.nextPc

/-- A lock operation of CP15 aborts, in a state whose walk or fetch ended in `s1`: a data abort with the status 0b10100 is taken,
and the operation has no effect on the instruction cache and the TLBs (`60_exceptions` R903). -/
def LockAborts (i : Instr) (s s1 : State) : Prop :=
  let u := (s.onlyErrors s1).dataAbort 0b10100 none none false
  exec i s = .next u ∧ u.icache = s.icache ∧ u.itlb = s.itlb ∧ u.dtlb = s.dtlb ∧
    u.cp15.fsr.extractLsb' 0 4 = 0b0100 ∧ u.cp15.fsr.getLsbD 10 = true

/-- A readable register: its MRC, when a read is defined, the bits that are defined, their value, and the state after the read. -/
structure ReadableRegister where
  instr : Cond → Reg → Instr
  ok : State → Bool := fun _ => true
  defined : Word
  value : State → Word
  after : State → State := fun s => s

/-- A read into `Rd` that changes nothing else but what reading the register changes; the bits outside `defined` are open. -/
def Reads (e : ReadableRegister) (cond : Cond) (rd : Reg) (s : State) : Prop :=
  Gives (e.instr cond rd) s fun t =>
    t.regIn s.mode rd &&& e.defined = e.value s &&& e.defined ∧ t.cpsr = s.cpsr ∧
      t.pc = s.nextPc ∧ Frame (e.after s) t [phys s rd] noBytes

/-- A writable register: its MCR, its reserved bits, the other values whose write is defined, and the state after the write, the
pc apart. -/
structure WritableRegister where
  instr : Cond → Reg → Instr
  reserved : Word := 0
  ok : State → Word → Bool := fun _ _ => true
  write : State → Word → State

/-- The write of a value is defined: no reserved bit is set, and the register takes the value. -/
def WritableRegister.takes (e : WritableRegister) (s : State) (v : Word) : Bool := v &&& e.reserved == 0 && e.ok s v

/-- A write that completes. -/
def Accepts (e : WritableRegister) (cond : Cond) (rd : Reg) (s : State) : Prop :=
  Effect (e.instr cond rd) s (e.write s (s.regIn s.mode rd))

/-- The readable registers of CP15, the L2 Cache Type register apart (`10_state` R71 to R103). -/
def cp15Readable : List ReadableRegister :=
  [{ instr := .mrcMainId, defined := 0xFFFFFFFF, value := fun _ => mainId },
   { instr := .mrcCacheType, defined := 0xFFFFFFFF, value := fun _ => 0x0B192192 },
   { instr := .mrcL2SystemId, defined := 0xFF000000, value := fun _ => 0x69000000 },
   { instr := .mrcControl, defined := 0x04003FFF, value := fun s => s.cp15.ctrl },
   { instr := .mrcAuxControl, defined := 0x00000C32, value := fun s => s.cp15.auxctrl },
   { instr := .mrcTtBase, defined := 0xFFFFC01C, value := fun s => s.cp15.ttbase },
   { instr := .mrcDacr, defined := 0xFFFFFFFF, value := fun s => s.cp15.dacr },
   { instr := .mrcFsr, defined := 0x000007FF, value := fun s => s.cp15.fsr },
   { instr := .mrcFar, defined := 0xFFFFFFFF, value := fun s => s.cp15.far },
   { instr := .mrcProcessId, defined := 0xFFFFFFFF, value := fun s => s.cp15.pid ++ (0 : BitVec 25) },
   { instr := .mrcIbr0, defined := 0xFFFFFFFF, value := fun s => s.cp15.ibr0 },
   { instr := .mrcIbr1, defined := 0xFFFFFFFF, value := fun s => s.cp15.ibr1 },
   { instr := .mrcDbr0, defined := 0xFFFFFFFF, value := fun s => s.cp15.dbr0 },
   { instr := .mrcDbr1, defined := 0xFFFFFFFF, value := fun s => s.cp15.dbr1 },
   { instr := .mrcDbcon, defined := 0x0000010F, value := fun s => s.cp15.dbcon },
   { instr := .mrcCpar, defined := 0x00003FFF, value := fun s => s.cp15.cpar.setWidth 32 },
   { instr := .mrcDLock, defined := 1, value := fun s => if s.cp15.dclock then 1 else 0 },
   { instr := .mrcDLockLegacy, defined := 1, value := fun s => if s.cp15.dclock then 1 else 0 }]

/-- The registers of CP15 that take every value without reserved bits (`10_state` R71 to R103): identification registers ignore
it, PID also empties the branch target buffer. Instructions that are already fetched may have been fetched before a write of
DACR or PID (`keepView`, `70_reset_and_hazards` R1131, notes/assumptions 29). -/
def cp15Writable : List WritableRegister :=
  [{ instr := .mcrMainId, write := fun s _ => s },
   { instr := .mcrCacheType, write := fun s _ => s },
   { instr := .mcrL2SystemId, write := fun s _ => s },
   { instr := .mcrL2CacheType, write := fun s _ => s },
   { instr := .mcrDacr, write := fun s v => { s.keepView with cp15 := { s.cp15 with dacr := v } } },
   { instr := .mcrFsr, reserved := 0xFFFFF800, write := fun s v => { s with cp15 := { s.cp15 with fsr := v &&& 0x000006FF } } },
   { instr := .mcrFar, write := fun s v => { s with cp15 := { s.cp15 with far := v } } },
   { instr := .mcrProcessId
     write := fun s v => { s.keepView with cp15 := { s.cp15 with pid := v.extractLsb' 25 7 }, btb := [] } },
   { instr := .mcrCpar, reserved := 0xFFFFC000, write := fun s v => { s with cp15 := { s.cp15 with cpar := v.extractLsb' 0 14 } } },
   { instr := .mcrDLock, reserved := 0xFFFFFFFE
     write := fun s v => { s with cp15 := { s.cp15 with dclock := v.getLsbD 0 } } },
   { instr := .mcrDLockLegacy, reserved := 0xFFFFFFFE
     write := fun s v => { s with cp15 := { s.cp15 with dclock := v.getLsbD 0 } } }]

/-- No data waits in a buffer or is held in a cache. -/
def noDataHeld (s : State) : Bool :=
  s.buffers.isEmpty && s.dcache.lines.isEmpty && s.l2.lines.isEmpty && s.l2Out.isEmpty

/-- The registers that control the machine, with the values that are defined: Control (`10_state` R75, R76), Auxiliary Control
(R77, R78) and TTBASE (R79). The byte order changes only while no data is held, and to big-endian before any access of less
than a word (R76 b). What waits in the memory buffers leaves before the M bit of Control or the LLR attributes change
(notes/assumptions 63). -/
def controlWritable : List WritableRegister :=
  [{ instr := .mcrControl
     reserved := 0xFBFFC000
     ok := fun s v =>
       (!v.getLsbD 26 || s.ctrlBit 26 || !s.mmuOn) && (v.getLsbD 26 || !s.cp15.l2Ever) &&
         (!v.getLsbD 2 || v.getLsbD 0) && (if v.getLsbD 7 then s.cfg.big else s.cfg.little) &&
         (v.getLsbD 7 == s.bigEndian || (noDataHeld s && (s.bigEndian || !s.subWord)))
     write := fun s v =>
       let s1 := if v.getLsbD 0 = s.mmuOn then s else s.drainBuffers
       { s1.keepView with cp15 := { s1.cp15 with
           ctrl := (v &&& 0x04003B87) ||| 0x00000078, l2Ever := s1.cp15.l2Ever || v.getLsbD 26 } } },
   { instr := .mcrAuxControl
     reserved := 0xFFFFF3CD
     ok := fun s v =>
       !v.getLsbD 11 && (s.dcache.lines.isEmpty && s.l2.lines.isEmpty || v &&& 0x00000C30 == s.cp15.auxctrl &&& 0x00000C30)
     write := fun s v =>
       let s1 := if v &&& 0x00000C30 = s.cp15.auxctrl &&& 0x00000C30 then s else s.drainBuffers
       { s1.keepView with cp15 := { s1.cp15 with auxctrl := v &&& 0x00000C32 } } },
   { instr := .mcrTtBase
     reserved := 0x00003FE3
     ok := fun _ v => v.extractLsb' 3 2 != 1
     write := fun s v => { s.keepView with cp15 := { s.cp15 with ttbase := v &&& 0xFFFFC01C } } }]

/-- Halt Mode outside Special Debug State: the debug registers ignore writes (`10_state` R132). -/
def debugLocked (s : State) : Bool := s.haltMode && !s.dbg.sds

/-- CCLKCFG (`10_state` R121), write. -/
def cclkcfgOut : WritableRegister :=
  { instr := .mcrCclkcfg, reserved := 0xFFFFFFF0, write := fun s v => { s with pwr := { s.pwr with cclkcfg := v.extractLsb' 0 4 } } }

/-- PWRMODE (`10_state` R120, `61_debug_pmu_power` R1090), write. -/
def pwrmodeOut : WritableRegister :=
  { instr := .mcrPwrmode
    reserved := 0xFFFFFFF0
    ok := fun s v => v.extractLsb' 0 4 == 0 || s.cfg.pwrModes.contains (v.extractLsb' 0 4)
    write := fun s v => { s with pwr := { s.pwr with mode := v.extractLsb' 0 4 } } }

/-- TX: a write sets TR (`10_state` R133), write. -/
def txOut : WritableRegister :=
  { instr := .mcrTx, write := fun s v => { s with dbg := { s.dbg with tx := v, tr := true } } }

/-- CHKPT0 while no trace is taken (`10_state` R137), write. -/
def chkpt0Out : WritableRegister :=
  { instr := .mcrChkpt0, ok := fun s _ => !s.tracing
    write := fun s v => { s with dbg := { s.dbg with chkpt0 := v } } }

/-- CHKPT1 while no trace is taken (`10_state` R137), write. -/
def chkpt1Out : WritableRegister :=
  { instr := .mcrChkpt1, ok := fun s _ => !s.tracing
    write := fun s v => { s with dbg := { s.dbg with chkpt1 := v } } }

/-- TXRXCTRL: software writes OV only (`10_state` R135), write. -/
def txrxctrlOut : WritableRegister :=
  { instr := .mcrTxrxctrl, reserved := 0x0FFFFFFF, write := fun s v => { s with dbg := { s.dbg with ov := v.getLsbD 30 } } }

/-- DCSR (`10_state` R130 to R132), written while no trace is taken, write. -/
def dcsrOut : WritableRegister :=
  { instr := .mcrDcsr
    ok := fun s v => !s.tracing && (debugLocked s || v &&& 0x1F20FF80 == 0)
    write := fun s v =>
      if debugLocked s then s
      else
        let n := (s.dbg.dcsr &&& ~~~0x8000007F) ||| (v &&& 0x8000007F)
        let starts := n.getLsbD 31 && n.getLsbD 0
        { s with dbg := { s.dbg with
            dcsr := n, tbCnt := if starts then 0 else s.dbg.tbCnt, tbFill := if starts then 0 else s.dbg.tbFill } } }

/-- CCLKCFG (`10_state` R121), read. -/
def cclkcfgIn : ReadableRegister :=
  { instr := .mrcCclkcfg, defined := 0x0000000F, value := fun s => s.pwr.cclkcfg.setWidth 32 }

/-- PWRMODE (`10_state` R120, `61_debug_pmu_power` R1090), read. -/
def pwrmodeIn : ReadableRegister :=
  { instr := .mrcPwrmode, defined := 0x0000000F, value := fun s => s.pwr.mode.setWidth 32 }

/-- RX while RR is set: a read clears RR (`10_state` R134), read. -/
def rxIn : ReadableRegister :=
  { instr := .mrcRx, ok := fun s => s.dbg.rr, defined := 0xFFFFFFFF, value := fun s => s.dbg.rx
    after := fun s => { s with dbg := { s.dbg with rr := false } } }

/-- RX while RR is clear: any value is read (`61_debug_pmu_power` R1050, `93_implementation_defined` section 2.3). -/
def rxEmptyIn : ReadableRegister :=
  { instr := .mrcRx, ok := fun s => !s.dbg.rr, defined := 0, value := fun s => s.dbg.rx }

/-- DCSR (`10_state` R130 to R132), written while no trace is taken, read. -/
def dcsrIn : ReadableRegister :=
  { instr := .mrcDcsr, defined := 0xE0DF007F
    value := fun s => s.dbg.dcsr ||| (if s.pins.soc then 0x20000000 else 0) }

/-- TBREG while no trace is taken: a read takes the oldest entry (`61_debug_pmu_power` R1069), read. -/
def tbregIn : ReadableRegister :=
  { instr := .mrcTbreg, ok := fun s => !s.tracing, defined := 0x000000FF
    value := fun s => ((tableGet s.dbg.tbPtr.toNat s.dbg.tb).getD 0).setWidth 32
    after := fun s => { s with dbg := { s.dbg with
      tb := tableErase s.dbg.tbPtr.toNat s.dbg.tb, tbPtr := s.dbg.tbPtr + 1
      tbMarks := s.dbg.tbMarks.filter (· != s.dbg.tbPtr) } } }

/-- CHKPT0 while no trace is taken (`10_state` R137), read. -/
def chkpt0In : ReadableRegister :=
  { instr := .mrcChkpt0, ok := fun s => !s.tracing, defined := 0xFFFFFFFF, value := fun s => s.dbg.chkpt0 }

/-- CHKPT1 while no trace is taken (`10_state` R137), read. -/
def chkpt1In : ReadableRegister :=
  { instr := .mrcChkpt1, ok := fun s => !s.tracing, defined := 0xFFFFFFFF, value := fun s => s.dbg.chkpt1 }

/-- TXRXCTRL: software writes OV only (`10_state` R135), read. -/
def txrxctrlIn : ReadableRegister :=
  { instr := .mrcTxrxctrl, defined := 0xF0000000
    value := fun s => BitVec.ofBool s.dbg.rr ++ BitVec.ofBool s.dbg.ov ++ BitVec.ofBool s.dbg.d ++
      BitVec.ofBool s.dbg.tr ++ (0 : BitVec 28) }

/-- The debug registers, with the writes that are defined (`10_state` R100 to R102, R130 to R132, `61_debug_pmu_power` R1041,
R1042); DCSR while no trace is taken. Instructions that are already fetched may have been fetched before a write of an
instruction breakpoint register. -/
def debugWritable : List WritableRegister :=
  [{ instr := .mcrIbr0
     ok := fun s v => debugLocked s || !v.getLsbD 0 || s.debugOn
     write := fun s v => if debugLocked s then s else { s.keepView with cp15 := { s.cp15 with ibr0 := v } } },
   { instr := .mcrIbr1
     ok := fun s v => debugLocked s || !v.getLsbD 0 || s.debugOn
     write := fun s v => if debugLocked s then s else { s.keepView with cp15 := { s.cp15 with ibr1 := v } } },
   { instr := .mcrDbr0
     ok := fun s _ => debugLocked s || s.cp15.dbcon.extractLsb' 0 2 == 0
     write := fun s v => if debugLocked s then s else { s with cp15 := { s.cp15 with dbr0 := v } } },
   { instr := .mcrDbr1
     ok := fun s _ => debugLocked s ||
       (if s.cp15.dbcon.getLsbD 8 then s.cp15.dbcon.extractLsb' 0 2 else s.cp15.dbcon.extractLsb' 2 2) == 0
     write := fun s v => if debugLocked s then s else { s with cp15 := { s.cp15 with dbr1 := v } } },
   { instr := .mcrDbcon
     ok := fun s v => debugLocked s || v &&& 0xFFFFFEF0 == 0
     write := fun s v => if debugLocked s then s else { s with cp15 := { s.cp15 with dbcon := v &&& 0x0000010F } } },
   dcsrOut]

/-- The readable registers of CP14 and CP7 (`10_state` R111 to R142); the trace registers while no trace is taken. -/
def cp14Readable : List ReadableRegister :=
  [{ instr := .mrcPmnc, defined := 0xFF00001F
     value := fun s => 0x24000000 ||| (if s.pmu.m then 16 else 0) ||| (if s.pmu.d then 8 else 0) |||
       (if s.pmu.e then 1 else 0) },
   { instr := .mrcCcnt, defined := 0xFFFFFFFF, value := fun s => s.pmu.ccnt },
   { instr := .mrcInten, defined := 0x0000001F, value := fun s => s.pmu.inten.setWidth 32 },
   { instr := .mrcFlag, defined := 0x0000001F, value := fun s => s.pmu.flag.setWidth 32 },
   { instr := .mrcEvtsel, defined := 0xFFFFFFFF, value := fun s => s.pmu.evtsel },
   { instr := .mrcPmn0, defined := 0xFFFFFFFF, value := fun s => s.pmu.pmn.get 0 },
   { instr := .mrcPmn1, defined := 0xFFFFFFFF, value := fun s => s.pmu.pmn.get 1 },
   { instr := .mrcPmn2, defined := 0xFFFFFFFF, value := fun s => s.pmu.pmn.get 2 },
   { instr := .mrcPmn3, defined := 0xFFFFFFFF, value := fun s => s.pmu.pmn.get 3 },
   cclkcfgIn,
   pwrmodeIn,
   rxIn,
   rxEmptyIn,
   dcsrIn,
   tbregIn,
   chkpt0In,
   chkpt1In,
   txrxctrlIn,
   { instr := .mrcErrlog, defined := 0x000000FF, value := fun s => s.err.errlog.setWidth 32 },
   { instr := .mrcErradrl, defined := 0xFFFFFFFF, value := fun s => s.err.erradrl },
   { instr := .mrcErradru, defined := 0x0000000F, value := fun s => s.err.erradru.setWidth 32 }]

/-- Performance counter `k` is disabled: by PMNC.E, by PMNC.M, or by its event, 0xFF (`61_debug_pmu_power` R1001). -/
def counterOff (s : State) (k : Nat) : Bool :=
  !s.pmu.e || s.pmu.m || s.pmu.evtsel.extractLsb' (8 * k) 8 == 0xFF

/-- The writable registers of CP14, PMNC, EVTSEL and DCSR apart, with the writes that are defined (`10_state` R112 to R137,
`61_debug_pmu_power` R1090); the checkpoint registers while no trace is taken, the counters while they are disabled
(`70_reset_and_hazards` R1130, row 9, `61_debug_pmu_power` R1001). FLAG is cleared by ones; TX sets TR; of TXRXCTRL only OV is written. -/
def cp14Writable : List WritableRegister :=
  [{ instr := .mcrCcnt, ok := fun s _ => !s.pmu.e, write := fun s v => { s with pmu := { s.pmu with ccnt := v } } },
   { instr := .mcrInten, reserved := 0xFFFFFFE0, write := fun s v => { s with pmu := { s.pmu with inten := v.extractLsb' 0 5 } } },
   { instr := .mcrFlag
     reserved := 0xFFFFFFE0
     write := fun s v => { s with pmu := { s.pmu with flag := s.pmu.flag &&& ~~~(v.extractLsb' 0 5) } } },
   { instr := .mcrPmn0, ok := fun s _ => counterOff s 0, write := fun s v => { s with pmu := { s.pmu with pmn := s.pmu.pmn.set 0 v } } },
   { instr := .mcrPmn1, ok := fun s _ => counterOff s 1, write := fun s v => { s with pmu := { s.pmu with pmn := s.pmu.pmn.set 1 v } } },
   { instr := .mcrPmn2, ok := fun s _ => counterOff s 2, write := fun s v => { s with pmu := { s.pmu with pmn := s.pmu.pmn.set 2 v } } },
   { instr := .mcrPmn3, ok := fun s _ => counterOff s 3, write := fun s v => { s with pmu := { s.pmu with pmn := s.pmu.pmn.set 3 v } } },
   cclkcfgOut,
   pwrmodeOut,
   txOut,
   chkpt0Out,
   chkpt1Out,
   txrxctrlOut]

/-- The registers of CP7, with the writes that are defined (`10_state` R140 to R142). -/
def cp7Writable : List WritableRegister :=
  [{ instr := .mcrErrlog
     reserved := 0xFFFFFF00
     write := fun s v =>
       { s with err := { s.err with errlog := v.extractLsb' 0 8, sbeIrq := s.err.sbeIrq && v.getLsbD 7 } } },
   { instr := .mcrErradrl, write := fun s v => { s with err := { s.err with erradrl := v } } },
   { instr := .mcrErradru, reserved := 0xFFFFFFF0, write := fun s v => { s with err := { s.err with erradru := v.extractLsb' 0 4 } } }]

/-- The register that LDC to CP14 writes for a `CRd` (`44_cp14_cp7` R854). -/
def ldcTarget (crd : BitVec 4) : Option WritableRegister :=
  if crd = 6 then some cclkcfgOut else if crd = 7 then some pwrmodeOut else if crd = 8 then some txOut
  else if crd = 10 then some dcsrOut else if crd = 12 then some chkpt0Out
  else if crd = 13 then some chkpt1Out else if crd = 14 then some txrxctrlOut else none

/-- The register that STC of CP14 stores for a `CRd` (`44_cp14_cp7` R855). -/
def stcSource (s : State) (crd : BitVec 4) : Option ReadableRegister :=
  if crd = 6 then some cclkcfgIn else if crd = 7 then some pwrmodeIn
  else if crd = 9 then some (if s.dbg.rr then rxIn else rxEmptyIn)
  else if crd = 10 then some dcsrIn else if crd = 11 then some tbregIn else if crd = 12 then some chkpt0In
  else if crd = 13 then some chkpt1In else if crd = 14 then some txrxctrlIn else none

/-- The instructions of CP15, CP14 and CP7 that User mode may not execute: every register access, and every function but the four
of `43_cp15_functions` R770. -/
def privilegedForms : List (Cond → Reg → Instr) :=
  cp15Readable.map (·.instr) ++ cp15Writable.map (·.instr) ++ controlWritable.map (·.instr) ++ debugWritable.map (·.instr) ++
    cp14Readable.map (·.instr) ++ cp14Writable.map (·.instr) ++ cp7Writable.map (·.instr) ++
    [.mrcL2CacheType, .mcrPmnc, .mcrEvtsel, .mcrInvICacheBtb, .mcrInvICacheLine, .mcrInvBtb, .mcrInvDCache, .mcrInvDCacheLine,
     .mcrInvCachesBtb, .mcrCleanDLineMva, .mcrCleanDLineSetWay, .mcrCleanInvDLineMva, .mcrCleanInvDLineSetWay,
     .mcrInvL2Line, .mcrCleanL2LineMva, .mcrCleanL2LineSetWay, .mcrCleanInvL2LineSetWay, .mcrInvTlbs, .mcrInvITlb,
     .mcrInvITlbEntry, .mcrInvDTlb, .mcrInvDTlbEntry, .mcrLockILine, .mcrLockL2Line, .mcrUnlockICache, .mcrUnlockL2,
     .mcrAllocLockL2Line, .mcrUnlockDCache, .mcrLockILineLegacy, .mcrUnlockICacheLegacy, .mcrUnlockDCacheLegacy,
     .mcrLockITlbEntry, .mcrUnlockITlb, .mcrLockDTlbEntry, .mcrUnlockDTlb]

/-- The entries of a TLB that a test keeps; the rest of the TLB stays. -/
def keepsEntries (t t' : Tlb) (keep : TlbEntry → Bool) : Prop :=
  t'.rr = t.rr ∧ t'.lockp = t.lockp ∧ ∀ k, t'.entries.get k = (t.entries.get k).filter keep

end Sys2Proof.Spec

open Sys2Proof Sys2Proof.Machine Sys2Proof.Spec

/-! Encoding and the step -/

/-- Words written out from the encodings of the spec decode to the instruction they stand for (`30_encoding` R454, `41_dsp_thumb`
R670). -/
def Obligations.DecodesSpecWords : Prop :=
  decode (.arm 0xE0812003) = .addShImm .al false 1 2 0 0 3 ∧
  decode (.arm 0xE3A01C12) = .movImm .al false 0 1 12 0x12 ∧
  decode (.arm 0xE0010392) = .mul .al false 1 0 3 2 ∧
  decode (.arm 0xE5912004) = .ldrImm .al true true false 1 2 4 ∧
  decode (.arm 0xE92D4010) = .stm .al true false true 13 0x4010 ∧
  decode (.arm 0xEAFFFFFE) = .b .al 0xFFFFFE ∧
  decode (.arm 0xE12FFF1E) = .bx .al 0xFFF 14 ∧
  decode (.arm 0xEF000005) = .swi .al 5 ∧
  decode (.arm 0xEE110F10) = .mrcControl .al 0 ∧
  decode (.arm 0xEE201013) = .mia .al 1 0 3 ∧
  decode (.thumb 0x1888) = .tAddReg 2 1 0 ∧
  decode (.thumb 0xB510) = .tPush true 0x10 ∧
  decode (.thumb 0xD0FE) = .tBCond .eq 0xFE

/-- Decoding inverts encoding, for every well-formed instruction with every operand at every value. -/
def Obligations.DecodeEncodeRoundTrip : Prop :=
  ∀ i : Instr, i.wellFormed = true → decode (encode i) = i

/-- Every code decodes to a well-formed instruction that encodes to it again: no bit of any encoding is dropped. -/
def Obligations.EncodeDecodeRoundTrip : Prop :=
  ∀ c : Code, (decode c).wellFormed = true ∧ encode (decode c) = c

/-- A step runs the instruction decoded from the code fetched at the pc, when nothing else is due: the schedule is empty, the core
is neither in reset nor asleep, and no event is pending. Around the instruction the step only empties its own note, wakes the
core, settles which of the earlier views the instruction was fetched under (`settleView`, `fetchNext`:
`70_reset_and_hazards` R1131; with none, `fetchNext` is the fetch at the pc), refuses an instruction for which the enabled
branch target buffer holds a branch that its address no longer holds (`22_caches` R375; notes/assumptions 19), checks that
execution does not run past the top of the address space, discards what was fetched earlier when control flow changes, and
records the step for the trace buffer, the counters and the branch target buffer, none of which happens while they are disabled. Execution past the top is unpredictable
(`10_state` R38, `92_eei_decisions` D23); that it ends in the fault `pcPastTop` is the model's reading
(notes/assumptions 38), and that the core sleeps until an interrupt input wakes it is that of notes/assumptions 35. -/
def Obligations.StepRunsInstruction : Prop :=
  ∀ (s s0 s1 : State) (c : Code), s.schedule = [] → s.inReset = false → s.asleep = false →
    ({ s with note := Note.empty }).awake.takeEvent false = none →
    s0 = ({ s with note := Note.empty }).awake.settleView → s0.takeInstrBreak = none →
    fetchNext s0 = .ok c s1 →
    (s.stale = [] → s0 = ({ s with note := Note.empty }).awake ∧ fetchNext s0 = fetchInstr s0) ∧
    (∀ t, exec (decode c) s1 = .next t →
      step s = (if s0.btbStale then .refused .staleBranchTarget
        else if s0.pastTop t then .fault .pcPastTop else .next (s0.account t)) ∧
      (s0.ctrlBit 11 = false → s0.btbStale = false) ∧
      (s0.pmu.e = false → s0.tracing = false → s0.ctrlBit 11 = false →
        s0.account t =
          { t with stale := if t.note.flow = .sequential ∨ t.note.flow = .idle then t.stale else [] })) ∧
    (∀ f, exec (decode c) s1 = .fault f → step s = .fault f) ∧
    (∀ r, exec (decode c) s1 = .refused r → step s = .refused r)

/-- With the MMU off, no fetch buffer, cached line, waiting store or write-back or earlier fetch in the way and a bus that answers, the fetch
reads memory at the pc: a word in ARM state, the halfword the endianness names in Thumb state; only the instruction cache, the
note and the count of free values may change (`20_memory` R214, R235). -/
def Obligations.FetchReadsMemory : Prop :=
  ∀ s : State, s.mmuOn = false → s.icache.lines = [] → s.icache.buffers = [] → s.buffers = [] → s.l2Out = [] →
    s.cfg.busErrors = [] → s.inDebugSram = false → s.pcAligned = true → s.stale = [] →
    ∃ s1, fetchNext s =
        .ok (if s.thumb then
            .thumb (memByte s.mem (Spec.halfAt s s.pc + 1) ++ memByte s.mem (Spec.halfAt s s.pc))
          else .arm (memWord s.mem (wordAt s s.pc))) s1 ∧
      { s1 with icache := s.icache, note := s.note, free := s.free } = s

/-- The state after reset satisfies the invariant. -/
def Obligations.ResetInvariant : Prop := State.reset.Inv

/-- Every step keeps the invariant: memory in canonical form, a legal mode, an aligned pc, the reserved bits of the control
registers. -/
def Obligations.StepKeepsInvariant : Prop :=
  ∀ s t : State, s.Inv → step s = .next t → t.Inv

/-- When each condition passes, and what an instruction does whose condition fails: an ARM instruction with a condition field, BKPT
apart, and a Thumb conditional branch only advance the pc (`30_encoding` R452). The note is the model's own. -/
def Obligations.ConditionalExecution : Prop :=
  ∀ s : State,
    (condPassed .eq s = s.flagZ ∧ condPassed .ne s = !s.flagZ ∧ condPassed .cs s = s.flagC ∧ condPassed .cc s = !s.flagC ∧
      condPassed .mi s = s.flagN ∧ condPassed .pl s = !s.flagN ∧ condPassed .vs s = s.flagV ∧ condPassed .vc s = !s.flagV ∧
      condPassed .hi s = (s.flagC && !s.flagZ) ∧ condPassed .ls s = (!s.flagC || s.flagZ) ∧
      condPassed .ge s = (s.flagN == s.flagV) ∧ condPassed .lt s = (s.flagN != s.flagV) ∧
      condPassed .gt s = (!s.flagZ && s.flagN == s.flagV) ∧ condPassed .le s = (s.flagZ || s.flagN != s.flagV) ∧
      condPassed .al s = true) ∧
    (List.range 16).map (fun k => Cond.ofBits (BitVec.ofNat 4 k)) =
      [some .eq, some .ne, some .cs, some .cc, some .mi, some .pl, some .vs, some .vc, some .hi, some .ls, some .ge,
        some .lt, some .gt, some .le, some .al, none] ∧
    (∀ (i : Instr) (w : Word) (c : Cond), encode i = .arm w → Cond.ofBits (w.extractLsb' 28 4) = some c →
      (∀ c' hi lo, i ≠ .bkpt c' hi lo) → condPassed c s = false →
      ∃ n, exec i s = .next { s with pc := s.nextPc, note := n }) ∧
    (∀ (c : Cond) (offset : BitVec 8), condPassed c s = false →
      ∃ n, exec (.tBCond c offset) s = .next { s with pc := s.nextPc, note := n })

/-! Data processing -/

/-- The shifter operand in its three forms (`40_arm_base` R503 to R506): an immediate rotated by twice its rotation, a register
shifted by an immediate, where a right shift by 0 stands for 32 and ROR by 0 for RRX, and a register shifted by the low byte
of a register. -/
def Obligations.ShifterOperand : Prop :=
  ∀ s : State,
    (∀ r v, s.opImm r v = { value := (v.setWidth 32).rotateRight (2 * r.toNat)
                            carry := if r = 0 then s.flagC
                              else ((v.setWidth 32).rotateRight (2 * r.toNat)).msb }) ∧
    (∀ n kind m, s.opShImm n kind m =
      if n = 0 ∧ (kind = 1 ∨ kind = 2) then shifted kind (s.reg m) 32 s.flagC
      else if n = 0 ∧ kind = 3 then
        { value := BitVec.ofBool s.flagC ++ (s.reg m).extractLsb' 1 31, carry := (s.reg m).getLsbD 0 }
      else shifted kind (s.reg m) n.toNat s.flagC) ∧
    (∀ rs kind m, s.opShReg rs kind m = shifted kind (s.reg m) ((s.reg rs).toNat % 256) s.flagC)

/-- The twelve data-processing instructions with a destination, in their three operand forms: the result, the flags with S,
and nothing else (`40_arm_base` R500, R507, R510 to R525). -/
def Obligations.DataProcessingResult : Prop :=
  ∀ (op : DpOp) (o : Operand) (cond : Cond) (sBit : Bool) (rn rd : Reg) (s : State), condPassed cond s = true →
    rd ≠ 15 → o.ok = true → o.okFirst rn = true →
    Computes (op.instr cond sBit rn rd o) s rd sBit (op.result s (s.reg rn) (o.eval s))

/-- The four comparisons in their three operand forms: the flags, and nothing else (`40_arm_base` R507, R518 to R521). -/
def Obligations.CompareResult : Prop :=
  ∀ (op : DpTest) (o : Operand) (cond : Cond) (rn : Reg) (s : State), condPassed cond s = true →
    o.ok = true → o.okFirst rn = true →
    Compares (op.instr cond rn o) s (op.result s (s.reg rn) (o.eval s))

/-- Data processing with R15 as its destination: with S = 0, in ARM state, a branch to a word-aligned result that sets no flag; with
S = 1 a return from an exception: the CPSR is the SPSR, the pc is the result, aligned to the state restored, and Special Debug
State ends (`40_arm_base` R507, `10_state` R37, `60_exceptions` R884, `61_debug_pmu_power` R1031). -/
def Obligations.DataProcessingToPc : Prop :=
  ∀ (op : DpOp) (o : Operand) (cond : Cond) (rn : Reg) (s : State), condPassed cond s = true →
    (∀ n k m, o ≠ .shReg n k m) →
    let v := (op.result s (s.reg rn) (o.eval s)).value
    (s.thumb = false → v.extractLsb' 0 2 = 0 →
      Gives (op.instr cond false rn 15 o) s fun t => t.pc = v ∧ t.cpsr = s.cpsr ∧ Frame s t [] noBytes) ∧
    (∀ p, s.spsr = some p → isSoftwareMode (p.extractLsb' 0 5) = true →
      Gives (op.instr cond true rn 15 o) s fun t =>
        t.pc = v &&& (if p.getLsbD 5 then ~~~1 else ~~~3) ∧ t.cpsr = p ∧
          Frame { s with dbg := { s.dbg with sds := false } } t [] noBytes)

/-! Multiplies, DSP, CLZ -/

/-- MUL and MLA: the low 32 bits; UMULL, UMLAL, SMULL, SMLAL: the 64-bit product or sum; the encoding of each. With S, N and Z of the
whole result, C and V unchanged (`40_arm_base` R530 to R536). -/
def Obligations.MultiplyResult : Prop :=
  ∀ (cond : Cond) (sBit : Bool) (rd rn rs rm : Reg) (s : State),
    let word (op : BitVec 7) (x : BitVec 4) : Code :=
      .arm (cond.bits ++ op ++ BitVec.ofBool sBit ++ rd ++ x ++ rs ++ (0b1001 : BitVec 4) ++ rm)
    encode (.mul cond sBit rd 0 rs rm) = word 0b0000000 0 ∧ encode (.mla cond sBit rd rn rs rm) = word 0b0000001 rn ∧
    encode (.umull cond sBit rd rn rs rm) = word 0b0000100 rn ∧ encode (.umlal cond sBit rd rn rs rm) = word 0b0000101 rn ∧
    encode (.smull cond sBit rd rn rs rm) = word 0b0000110 rn ∧ encode (.smlal cond sBit rd rn rs rm) = word 0b0000111 rn ∧
    (condPassed cond s = true → rd ≠ 15 → rs ≠ 15 → rm ≠ 15 →
    let narrow (n : Nat) : Sum := { value := BitVec.ofNat 32 n, carry := s.flagC, overflow := s.flagV }
    let product := (s.reg rm).toNat * (s.reg rs).toNat
    let signedProduct := (s.reg rm).toInt * (s.reg rs).toInt
    Computes (.mul cond sBit rd 0 rs rm) s rd sBit (narrow product) ∧
    (rn ≠ 15 → Computes (.mla cond sBit rd rn rs rm) s rd sBit (narrow (product + (s.reg rn).toNat))) ∧
    (rn ≠ 15 → rd ≠ rn →
      ComputesPair (.umull cond sBit rd rn rs rm) s rd rn sBit (BitVec.ofNat 64 product) ∧
      ComputesPair (.umlal cond sBit rd rn rs rm) s rd rn sBit
        (BitVec.ofNat 64 (product + (pairOf s rd rn).toNat)) ∧
      ComputesPair (.smull cond sBit rd rn rs rm) s rd rn sBit (BitVec.ofInt 64 signedProduct) ∧
      ComputesPair (.smlal cond sBit rd rn rs rm) s rd rn sBit
        (BitVec.ofInt 64 (signedProduct + (pairOf s rd rn).toInt))))

/-- The 16-bit multiplies: the encoding, the products of signed halves, the accumulation, and Q set when an accumulation overflows;
SMLALxy sets no flag, and with one register for both halves of its result is refused (`41_dsp_thumb` R650 to R654). -/
def Obligations.HalfwordMultiplyResult : Prop :=
  ∀ (cond : Cond) (rd rn rs rm : Reg) (x y : Bool) (s : State),
    let word (op : BitVec 8) (z : BitVec 4) (bit5 : Bool) : Code :=
      .arm (cond.bits ++ op ++ rd ++ z ++ rs ++ (1 : BitVec 1) ++ BitVec.ofBool y ++ BitVec.ofBool bit5 ++ (0 : BitVec 1) ++ rm)
    encode (.smulXY cond rd 0 rs y x rm) = word 0x16 0 x ∧ encode (.smlaXY cond rd rn rs y x rm) = word 0x10 rn x ∧
    encode (.smulwY cond rd 0 rs y rm) = word 0x12 0 true ∧ encode (.smlawY cond rd rn rs y rm) = word 0x12 rn false ∧
    encode (.smlalXY cond rd rn rs y x rm) = word 0x14 rn x ∧
    (condPassed cond s = true → rd ≠ 15 → rn ≠ 15 → rs ≠ 15 → rm ≠ 15 →
    let p := signedHalf (s.reg rm) x * signedHalf (s.reg rs) y
    let w := (s.reg rm).toInt * signedHalf (s.reg rs) y / 2 ^ 16
    let n := (s.reg rn).toInt
    Writes (.smulXY cond rd 0 rs y x rm) s rd (BitVec.ofInt 32 p) s.cpsr ∧
    Writes (.smlaXY cond rd rn rs y x rm) s rd (BitVec.ofInt 32 (p + n)) (withQ s.cpsr (outOfRange (p + n))) ∧
    Writes (.smulwY cond rd 0 rs y rm) s rd (BitVec.ofInt 32 w) s.cpsr ∧
    Writes (.smlawY cond rd rn rs y rm) s rd (BitVec.ofInt 32 (w + n)) (withQ s.cpsr (outOfRange (w + n))) ∧
    (rd ≠ rn → ComputesPair (.smlalXY cond rd rn rs y x rm) s rd rn false
      (BitVec.ofInt 64 (p + (pairOf s rd rn).toInt))) ∧
    (rd = rn → exec (.smlalXY cond rd rn rs y x rm) s = .refused .registerOverlap))

/-- QADD, QSUB, QDADD, QDSUB: the encoding, the nearest 32-bit number, and Q set when a saturation happened, that of the doubling
included (`41_dsp_thumb` R655 to R658). -/
def Obligations.SaturatingResult : Prop :=
  ∀ (cond : Cond) (rn rd rm : Reg) (s : State),
    let m := (s.reg rm).toInt
    let n := (s.reg rn).toInt
    let word (op : BitVec 8) : Code := .arm (cond.bits ++ op ++ rn ++ rd ++ (0x05 : BitVec 8) ++ rm)
    encode (.qadd cond rn rd 0 rm) = word 0x10 ∧ encode (.qsub cond rn rd 0 rm) = word 0x12 ∧
    encode (.qdadd cond rn rd 0 rm) = word 0x14 ∧ encode (.qdsub cond rn rd 0 rm) = word 0x16 ∧
    (condPassed cond s = true → rn ≠ 15 → rd ≠ 15 → rm ≠ 15 →
      Writes (.qadd cond rn rd 0 rm) s rd (BitVec.ofInt 32 (clamp (m + n))) (withQ s.cpsr (outOfRange (m + n))) ∧
      Writes (.qsub cond rn rd 0 rm) s rd (BitVec.ofInt 32 (clamp (m - n))) (withQ s.cpsr (outOfRange (m - n))) ∧
      Writes (.qdadd cond rn rd 0 rm) s rd (BitVec.ofInt 32 (clamp (m + clamp (2 * n))))
        (withQ s.cpsr (outOfRange (2 * n) || outOfRange (m + clamp (2 * n)))) ∧
      Writes (.qdsub cond rn rd 0 rm) s rd (BitVec.ofInt 32 (clamp (m - clamp (2 * n))))
        (withQ s.cpsr (outOfRange (2 * n) || outOfRange (m - clamp (2 * n)))))

/-- CLZ: the encoding; the number of zeros above the highest one, 32 for a value of zero; no flag; R15 is unpredictable, and
refused (`40_arm_base` R555). -/
def Obligations.CountLeadingZeros : Prop :=
  ∀ (cond : Cond) (rd rm : Reg) (s : State) (n : Nat),
    encode (.clz cond 15 rd 15 rm) =
      .arm (cond.bits ++ (0x16 : BitVec 8) ++ (15 : BitVec 4) ++ rd ++ (0xF1 : BitVec 8) ++ rm) ∧
    (condPassed cond s = true → rd ≠ 15 → rm ≠ 15 → n ≤ 32 →
      (∀ k, k < n → (s.reg rm).getLsbD (31 - k) = false) → (n < 32 → (s.reg rm).getLsbD (31 - n) = true) →
      Writes (.clz cond 15 rd 15 rm) s rd (BitVec.ofNat 32 n) s.cpsr) ∧
    (condPassed cond s = true → rd = 15 ∨ rm = 15 → exec (.clz cond 15 rd 15 rm) s = .refused .pcOperand)

/-! Branches -/

/-- B, BL and BLX(1) in ARM state: the encoding; the target is the pc read plus four times the signed offset, plus two with H; BL
and BLX save the address of the next instruction (`40_arm_base` R540, R541, R543). -/
def Obligations.BranchImmediate : Prop :=
  ∀ (cond : Cond) (hBit : Bool) (imm : BitVec 24) (s : State), s.thumb = false →
    let target := s.pc + 8 + imm.signExtend 32 * 4
    (condPassed cond s = true →
      Branches (.b cond imm) s target none false ∧ Branches (.bl cond imm) s target (some (s.pc + 4)) false) ∧
    Branches (.blxImm hBit imm) s (target + (if hBit then 2 else 0)) (some (s.pc + 4)) true ∧
    encode (.b cond imm) = .arm (cond.bits ++ (0b1010 : BitVec 4) ++ imm) ∧
    encode (.bl cond imm) = .arm (cond.bits ++ (0b1011 : BitVec 4) ++ imm) ∧
    encode (.blxImm hBit imm) = .arm ((0b1111101 : BitVec 7) ++ BitVec.ofBool hBit ++ imm)

/-- BX and BLX(2), ARM and Thumb: bit 0 of the register selects the state, BLX saves the return address, with bit 0 set in
Thumb state (`40_arm_base` R542, R544, `41_dsp_thumb` R701, R702). -/
def Obligations.BranchExchange : Prop :=
  ∀ (cond : Cond) (rm : Reg) (h : Bool) (m : BitVec 3) (s : State),
    (condPassed cond s = true → Exchanges (.bx cond 0xFFF rm) s (s.reg rm) none) ∧
    (condPassed cond s = true → rm ≠ 15 → Exchanges (.blxReg cond 0xFFF rm) s (s.reg rm) (some (s.pc + 4))) ∧
    Exchanges (.tBx h m 0) s (s.reg (BitVec.ofBool h ++ m)) none ∧
    (BitVec.ofBool h ++ m ≠ (15 : Reg) →
      Exchanges (.tBlxReg h m 0) s (s.reg (BitVec.ofBool h ++ m)) (some ((s.pc + 2) ||| 1)))

/-! Loads and stores -/

/-- The addresses of the loads and stores (`45_arm_loadstore` R581, R582, R605): base plus or minus offset; the offset form
and the pre-indexed form use the sum, the post-indexed form the base; the four multiple modes. -/
def Obligations.AddressingModes : Prop :=
  ∀ (s : State) (p u w i : Bool) (rn rm hi lo : Reg) (off : BitVec 12) (n : BitVec 5) (kind : BitVec 2),
    (let x := if u then s.reg rn + off.setWidth 32 else s.reg rn - off.setWidth 32
     s.am2Imm p u w rn off = { addr := if p then x else s.reg rn, wb := if p && !w then none else some x }) ∧
    (let m := (s.opShImm n kind rm).value
     let x := if u then s.reg rn + m else s.reg rn - m
     s.am2Reg p u w rn n kind rm = { addr := if p then x else s.reg rn, wb := if p && !w then none else some x }) ∧
    (let m := if i then BitVec.ofNat 32 (16 * hi.toNat + lo.toNat) else s.reg lo
     let x := if u then s.reg rn + m else s.reg rn - m
     s.am3 p u i w rn hi lo = { addr := if p then x else s.reg rn, wb := if p && !w then none else some x }) ∧
    (∀ k : Nat, multipleAddress p u (s.reg rn) k =
      (let size := BitVec.ofNat 32 (4 * k)
       if u then (if p then s.reg rn + 4 else s.reg rn, s.reg rn + size)
       else (if p then s.reg rn - size else s.reg rn - size + 4, s.reg rn - size)))

/-- LDR and LDRT, ARM and Thumb, into a register below R15: the aligned word, rotated for a misaligned address while the alignment
check is off (`45_arm_loadstore` R585, R589, `41_dsp_thumb` R703, R708, R713, R719, `20_memory` R222). That a load with
write-back into its own base completes, with that register open, is the model's choice (notes/assumptions 16). -/
def Obligations.LoadWordResult : Prop :=
  ∀ (cond : Cond) (p u w : Bool) (rn rd rm : Reg) (off : BitVec 12) (n : BitVec 5) (kind : BitVec 2)
    (a b d : BitVec 3) (imm5 : BitVec 5) (imm8 : BitVec 8) (s : State), PlainMemory s →
    (condPassed cond s = true → rd ≠ 15 →
      (let e := s.am2Imm p u w rn off
       am2Imm p w rn → alignedFor s e.addr 4 = true →
         Loads (.ldrImm cond p u w rn rd off) s rd rn e.wb (loadedWord s e.addr)) ∧
      (let e := s.am2Reg p u w rn n kind rm
       am2Reg p w rn rm → alignedFor s e.addr 4 = true →
         Loads (.ldrReg cond p u w rn rd n kind rm) s rd rn e.wb (loadedWord s e.addr)) ∧
      (let e := s.am2Imm false u true rn off
       am2Imm false true rn → alignedFor s e.addr 4 = true →
         Loads (.ldrtImm cond u rn rd off) s rd rn e.wb (loadedWord s e.addr)) ∧
      (let e := s.am2Reg false u true rn n kind rm
       am2Reg false true rn rm → alignedFor s e.addr 4 = true →
         Loads (.ldrtReg cond u rn rd n kind rm) s rd rn e.wb (loadedWord s e.addr))) ∧
    (let va := (s.pcRead &&& ~~~3) + imm8.setWidth 32 * 4
     alignedFor s va 4 = true → Loads (.tLdrPc d imm8) s (low d) 0 none (loadedWord s va)) ∧
    (let va := s.reg (low a) + s.reg (low b)
     alignedFor s va 4 = true → Loads (.tLdrReg b a d) s (low d) 0 none (loadedWord s va)) ∧
    (let va := s.reg (low a) + imm5.setWidth 32 * 4
     alignedFor s va 4 = true → Loads (.tLdrImm imm5 a d) s (low d) 0 none (loadedWord s va)) ∧
    (let va := s.reg 13 + imm8.setWidth 32 * 4
     alignedFor s va 4 = true → Loads (.tLdrSp d imm8) s (low d) 0 none (loadedWord s va))

/-- LDRB, LDRBT, LDRSB, and at an even address LDRH and LDRSH, ARM and Thumb: the byte or halfword, zero or sign extended
(`45_arm_loadstore` R586, R590, R593 to R595, `41_dsp_thumb` R707, R709 to R711, R715, R717, `20_memory` R213). That a load
with write-back into its own base completes, with that register open, is the model's choice (notes/assumptions 16). -/
def Obligations.LoadNarrowResult : Prop :=
  ∀ (cond : Cond) (p u w i : Bool) (rn rd rm hi lo : Reg) (off : BitVec 12) (n : BitVec 5) (kind : BitVec 2)
    (a b d : BitVec 3) (imm5 : BitVec 5) (s : State), PlainMemory s →
    let e := s.am3 p u i w rn hi lo
    let sum := s.reg (low a) + s.reg (low b)
    (condPassed cond s = true → rd ≠ 15 →
      (let e := s.am2Imm p u w rn off
       am2Imm p w rn → Loads (.ldrbImm cond p u w rn rd off) s rd rn e.wb ((loadedByte s e.addr).setWidth 32)) ∧
      (let e := s.am2Reg p u w rn n kind rm
       am2Reg p w rn rm →
         Loads (.ldrbReg cond p u w rn rd n kind rm) s rd rn e.wb ((loadedByte s e.addr).setWidth 32)) ∧
      (let e := s.am2Imm false u true rn off
       am2Imm false true rn →
         Loads (.ldrbtImm cond u rn rd off) s rd rn e.wb ((loadedByte s e.addr).setWidth 32)) ∧
      (let e := s.am2Reg false u true rn n kind rm
       am2Reg false true rn rm →
         Loads (.ldrbtReg cond u rn rd n kind rm) s rd rn e.wb ((loadedByte s e.addr).setWidth 32)) ∧
      (am3 p i w rn hi lo →
        Loads (.ldrsb cond p u i w rn rd hi lo) s rd rn e.wb ((loadedByte s e.addr).signExtend 32) ∧
        (e.addr.getLsbD 0 = false →
          Loads (.ldrh cond p u i w rn rd hi lo) s rd rn e.wb ((loadedHalf s e.addr).setWidth 32) ∧
          Loads (.ldrsh cond p u i w rn rd hi lo) s rd rn e.wb ((loadedHalf s e.addr).signExtend 32)))) ∧
    Loads (.tLdrbReg b a d) s (low d) 0 none ((loadedByte s sum).setWidth 32) ∧
    Loads (.tLdrbImm imm5 a d) s (low d) 0 none ((loadedByte s (s.reg (low a) + imm5.setWidth 32)).setWidth 32) ∧
    Loads (.tLdrsbReg b a d) s (low d) 0 none ((loadedByte s sum).signExtend 32) ∧
    (sum.getLsbD 0 = false →
      Loads (.tLdrhReg b a d) s (low d) 0 none ((loadedHalf s sum).setWidth 32) ∧
      Loads (.tLdrshReg b a d) s (low d) 0 none ((loadedHalf s sum).signExtend 32)) ∧
    (let va := s.reg (low a) + imm5.setWidth 32 * 2
     va.getLsbD 0 = false → Loads (.tLdrhImm imm5 a d) s (low d) 0 none ((loadedHalf s va).setWidth 32))

/-- STR and STRT, ARM and Thumb: the word is stored at the aligned address, and nothing else of memory changes
(`45_arm_loadstore` R587, R591, `41_dsp_thumb` R704, R712, R718, `20_memory` R222). That a store with write-back of its own base
completes, storing an open value (notes/assumptions 16), and that R15, by STRT too, stores the pc and an open offset of 8 or
12 (notes/assumptions 10) are the model's choices. -/
def Obligations.StoreWordResult : Prop :=
  ∀ (cond : Cond) (p u w : Bool) (rn rd rm : Reg) (off : BitVec 12) (n : BitVec 5) (kind : BitVec 2)
    (a b d : BitVec 3) (imm5 : BitVec 5) (imm8 : BitVec 8) (s : State), PlainMemory s →
    (condPassed cond s = true →
      (let e := s.am2Imm p u w rn off
       am2Imm p w rn → alignedFor s e.addr 4 = true →
         Stores (.strImm cond p u w rn rd off) s rn e.wb (wordAt s e.addr) 4 (storedValue s rd rn e.wb)) ∧
      (let e := s.am2Reg p u w rn n kind rm
       am2Reg p w rn rm → alignedFor s e.addr 4 = true →
         Stores (.strReg cond p u w rn rd n kind rm) s rn e.wb (wordAt s e.addr) 4 (storedValue s rd rn e.wb)) ∧
      (let e := s.am2Imm false u true rn off
       am2Imm false true rn → alignedFor s e.addr 4 = true →
         Stores (.strtImm cond u rn rd off) s rn e.wb (wordAt s e.addr) 4 (storedValue s rd rn e.wb)) ∧
      (let e := s.am2Reg false u true rn n kind rm
       am2Reg false true rn rm → alignedFor s e.addr 4 = true →
         Stores (.strtReg cond u rn rd n kind rm) s rn e.wb (wordAt s e.addr) 4 (storedValue s rd rn e.wb))) ∧
    (let va := s.reg (low a) + s.reg (low b)
     alignedFor s va 4 = true → Stores (.tStrReg b a d) s 0 none (wordAt s va) 4 (some (s.reg (low d)))) ∧
    (let va := s.reg (low a) + imm5.setWidth 32 * 4
     alignedFor s va 4 = true → Stores (.tStrImm imm5 a d) s 0 none (wordAt s va) 4 (some (s.reg (low d)))) ∧
    (let va := s.reg 13 + imm8.setWidth 32 * 4
     alignedFor s va 4 = true → Stores (.tStrSp d imm8) s 0 none (wordAt s va) 4 (some (s.reg (low d))))

/-- STRB, STRBT, and at an even address STRH, ARM and Thumb: the low byte or halfword, and nothing else of memory changes
(`45_arm_loadstore` R588, R592, R596, `41_dsp_thumb` R705, R706, R714, R716, `20_memory` R213). That a store with write-back of
its own base completes, storing an open value (notes/assumptions 16), and that STRBT and STRH of R15 run and store the low byte
and halfword of the pc plus 8 (`10_state` R36; DEDUCED, notes/assumptions 10) are the model's choices. -/
def Obligations.StoreNarrowResult : Prop :=
  ∀ (cond : Cond) (p u w i : Bool) (rn rd rm hi lo : Reg) (off : BitVec 12) (n : BitVec 5) (kind : BitVec 2)
    (a b d : BitVec 3) (imm5 : BitVec 5) (s : State), PlainMemory s →
    let sum := s.reg (low a) + s.reg (low b)
    let x := s.reg (low d)
    (condPassed cond s = true →
      (let e := s.am2Imm p u w rn off
       rd ≠ 15 → am2Imm p w rn →
         Stores (.strbImm cond p u w rn rd off) s rn e.wb (byteAt s e.addr) 1 (storedReg s rd rn e.wb)) ∧
      (let e := s.am2Reg p u w rn n kind rm
       rd ≠ 15 → am2Reg p w rn rm →
         Stores (.strbReg cond p u w rn rd n kind rm) s rn e.wb (byteAt s e.addr) 1 (storedReg s rd rn e.wb)) ∧
      (let e := s.am2Imm false u true rn off
       am2Imm false true rn →
         Stores (.strbtImm cond u rn rd off) s rn e.wb (byteAt s e.addr) 1 (storedReg s rd rn e.wb)) ∧
      (let e := s.am2Reg false u true rn n kind rm
       am2Reg false true rn rm →
         Stores (.strbtReg cond u rn rd n kind rm) s rn e.wb (byteAt s e.addr) 1 (storedReg s rd rn e.wb))) ∧
    (let e := s.am3 p u i w rn hi lo
     condPassed cond s = true → am3 p i w rn hi lo → e.addr.getLsbD 0 = false →
       Stores (.strh cond p u i w rn rd hi lo) s rn e.wb (Spec.halfAt s e.addr) 2 (storedReg s rd rn e.wb)) ∧
    Stores (.tStrbReg b a d) s 0 none (byteAt s sum) 1 (some x) ∧
    Stores (.tStrbImm imm5 a d) s 0 none (byteAt s (s.reg (low a) + imm5.setWidth 32)) 1 (some x) ∧
    (sum.getLsbD 0 = false → Stores (.tStrhReg b a d) s 0 none (Spec.halfAt s sum) 2 (some x)) ∧
    (let va := s.reg (low a) + imm5.setWidth 32 * 2
     va.getLsbD 0 = false → Stores (.tStrhImm imm5 a d) s 0 none (Spec.halfAt s va) 2 (some x))

/-- LDRD and STRD at an address that is a multiple of eight: two words in ascending addresses, the even register first
(`45_arm_loadstore` R597, R598). -/
def Obligations.DoublewordResult : Prop :=
  ∀ (cond : Cond) (p u w i : Bool) (rn rd hi lo : Reg) (s : State), PlainMemory s → condPassed cond s = true →
    let e := s.am3 p u i w rn hi lo
    am3 p i w rn hi lo → doubleRegs p i w rn rd lo → e.addr.toNat % 8 = 0 →
    LoadsTwo (.ldrd cond p u i w rn rd hi lo) s rd rn e.wb
      (memWord s.mem (wordAt s e.addr)) (memWord s.mem (wordAt s (e.addr + 4))) ∧
    StoresTwo (.strd cond p u i w rn rd hi lo) s rn e.wb (wordAt s e.addr) (wordAt s (e.addr + 4))
      (s.reg rd) (s.reg (rd + 1))

/-- LDM(1), POP and LDMIA without R15, with process id 0: the registers of the list, in ascending order, receive the words of the
block; an empty list of POP or LDMIA is refused (`45_arm_loadstore` R605, R606, `41_dsp_thumb` R725, R727,
`93_implementation_defined` section 2.4). That LDM(1) with write-back and its base in the list completes, with the base open,
is the model's choice (notes/assumptions 16). -/
def Obligations.LoadMultipleResult : Prop :=
  ∀ (cond : Cond) (p u w : Bool) (rn : Reg) (list : BitVec 16) (a : BitVec 3) (tl : BitVec 8) (s : State),
    PlainMemory s → s.cp15.pid = 0 →
    (condPassed cond s = true → rn ≠ 15 → list ≠ 0 → list.getLsbD 15 = false →
      alignedFor s (listAt s p u rn list).1 4 = true →
      LoadsList (.ldm cond p u w rn list) s s.mode rn (listBase w (listAt s p u rn list).2)
        (listAt s p u rn list).1 list) ∧
    (tl ≠ 0 → alignedFor s (s.reg 13) 4 = true →
      LoadsList (.tPop false tl) s s.mode 13 (some (s.reg 13 + BitVec.ofNat 32 (4 * listCount 8 tl))) (s.reg 13)
        (lowList tl)) ∧
    (tl ≠ 0 → alignedFor s (s.reg (low a)) 4 = true →
      LoadsList (.tLdmia a tl) s s.mode (low a)
        (if tl.getLsbD a.toNat then none else some (s.reg (low a) + BitVec.ofNat 32 (4 * listCount 8 tl)))
        (s.reg (low a)) (lowList tl)) ∧
    exec (.tPop false 0) s = .refused .emptyRegisterList ∧
    exec (.tLdmia a 0) s = .refused .emptyRegisterList

/-- A load into R15 is an interworking branch: LDR at a word-aligned address; LDM(1) and POP with R15 in the list, with process id 0,
where the last word of the block is the target (`10_state` R37, `45_arm_loadstore` R585, R606, `41_dsp_thumb` R725). That LDM(1)
with write-back and its base in the list completes, with the base open, is the model's choice (notes/assumptions 16). -/
def Obligations.LoadToPc : Prop :=
  ∀ (cond : Cond) (p u w : Bool) (rn rm : Reg) (off : BitVec 12) (n : BitVec 5) (kind : BitVec 2) (regs : BitVec 15)
    (tl : BitVec 8) (s : State), PlainMemory s →
    (condPassed cond s = true →
      (let e := s.am2Imm p u w rn off
       am2Imm p w rn → e.addr.toNat % 4 = 0 →
         LoadsPc (.ldrImm cond p u w rn 15 off) s rn e.wb (memWord s.mem (wordAt s e.addr))) ∧
      (let e := s.am2Reg p u w rn n kind rm
       am2Reg p w rn rm → e.addr.toNat % 4 = 0 →
         LoadsPc (.ldrReg cond p u w rn 15 n kind rm) s rn e.wb (memWord s.mem (wordAt s e.addr)))) ∧
    (s.cp15.pid = 0 →
      (let list : BitVec 16 := (1 : BitVec 1) ++ regs
       let start := (listAt s p u rn list).1
       let v := memWord s.mem (blockWord start (listCount 15 regs))
       condPassed cond s = true → rn ≠ 15 → alignedFor s start 4 = true → (v.getLsbD 0 = true ∨ v.getLsbD 1 = false) →
       Gives (.ldm cond p u w rn list) s fun t =>
         t.pc = v &&& ~~~1 ∧ t.cpsr = (if v.getLsbD 0 then s.cpsr ||| 0x20 else s.cpsr &&& ~~~0x20) ∧
         (∀ k r, (listRegs list)[k]? = some r → r ≠ 15 → (w = false ∨ r ≠ rn) →
           t.regIn s.mode r = memWord s.mem (blockWord start k)) ∧
         (w = true → list.getLsbD rn.toNat = false → t.regIn s.mode rn = (listAt s p u rn list).2) ∧
         Frame s t ((listRegs ((0 : BitVec 1) ++ regs)).map (physIndex s.mode) ++
           baseRegs s rn (listBase w (listAt s p u rn list).2)) noBytes) ∧
      (let start := s.reg 13
       let v := memWord s.mem (blockWord start (listCount 8 tl))
       alignedFor s start 4 = true → (v.getLsbD 0 = true ∨ v.getLsbD 1 = false) →
       Gives (.tPop true tl) s fun t =>
         t.pc = v &&& ~~~1 ∧ t.cpsr = (if v.getLsbD 0 then s.cpsr ||| 0x20 else s.cpsr &&& ~~~0x20) ∧
         (∀ k r, (listRegs (lowList tl))[k]? = some r → t.regIn s.mode r = memWord s.mem (blockWord start k)) ∧
         t.regIn s.mode 13 = start + BitVec.ofNat 32 (4 * listCount 8 tl + 4) ∧
         Frame s t (phys s 13 :: (listRegs (lowList tl)).map (physIndex s.mode)) noBytes))

/-- STM(1), PUSH and STMIA, with process id 0: the words of the block receive the registers of the list in ascending order; an
empty STMIA changes nothing (`45_arm_loadstore` R605, R609, `41_dsp_thumb` R724, R726). The model's choices: the empty list
(notes/assumptions 45); that a store with write-back and its base in the list, not first, completes, storing an open value
(notes/assumptions 16); that R15 stores the pc and an open offset of 8 or 12 (notes/assumptions 10). -/
def Obligations.StoreMultipleResult : Prop :=
  ∀ (cond : Cond) (p u w r : Bool) (rn : Reg) (list : BitVec 16) (a : BitVec 3) (tl : BitVec 8) (s : State),
    PlainMemory s → s.cp15.pid = 0 →
    (condPassed cond s = true → rn ≠ 15 → list ≠ 0 → alignedFor s (listAt s p u rn list).1 4 = true →
      StoresList (.stm cond p u w rn list) s s.mode rn (listBase w (listAt s p u rn list).2)
        (listAt s p u rn list).1 list) ∧
    (let pushed : BitVec 16 := lowList tl ||| (if r then 0x4000 else 0)
     let start := s.reg 13 - BitVec.ofNat 32 (4 * listCount 16 pushed)
     pushed ≠ 0 → alignedFor s start 4 = true →
      StoresList (.tPush r tl) s s.mode 13 (some start) start pushed) ∧
    (tl ≠ 0 → alignedFor s (s.reg (low a)) 4 = true →
      StoresList (.tStmia a tl) s s.mode (low a) (some (s.reg (low a) + BitVec.ofNat 32 (4 * listCount 8 tl)))
        (s.reg (low a)) (lowList tl)) ∧
    exec (.tStmia a 0) s = .next { s with pc := s.nextPc }

/-- LDM(2), STM(2) and LDM(3), with process id 0, in a mode that has an SPSR: the first two transfer the registers of User mode with
the base of the present mode; the third loads the registers of the present mode, then returns from the exception, the pc from
the last word and the CPSR from the SPSR, and ends Special Debug State (`45_arm_loadstore` R607, R608, R610, `60_exceptions`
R884, `61_debug_pmu_power` R1031). The model's choices: that
LDM(3) with write-back and its base in the list completes, with the base open (notes/assumptions 16); that R15 stores the pc
and an open offset of 8 or 12 (notes/assumptions 10). -/
def Obligations.ExceptionMultiple : Prop :=
  ∀ (cond : Cond) (p u w : Bool) (rn : Reg) (list : BitVec 16) (regs : BitVec 15) (s : State) (psr : Word),
    PlainMemory s → s.cp15.pid = 0 → condPassed cond s = true → rn ≠ 15 → s.spsr = some psr →
    (let l : BitVec 16 := (0 : BitVec 1) ++ regs
     regs ≠ 0 → alignedFor s (listAt s p u rn l).1 4 = true →
      LoadsList (.ldmUser cond p u false rn regs) s modeUser rn none (listAt s p u rn l).1 l) ∧
    (list ≠ 0 → alignedFor s (listAt s p u rn list).1 4 = true →
      StoresList (.stmUser cond p u false rn list) s modeUser rn none (listAt s p u rn list).1 list) ∧
    (let list : BitVec 16 := (1 : BitVec 1) ++ regs
     let start := (listAt s p u rn list).1
     isSoftwareMode (psr.extractLsb' 0 5) = true → alignedFor s start 4 = true →
     Gives (.ldmReturn cond p u w rn regs) s fun t =>
       t.cpsr = psr ∧
       t.pc = memWord s.mem (blockWord start (listCount 15 regs)) &&& (if psr.getLsbD 5 then ~~~1 else ~~~3) ∧
       (∀ k r, (listRegs list)[k]? = some r → r ≠ 15 → (w = false ∨ r ≠ rn) →
         t.regIn s.mode r = memWord s.mem (blockWord start k)) ∧
       (w = true → list.getLsbD rn.toNat = false → t.regIn s.mode rn = (listAt s p u rn list).2) ∧
       Frame { s with dbg := { s.dbg with sds := false } } t
         ((listRegs ((0 : BitVec 1) ++ regs)).map (physIndex s.mode) ++
           baseRegs s rn (listBase w (listAt s p u rn list).2)) noBytes)

/-- SWP and SWPB: the register receives what memory held, memory receives the other register (`45_arm_loadstore` R615,
R616). -/
def Obligations.SwapResult : Prop :=
  ∀ (cond : Cond) (rn rd rm : Reg) (s : State), PlainMemory s → condPassed cond s = true →
    rn ≠ 15 → rd ≠ 15 → rm ≠ 15 → rn ≠ rm → rn ≠ rd →
    (alignedFor s (s.reg rn) 4 = true →
      Swaps (.swp cond rn rd 0 rm) s rd (loadedWord s (s.reg rn)) (wordAt s (s.reg rn)) 4 (s.reg rm)) ∧
    Swaps (.swpb cond rn rd 0 rm) s rd ((loadedByte s (s.reg rn)).setWidth 32) (byteAt s (s.reg rn)) 1 (s.reg rm)

/-- PLD changes no register and takes no exception: neither where its translation succeeds, nor where it aborts. Cancelled by that,
or by an error on the read of its line, with no store to the block waiting, it leaves every cache, buffer and byte of memory as
it was; with plain memory it changes nothing at all. What is unpredictable at the access is refused, and so is a line of shared
or LLR memory while lines that are filled get locked (`45_arm_loadstore` R599, `20_memory` R237, `60_exceptions` R906,
`93_implementation_defined` section 2.2). -/
def Obligations.PreloadHasNoResult : Prop :=
  ∀ (u : Bool) (rn rm : Reg) (off : BitVec 12) (n : BitVec 5) (kind : BitVec 2) (i : Instr) (va : Word) (s : State),
    ((i = .pldImm u rn off ∧ va = (s.am2Imm true u false rn off).addr) ∨
      (rm ≠ 15 ∧ i = .pldReg u rn n kind rm ∧ va = (s.am2Reg true u false rn n kind rm).addr)) →
    let mva := s.pidRemap va
    let same (t : State) : Prop :=
      t.regs = s.regs ∧ t.spsrs = s.spsrs ∧ t.cpsr = s.cpsr ∧ t.acc0 = s.acc0 ∧ t.cp15 = s.cp15 ∧ t.pc = s.nextPc
    (∀ m s1, translate mva .read s.privileged s = .ok m s1 →
      ((s1.fills m = false ∨ s1.lockable m = true) → Gives i s same) ∧
      (s1.fills m = true → s1.lockable m = false → s1.dFind mva = none → exec i s = .refused .maintenance)) ∧
    (∀ fs d f s1, translate mva .read s.privileged s = .error (.abort fs d f) s1 →
      Gives i s fun t => same t ∧ t.icache = s.icache ∧ t.dcache = s.dcache ∧ t.l2 = s.l2 ∧ t.buffers = s.buffers ∧
        t.mem = s.mem) ∧
    (∀ m s1, translate mva .read s.privileged s = .ok m s1 → s1.fills m = true → s1.lockable m = true →
      s1.dFind mva = none → s.buffers.all (·.line != blockOf m.pa) = true →
      ((s1.releaseLine (blockOf m.pa)).nextRead (lineBase (blockOf m.pa)) m.attrs.l2 false).1 = none →
      Gives i s fun t => same t ∧ t.icache = s.icache ∧ t.dcache = s.dcache ∧ t.l2 = s.l2 ∧ t.buffers = s.buffers ∧
        t.mem = s.mem) ∧
    (∀ r s1, translate mva .read s.privileged s = .error (.refuse r) s1 → exec i s = .refused r) ∧
    (PlainMemory s → Gives i s fun t => same t ∧ Frame s t [] noBytes)

/-! Status registers -/

/-- MRS: the encoding; the CPSR, or the SPSR of a mode that has one; R15, and the SPSR of a mode without one, are refused. MSR:
the selected fields of the allocated bits; in User mode only the flags and Q of the CPSR; a privileged write of the control field
keeps T, selects a mode of the architecture, and does not enter User mode in Special Debug State (`40_arm_base` R550, R551,
`61_debug_pmu_power` R1030, R1031). The model's choice: that MRS gives the reserved bits 26 to 8 as they are stored, where
`10_state` R40 says that they read as an unknown value (notes/assumptions 2). -/
def Obligations.StatusTransfer : Prop :=
  ∀ (cond : Cond) (mask : BitVec 4) (rd rm rot : Reg) (imm : BitVec 8) (s : State),
    (∀ r, encode (.mrs cond r 15 rd 0 0) =
      .arm (cond.bits ++ (0b00010 : BitVec 5) ++ BitVec.ofBool r ++ (0b001111 : BitVec 6) ++ rd ++ (0 : BitVec 12))) ∧
    (condPassed cond s = true →
    (rd ≠ 15 →
      Writes (.mrs cond false 15 rd 0 0) s rd s.cpsr s.cpsr ∧
      (∀ p, s.spsr = some p → Writes (.mrs cond true 15 rd 0 0) s rd p s.cpsr) ∧
      (s.spsr = none → exec (.mrs cond true 15 rd 0 0) s = .refused .noSpsr)) ∧
    (rd = 15 → ∀ r, exec (.mrs cond r 15 rd 0 0) s = .refused .pcOperand) ∧
    (∀ (i : Bool → Instr) (v : Word),
      ((i = fun r => .msrReg cond r mask 0xF0 rm) ∧ v = s.reg rm ∨
        (i = fun r => .msrImm cond r mask 15 rot imm) ∧ v = (imm.setWidth 32).rotateRight (2 * rot.toNat)) →
      let flags : Word := if mask.getLsbD 3 then 0xF8000000 else 0
      let control : Word := if mask.getLsbD 0 then 0x000000FF else 0
      let put (m old : Word) : Word := (old &&& ~~~m) ||| (v &&& m)
      (s.mode = modeUser → Effect (i false) s { s with cpsr := put flags s.cpsr }) ∧
      (s.mode ≠ modeUser →
        (mask.getLsbD 0 = true → v.getLsbD 5 = s.thumb ∧ isSoftwareMode (v.extractLsb' 0 5) = true ∧
          (s.dbg.sds = true → v.extractLsb' 0 5 ≠ modeUser)) →
        Effect (i false) s { s with cpsr := put (flags ||| control) s.cpsr }) ∧
      (∀ p, s.spsr = some p →
        Effect (i true) s (s.setSpsrOf (bankOf s.mode) (put (flags ||| control) p)))))

/-! Exceptions -/

/-- Exception entry, for each of the seven exceptions: the link and the old CPSR in the banks of the mode entered, the mode, ARM
state, IRQ disabled, FIQ disabled by reset and FIQ, the pc at the vector, and no other register or byte of memory changed
(`60_exceptions` R881, R882). -/
def Obligations.ExceptionEntry : Prop :=
  ∀ (s : State) (link : Word),
    Enters s (s.enterException .reset link) 0b10011 link 0x00 true ∧
    Enters s (s.enterException .undefined link) 0b11011 link 0x04 false ∧
    Enters s (s.enterException .swi link) 0b10011 link 0x08 false ∧
    Enters s (s.enterException .prefetchAbort link) 0b10111 link 0x0C false ∧
    Enters s (s.enterException .dataAbort link) 0b10111 link 0x10 false ∧
    Enters s (s.enterException .irq link) 0b10010 link 0x18 false ∧
    Enters s (s.enterException .fiq link) 0b10001 link 0x1C true

/-- SWI, ARM and Thumb, with the debug functionality disabled: the link is the next instruction, the vector 0x08 (`60_exceptions`
R891, `41_dsp_thumb` R731). -/
def Obligations.SoftwareInterrupt : Prop :=
  ∀ (cond : Cond) (imm : BitVec 24) (imm8 : BitVec 8) (s : State), s.debugOn = false → s.dbg.sds = false →
    (condPassed cond s = true → Gives (.swi cond imm) s fun t => Enters s t 0b10011 s.nextPc 0x08 false ∧ t.cp15 = s.cp15) ∧
    Gives (.tSwi imm8) s fun t => Enters s t 0b10011 s.nextPc 0x08 false ∧ t.cp15 = s.cp15

/-- The encodings that take the undefined instruction exception whatever the mode, with the debug functionality disabled. LDC to an
absent coprocessor that CPAR allows first makes its access, whose data abort comes before the exception (one word, and no
write-back: the model's reading, notes/assumptions 34)
(`30_encoding` R453, R462, `41_dsp_thumb` R733, `44_cp14_cp7` R856, R868 to R870, `45_arm_loadstore` R597, R598,
`60_exceptions` R890). -/
def Obligations.UndefinedEncodings : Prop :=
  ∀ (cond : Cond) (r17 : BitVec 17) (r2 : BitVec 2) (r20 : BitVec 20) (r1 p u n w : Bool) (a b c d e : BitVec 4)
    (o3 o3' : BitVec 3) (r8 : BitVec 8) (r10 : BitVec 10) (r12 : BitVec 12) (r28 : BitVec 28) (s : State),
    s.debugOn = false → s.dbg.sds = false →
    (condPassed cond s = true →
      Spec.Undefined (.undefExt cond r17 a) s ∧ Spec.Undefined (.undefMisc cond r2 r20) s ∧
      Spec.Undefined (.undefImm cond r1 r20) s ∧ Spec.Undefined (.undefMedia cond r20 a) s ∧
      Spec.Undefined (.stc cond p u n w a b c r8) s ∧
      Spec.Undefined (.mcr cond o3 a b c o3' d) s ∧ Spec.Undefined (.mrc cond o3 a b c o3' d) s ∧
      ((s.cp15.cpar.getLsbD c.toNat = false ∨ c = 0 ∨ c = 15) → Spec.Undefined (.ldc cond p u n w a b c r8) s) ∧
      (s.cp15.cpar.getLsbD c.toNat = true → c ≠ 0 → (p || u || w) = true → (w = false ∨ a ≠ 15) →
        let va := (s.am5 p u w a r8).addr
        (PlainMemory s → alignedFor s va 4 = true → Spec.Undefined (.ldc cond p u n w a b c r8) s) ∧
        (∀ fs d f s1, loadCoprocessor va s = .error (.abort fs d f) s1 →
          exec (.ldc cond p u n w a b c r8) s = .next (s1.dataAbort fs d f false))) ∧
      ((s.cp15.cpar.getLsbD 0 = false ∨ c ≠ 0) →
        Spec.Undefined (.cdp cond a b d c o3 e) s ∧ Spec.Undefined (.mcrr cond a b c d e) s ∧
          Spec.Undefined (.mrrc cond a b c d e) s) ∧
      (b.getLsbD 0 = true →
        Spec.Undefined (.ldrd cond p u n w a b c d) s ∧ Spec.Undefined (.strd cond p u n w a b c d) s)) ∧
    Spec.Undefined (.undefUncond r28) s ∧ Spec.Undefined (.ldc2 p u n w a b c r8) s ∧
    Spec.Undefined (.stc2 p u n w a b c r8) s ∧ Spec.Undefined (.cdp2 a b d c o3 e) s ∧
    Spec.Undefined (.mcr2 o3 a b c o3' d) s ∧ Spec.Undefined (.mrc2 o3 a b c o3' d) s ∧
    Spec.Undefined (.tUndef1011 r12) s ∧ Spec.Undefined (.tUndefCond r8) s ∧ Spec.Undefined (.tUndefBlx r10) s

/-- BKPT, ARM and Thumb: nothing with the debug functionality disabled or in Special Debug State; else a prefetch abort entry in
Monitor Mode, with FSR.D set, and the entry into DEBUG mode at the Debug SRAM in Halt Mode; MOE tells the cause
(`60_exceptions` R892, `61_debug_pmu_power` R1022, R1025). That the entry in Monitor Mode leaves FAR unchanged is the model's
choice: it follows `60_exceptions` R880 and `90_conflicts` C17 where R1025 takes FAR as unknown (notes/assumptions 28). -/
def Obligations.Breakpoint : Prop :=
  ∀ (hi : BitVec 12) (lo : BitVec 4) (imm8 : BitVec 8) (i : Instr) (s : State),
    (i = .bkpt .al hi lo ∨ i = .tBkpt imm8) →
    (s.debugOn = false ∨ s.dbg.sds = true → Effect i s s) ∧
    (s.debugOn = true → s.dbg.sds = false → s.haltMode = false →
      Gives i s fun t => Enters s t 0b10111 (s.pc + 4) 0x0C false ∧ t.cp15.fsr.getLsbD 9 = true ∧
        t.cp15 = { s.cp15 with fsr := t.cp15.fsr } ∧
        t.dbg.dcsr.extractLsb' 2 3 = 0b011 ∧ t.dbg.dcsr.getLsbD 0 = false) ∧
    (s.debugOn = true → s.dbg.sds = false → s.haltMode = true →
      Gives i s fun t => t.mode = 0b10101 ∧ t.thumb = false ∧ t.cpsr.getLsbD 7 = true ∧ t.cpsr.getLsbD 6 = true ∧
        t.pc = 0 ∧ t.regIn 0b10101 14 = s.pc + 4 ∧ t.spsrOf .dbg = some s.cpsr ∧ t.dbg.sds = true ∧
        t.dbg.dcsr.extractLsb' 2 3 = 0b011 ∧ t.dbg.dcsr.getLsbD 0 = false ∧ t.cp15 = s.cp15 ∧
        (∀ k : BitVec 5, k ≠ physIndex 0b10101 14 → t.regs.get k.toFin = s.regs.get k.toFin) ∧
        (∀ a, memByte t.mem a = memByte s.mem a))

/-- With the alignment check on, every access of more than a byte at a misaligned address takes a data abort, ARM and Thumb: the
word forms, R15 and the forms of User privilege included, the halfword and doubleword forms, the multiple forms (their first
address counts), the swap of a word, and the coprocessor forms. The link is the pc plus eight, FSR has an alignment status
(bit 1 unknown), FAR the modified address, and no register but the abort link and no byte of memory changes, the base included
(`20_memory` R221, `60_exceptions` R900, R901). -/
def Obligations.AlignmentAbort : Prop :=
  ∀ (cond : Cond) (p u w i : Bool) (rn rd rm hi lo : Reg) (off : BitVec 12) (n : BitVec 5) (kind : BitVec 2)
    (list : BitVec 16) (regs : BitVec 15) (a b d : BitVec 3) (imm5 : BitVec 5) (tl off8 : BitVec 8) (s : State),
    s.debugOn = false → s.dbg.sds = false → s.ctrlBit 1 = true →
    let misaligned (va : Word) (size : Nat) : Prop := va.toNat % size ≠ 0
    (condPassed cond s = true →
      (let va := (s.am2Imm p u w rn off).addr
       am2Imm p w rn → misaligned va 4 →
         ∀ j ∈ [Instr.ldrImm cond p u w rn rd off, .strImm cond p u w rn rd off], MisalignedAbort j s va) ∧
      (let va := (s.am2Reg p u w rn n kind rm).addr
       am2Reg p w rn rm → misaligned va 4 →
         ∀ j ∈ [Instr.ldrReg cond p u w rn rd n kind rm, .strReg cond p u w rn rd n kind rm], MisalignedAbort j s va) ∧
      (let va := (s.am2Imm false u true rn off).addr
       rn ≠ 15 → rd ≠ 15 → misaligned va 4 →
         ∀ j ∈ [Instr.ldrtImm cond u rn rd off, .strtImm cond u rn rd off], MisalignedAbort j s va) ∧
      (let va := (s.am2Reg false u true rn n kind rm).addr
       am2Reg false true rn rm → rd ≠ 15 → misaligned va 4 →
         ∀ j ∈ [Instr.ldrtReg cond u rn rd n kind rm, .strtReg cond u rn rd n kind rm], MisalignedAbort j s va) ∧
      (let va := (s.am3 p u i w rn hi lo).addr
       am3 p i w rn hi lo →
         (rd ≠ 15 → misaligned va 2 →
           ∀ j ∈ [Instr.ldrh cond p u i w rn rd hi lo, .ldrsh cond p u i w rn rd hi lo, .strh cond p u i w rn rd hi lo],
             MisalignedAbort j s va) ∧
         (doubleRegs p i w rn rd lo → misaligned va 8 →
           ∀ j ∈ [Instr.ldrd cond p u i w rn rd hi lo, .strd cond p u i w rn rd hi lo], MisalignedAbort j s va)) ∧
      (rn ≠ 15 →
        (let va := (listAt s p u rn list).1
         list ≠ 0 → misaligned va 4 →
           (∀ j ∈ [Instr.ldm cond p u w rn list, .stm cond p u w rn list], MisalignedAbort j s va) ∧
           (s.spsr.isSome = true → MisalignedAbort (.stmUser cond p u false rn list) s va)) ∧
        (let va := (listAt s p u rn ((0 : BitVec 1) ++ regs)).1
         regs ≠ 0 → s.spsr.isSome = true → misaligned va 4 → MisalignedAbort (.ldmUser cond p u false rn regs) s va) ∧
        (let va := (listAt s p u rn ((1 : BitVec 1) ++ regs)).1
         s.spsr.isSome = true → misaligned va 4 → MisalignedAbort (.ldmReturn cond p u w rn regs) s va)) ∧
      (rn ≠ 15 → rd ≠ 15 → rm ≠ 15 → rn ≠ rm → rn ≠ rd → misaligned (s.reg rn) 4 →
        MisalignedAbort (.swp cond rn rd 0 rm) s (s.reg rn)) ∧
      (let va := (s.am5 p u w rn off8).addr
       (p || u || w) = true → (w = false ∨ rn ≠ 15) → misaligned va 4 →
         (s.privileged = true → (ldcTarget rd).isSome = true → MisalignedAbort (.ldcP14 cond p u false w rn rd off8) s va) ∧
         (s.privileged = true → (stcSource s rd).isSome = true → MisalignedAbort (.stcP14 cond p u false w rn rd off8) s va) ∧
         (s.cp15.cpar.getLsbD hi.toNat = true → hi ≠ 0 → MisalignedAbort (.ldc cond p u i w rn rd hi off8) s va))) ∧
    (let va := s.reg (low a) + s.reg (low b)
     (misaligned va 4 → ∀ j ∈ [Instr.tLdrReg b a d, .tStrReg b a d], MisalignedAbort j s va) ∧
     (misaligned va 2 → ∀ j ∈ [Instr.tLdrhReg b a d, .tLdrshReg b a d, .tStrhReg b a d], MisalignedAbort j s va)) ∧
    (let va := s.reg (low a) + imm5.setWidth 32 * 4
     misaligned va 4 → ∀ j ∈ [Instr.tLdrImm imm5 a d, .tStrImm imm5 a d], MisalignedAbort j s va) ∧
    (let va := s.reg (low a) + imm5.setWidth 32 * 2
     misaligned va 2 → ∀ j ∈ [Instr.tLdrhImm imm5 a d, .tStrhImm imm5 a d], MisalignedAbort j s va) ∧
    (let va := s.reg 13 + tl.setWidth 32 * 4
     misaligned va 4 → ∀ j ∈ [Instr.tLdrSp d tl, .tStrSp d tl], MisalignedAbort j s va) ∧
    (misaligned (s.reg 13) 4 →
      (tl ≠ 0 ∨ w = true → MisalignedAbort (.tPop w tl) s (s.reg 13)) ∧
      (let pushed : BitVec 16 := lowList tl ||| (if w then 0x4000 else 0)
       pushed ≠ 0 → MisalignedAbort (.tPush w tl) s (s.reg 13 - BitVec.ofNat 32 (4 * listCount 16 pushed)))) ∧
    (tl ≠ 0 → misaligned (s.reg (low a)) 4 →
      ∀ j ∈ [Instr.tLdmia a tl, .tStmia a tl], MisalignedAbort j s (s.reg (low a)))

/-- The step takes a pending FIQ, and with no FIQ to take a pending IRQ, when nothing of a higher rank is pending: the link is the
next instruction plus four (`60_exceptions` R881, R885, R886). -/
def Obligations.InterruptEntry : Prop :=
  ∀ s : State, s.schedule = [] → s.inReset = false → s.dbg.hit = false → s.pendingAbort = none → s.jtagNow = false →
    s.debugOn = false → s.dbg.sds = false → s.pmu.e = false →
    (s.pins.fiq = true → s.cpsr.getLsbD 6 = false →
      ∃ t, step s = .next t ∧ Enters s t 0b10001 (s.pc + 4) 0x1C true) ∧
    ((s.pins.fiq = false ∨ s.cpsr.getLsbD 6 = true) → s.pins.irq = true → s.cpsr.getLsbD 7 = false →
      ∃ t, step s = .next t ∧ Enters s t 0b10010 (s.pc + 4) 0x18 false)

/-- What the reset sequence leaves, and what the state right after reset holds: Supervisor mode, both interrupts disabled, ARM state,
the pc at 0, the Control register and the other registers with a reset value, empty caches and TLBs; the sequence leaves memory,
the debugger's bits, the trace buffer and the Debug SRAM alone (`70_reset_and_hazards` R1101, `10_state` R44). -/
def Obligations.ResetSequence : Prop :=
  (∀ t : State, (t = State.reset ∨ ∃ s : State, t = s.resetCore) →
    t.cpsr.extractLsb' 0 8 = 0xD3 ∧ t.pc = 0 ∧
    t.cp15.ctrl = 0x78 ∧ t.cp15.auxctrl = 0 ∧ t.cp15.dclock = false ∧ t.cp15.pid = 0 ∧ t.cp15.cpar = 0 ∧
    t.cp15.dbcon = 0 ∧ t.cp15.ibr0.getLsbD 0 = false ∧ t.cp15.ibr1.getLsbD 0 = false ∧
    t.pmu.e = false ∧ t.pmu.inten = 0 ∧ t.pmu.flag = 0 ∧ t.pwr.mode = 0 ∧
    t.dbg.dcsr &&& 0x8000007F = 0 ∧ t.dbg.sds = false ∧ t.dbg.rr = false ∧ t.dbg.ov = false ∧ t.dbg.tr = false ∧
    t.err = { errlog := 0, erradrl := 0, erradru := 0, sbeIrq := false } ∧
    t.itlb = Tlb.reset ∧ t.dtlb = Tlb.reset ∧ t.icache.lines = [] ∧ t.icache.buffers = [] ∧ t.dcache.lines = [] ∧
    t.btb = [] ∧ t.buffers = [] ∧ t.l2.lines = [] ∧ t.l2Out = [] ∧ t.stale = [] ∧ t.subWord = false ∧
    t.pendingAbort = none) ∧
  (∀ s : State,
    s.resetCore.mem = s.mem ∧ s.resetCore.dbg.dcsr = s.dbg.dcsr &&& 0x7FFFFF80 ∧ s.resetCore.dbg.d = s.dbg.d ∧
    s.resetCore.dbg.tb = s.dbg.tb ∧ s.resetCore.dbg.tbPtr = s.dbg.tbPtr ∧ s.resetCore.dbg.sram = s.dbg.sram ∧
    s.resetCore.dbg.holdReset = s.dbg.holdReset ∧ s.resetCore.dbg.jtagBreak = s.dbg.jtagBreak ∧
    s.resetCore.dbg.ldReq = s.dbg.ldReq ∧ s.resetCore.dbg.ldLeft = s.dbg.ldLeft)

/-! Thumb -/

/-- The Thumb additions, subtractions and comparisons: the encoding, the result and all four flags (`41_dsp_thumb` R674 to R677,
R679 to R681, R687, R688, R691 to R693). -/
def Obligations.ThumbArithmetic : Prop :=
  ∀ (a b d : BitVec 3) (imm3 : BitVec 3) (imm8 : BitVec 8) (s : State),
    Computes (.tAddReg b a d) s (low d) true (plus (s.reg (low a)) (s.reg (low b)) false) ∧
    Computes (.tSubReg b a d) s (low d) true (minus (s.reg (low a)) (s.reg (low b)) false) ∧
    Computes (.tAddImm3 imm3 a d) s (low d) true (plus (s.reg (low a)) (imm3.setWidth 32) false) ∧
    Computes (.tSubImm3 imm3 a d) s (low d) true (minus (s.reg (low a)) (imm3.setWidth 32) false) ∧
    Computes (.tAddImm8 d imm8) s (low d) true (plus (s.reg (low d)) (imm8.setWidth 32) false) ∧
    Computes (.tSubImm8 d imm8) s (low d) true (minus (s.reg (low d)) (imm8.setWidth 32) false) ∧
    Computes (.tAdc b d) s (low d) true (plus (s.reg (low d)) (s.reg (low b)) s.flagC) ∧
    Computes (.tSbc b d) s (low d) true (minus (s.reg (low d)) (s.reg (low b)) (!s.flagC)) ∧
    Computes (.tNeg b d) s (low d) true (minus 0 (s.reg (low b)) false) ∧
    Compares (.tCmpImm a imm8) s (minus (s.reg (low a)) (imm8.setWidth 32) false) ∧
    Compares (.tCmpReg b a) s (minus (s.reg (low a)) (s.reg (low b)) false) ∧
    Compares (.tCmn b a) s (plus (s.reg (low a)) (s.reg (low b)) false) ∧
    encode (.tAddReg b a d) = .thumb ((0b0001100 : BitVec 7) ++ b ++ a ++ d) ∧
    encode (.tSubReg b a d) = .thumb ((0b0001101 : BitVec 7) ++ b ++ a ++ d) ∧
    encode (.tAddImm3 imm3 a d) = .thumb ((0b0001110 : BitVec 7) ++ imm3 ++ a ++ d) ∧
    encode (.tSubImm3 imm3 a d) = .thumb ((0b0001111 : BitVec 7) ++ imm3 ++ a ++ d) ∧
    encode (.tCmpImm a imm8) = .thumb ((0b00101 : BitVec 5) ++ a ++ imm8) ∧
    encode (.tAddImm8 d imm8) = .thumb ((0b00110 : BitVec 5) ++ d ++ imm8) ∧
    encode (.tSubImm8 d imm8) = .thumb ((0b00111 : BitVec 5) ++ d ++ imm8) ∧
    encode (.tAdc b d) = aluCode 0b0101 b d ∧ encode (.tSbc b d) = aluCode 0b0110 b d ∧
    encode (.tNeg b d) = aluCode 0b1001 b d ∧ encode (.tCmpReg b a) = aluCode 0b1010 b a ∧
    encode (.tCmn b a) = aluCode 0b1011 b a

/-- The Thumb logical operations, moves, multiply and shifts: the encoding, the result, N and Z of it, C only from a shifter, V
unchanged (`41_dsp_thumb` R671 to R673, R678, R682 to R686, R689, R690, R694 to R697). -/
def Obligations.ThumbLogic : Prop :=
  ∀ (b d : BitVec 3) (imm5 : BitVec 5) (imm8 : BitVec 8) (s : State),
    let x := s.reg (low d)
    let y := s.reg (low b)
    let res (v : Word) : Sum := { value := v, carry := s.flagC, overflow := s.flagV }
    let shift (r : Shifted) : Sum := { value := r.value, carry := r.carry, overflow := s.flagV }
    let right : Nat := if imm5 = 0 then 32 else imm5.toNat
    Computes (.tAnd b d) s (low d) true (res (x &&& y)) ∧
    Computes (.tEor b d) s (low d) true (res (x ^^^ y)) ∧
    Computes (.tOrr b d) s (low d) true (res (x ||| y)) ∧
    Computes (.tBic b d) s (low d) true (res (x &&& ~~~y)) ∧
    Computes (.tMvn b d) s (low d) true (res (~~~y)) ∧
    Computes (.tMul b d) s (low d) true (res (x * y)) ∧
    Computes (.tMovImm d imm8) s (low d) true (res (imm8.setWidth 32)) ∧
    Compares (.tTst b d) s (res (x &&& y)) ∧
    Computes (.tLslImm imm5 b d) s (low d) true (shift (shifted 0 y imm5.toNat s.flagC)) ∧
    Computes (.tLsrImm imm5 b d) s (low d) true (shift (shifted 1 y right s.flagC)) ∧
    Computes (.tAsrImm imm5 b d) s (low d) true (shift (shifted 2 y right s.flagC)) ∧
    Computes (.tLslReg b d) s (low d) true (shift (shifted 0 x (y.toNat % 256) s.flagC)) ∧
    Computes (.tLsrReg b d) s (low d) true (shift (shifted 1 x (y.toNat % 256) s.flagC)) ∧
    Computes (.tAsrReg b d) s (low d) true (shift (shifted 2 x (y.toNat % 256) s.flagC)) ∧
    Computes (.tRor b d) s (low d) true (shift (shifted 3 x (y.toNat % 256) s.flagC)) ∧
    encode (.tLslImm imm5 b d) = .thumb ((0b00000 : BitVec 5) ++ imm5 ++ b ++ d) ∧
    encode (.tLsrImm imm5 b d) = .thumb ((0b00001 : BitVec 5) ++ imm5 ++ b ++ d) ∧
    encode (.tAsrImm imm5 b d) = .thumb ((0b00010 : BitVec 5) ++ imm5 ++ b ++ d) ∧
    encode (.tMovImm d imm8) = .thumb ((0b00100 : BitVec 5) ++ d ++ imm8) ∧
    encode (.tAnd b d) = aluCode 0b0000 b d ∧ encode (.tEor b d) = aluCode 0b0001 b d ∧
    encode (.tLslReg b d) = aluCode 0b0010 b d ∧ encode (.tLsrReg b d) = aluCode 0b0011 b d ∧
    encode (.tAsrReg b d) = aluCode 0b0100 b d ∧ encode (.tRor b d) = aluCode 0b0111 b d ∧
    encode (.tTst b d) = aluCode 0b1000 b d ∧ encode (.tOrr b d) = aluCode 0b1100 b d ∧
    encode (.tMul b d) = aluCode 0b1101 b d ∧ encode (.tBic b d) = aluCode 0b1110 b d ∧
    encode (.tMvn b d) = aluCode 0b1111 b d

/-- The Thumb high-register forms and the address sums: the encoding; no flag but in CMP(3), which sets all four; a move or a sum
into R15 branches in Thumb state; the unpredictable forms are refused (`41_dsp_thumb` R698 to R700, R720 to R723). -/
def Obligations.ThumbHighRegisters : Prop :=
  ∀ (h1 h2 : Bool) (m d : BitVec 3) (imm8 : BitVec 8) (imm7 : BitVec 7) (s : State),
    let n : Reg := BitVec.ofBool h1 ++ d
    let y := s.reg (BitVec.ofBool h2 ++ m)
    let jumps (i : Instr) (v : Word) : Prop :=
      s.thumb = true → Gives i s fun t => t.pc = v &&& ~~~1 ∧ t.cpsr = s.cpsr ∧ Frame s t [] noBytes
    ((h1 || h2) = true →
      (n ≠ 15 → Writes (.tAddHigh h1 h2 m d) s n (s.reg n + y) s.cpsr ∧
        Compares (.tCmpHigh h1 h2 m d) s (minus (s.reg n) y false)) ∧
      (n = 15 → jumps (.tAddHigh h1 h2 m d) (s.reg 15 + y))) ∧
    (n ≠ 15 → Writes (.tMovHigh h1 h2 m d) s n y s.cpsr) ∧
    (n = 15 → jumps (.tMovHigh h1 h2 m d) y) ∧
    Writes (.tAddPcImm d imm8) s (low d) ((s.pcRead &&& ~~~3) + imm8.setWidth 32 * 4) s.cpsr ∧
    Writes (.tAddSpImm d imm8) s (low d) (s.reg 13 + imm8.setWidth 32 * 4) s.cpsr ∧
    Writes (.tIncSp imm7) s 13 (s.reg 13 + imm7.setWidth 32 * 4) s.cpsr ∧
    Writes (.tDecSp imm7) s 13 (s.reg 13 - imm7.setWidth 32 * 4) s.cpsr ∧
    exec (.tAddHigh false false m d) s = .refused .registerOverlap ∧
    exec (.tCmpHigh false false m d) s = .refused .registerOverlap ∧
    ((h1 || h2) = true → n = 15 → exec (.tCmpHigh h1 h2 m d) s = .refused .pcOperand) ∧
    encode (.tAddHigh h1 h2 m d) = .thumb ((0b01000100 : BitVec 8) ++ BitVec.ofBool h1 ++ BitVec.ofBool h2 ++ m ++ d) ∧
    encode (.tCmpHigh h1 h2 m d) = .thumb ((0b01000101 : BitVec 8) ++ BitVec.ofBool h1 ++ BitVec.ofBool h2 ++ m ++ d) ∧
    encode (.tMovHigh h1 h2 m d) = .thumb ((0b01000110 : BitVec 8) ++ BitVec.ofBool h1 ++ BitVec.ofBool h2 ++ m ++ d) ∧
    encode (.tAddPcImm d imm8) = .thumb ((0b10100 : BitVec 5) ++ d ++ imm8) ∧
    encode (.tAddSpImm d imm8) = .thumb ((0b10101 : BitVec 5) ++ d ++ imm8) ∧
    encode (.tIncSp imm7) = .thumb ((0b101100000 : BitVec 9) ++ imm7) ∧
    encode (.tDecSp imm7) = .thumb ((0b101100001 : BitVec 9) ++ imm7)

/-- The Thumb branches: B(1) and B(2), and the two halves of BL and BLX(1); the second half saves the return address with bit 0 set
(`41_dsp_thumb` R728 to R730). That the target of the second half of BL is made even is the model's reading (notes/assumptions
45). -/
def Obligations.ThumbBranches : Prop :=
  ∀ (cond : Cond) (simm8 : BitVec 8) (off11 : BitVec 11) (off10 : BitVec 10) (s : State), s.thumb = true →
    (condPassed cond s = true → Branches (.tBCond cond simm8) s (s.pc + 4 + simm8.signExtend 32 * 2) none true) ∧
    (condPassed cond s = false → ∃ n, exec (.tBCond cond simm8) s = .next { s with pc := s.pc + 2, note := n }) ∧
    Branches (.tB off11) s (s.pc + 4 + off11.signExtend 32 * 2) none true ∧
    Writes (.tBlPrefix off11) s 14 (s.pc + 4 + off11.signExtend 32 * 4096) s.cpsr ∧
    Branches (.tBlSuffix off11) s ((s.reg 14 + off11.setWidth 32 * 2) &&& ~~~1) (some ((s.pc + 2) ||| 1)) true ∧
    Branches (.tBlxSuffix off10) s ((s.reg 14 + off10.setWidth 32 * 4) &&& ~~~3) (some ((s.pc + 2) ||| 1)) false

/-! Coprocessor 0 -/

/-- The multiply-accumulates, with access to coprocessor 0 allowed: the signed product or products are added to the 40-bit
accumulator modulo 2^40, and nothing else changes (`42_cp0_accumulator` R750, R752 to R757). -/
def Obligations.MultiplyAccumulate : Prop :=
  ∀ (cond : Cond) (rs rm : Reg) (s : State), condPassed cond s = true → s.cp15.cpar.getLsbD 0 = true → rs ≠ 15 → rm ≠ 15 →
    let add (i : Instr) (p : Int) : Prop := Effect i s { s with acc0 := BitVec.ofInt 40 (s.acc0.toNat + p) }
    let h (x y : Bool) : Int := signedHalf (s.reg rm) x * signedHalf (s.reg rs) y
    add (.mia cond rs 0 rm) ((s.reg rm).toInt * (s.reg rs).toInt) ∧
    add (.miaph cond rs 0 rm) (h true true + h false false) ∧
    add (.miabb cond rs 0 rm) (h false false) ∧ add (.miabt cond rs 0 rm) (h false true) ∧
    add (.miatb cond rs 0 rm) (h true false) ∧ add (.miatt cond rs 0 rm) (h true true)

/-- MAR writes the accumulator from two registers; MRA reads it, its top byte sign extended; with one register for both halves it is
refused (`42_cp0_accumulator` R758, R759, `93_implementation_defined` section 2.2). -/
def Obligations.AccumulatorTransfer : Prop :=
  ∀ (cond : Cond) (hi lo : Reg) (s : State), condPassed cond s = true → s.cp15.cpar.getLsbD 0 = true → hi ≠ 15 → lo ≠ 15 →
    Effect (.mar cond hi lo 0 0) s { s with acc0 := (s.reg hi).extractLsb' 0 8 ++ s.reg lo } ∧
    (hi ≠ lo → Gives (.mra cond hi lo 0 0) s fun t =>
      t.regIn s.mode hi = (s.acc0.extractLsb' 32 8).signExtend 32 ∧ t.regIn s.mode lo = s.acc0.extractLsb' 0 32 ∧
        t.cpsr = s.cpsr ∧ t.pc = s.nextPc ∧ Frame s t [phys s hi, phys s lo] noBytes) ∧
    (hi = lo → exec (.mra cond hi lo 0 0) s = .refused .registerOverlap)

/-- With bit 0 of CPAR clear every access to coprocessor 0 takes the undefined instruction exception, in every mode; with it
set the forms that name no instruction are unpredictable, and refused: MRC, and MCR with another first opcode, CDP, MCRR and MRRC
with a nonzero opcode (it lies in the five bits of MAR and MRA that should be zero), an accumulator other than 0
(`42_cp0_accumulator` R750, R751). -/
def Obligations.AccumulatorAccess : Prop :=
  ∀ (cond : Cond) (rs rm : Reg) (acc o1 o2 : BitVec 3) (op4 hi lo crn rd crm : BitVec 4) (sb : BitVec 5) (s : State),
    condPassed cond s = true →
    (s.cp15.cpar.getLsbD 0 = false → s.debugOn = false → s.dbg.sds = false →
      ∀ i ∈ [Instr.mia cond rs acc rm, .miaph cond rs acc rm, .miabb cond rs acc rm, .miabt cond rs acc rm,
        .miatb cond rs acc rm, .miatt cond rs acc rm, .mar cond hi lo sb acc, .mra cond hi lo sb acc,
        .mcrP0Other cond o1 crn rd o2 crm, .mrcP0Other cond o1 crn rd o2 crm], Spec.Undefined i s) ∧
    (s.cp15.cpar.getLsbD 0 = true →
      (∀ i ∈ [Instr.mcrP0Other cond o1 crn rd o2 crm, .mrcP0Other cond o1 crn rd o2 crm, .cdp cond op4 crn rd 0 o2 crm,
        .mcrr cond hi lo 0 op4 crm, .mrrc cond hi lo 0 op4 crm], exec i s = .refused .coprocessorForm) ∧
      (sb ≠ 0 → ∀ i ∈ [Instr.mar cond hi lo sb acc, .mra cond hi lo sb acc], exec i s = .refused .shouldBeBits) ∧
      (acc ≠ 0 → ∀ i ∈ [Instr.mia cond rs acc rm, .miaph cond rs acc rm, .miabb cond rs acc rm, .miabt cond rs acc rm,
        .miatb cond rs acc rm, .miatt cond rs acc rm, .mar cond hi lo 0 acc, .mra cond hi lo 0 acc],
        exec i s = .refused .accumulator))

/-! CP15, CP14, CP7 registers -/

/-- MRC of every register of CP15, in a privileged mode: the bits the spec defines, and nothing else changes; the way size of the L2
Cache Type register stands twice (`43_cp15_functions` R770, `10_state` R71 to R103). -/
def Obligations.ControlCoprocessorReads : Prop :=
  ∀ (cond : Cond) (rd : Reg) (s : State), condPassed cond s = true → s.privileged = true → rd ≠ 15 →
    (∀ e ∈ cp15Readable, Reads e cond rd s) ∧
    Reads { instr := .mrcL2CacheType, defined := if s.cfg.l2Size = .absent then 0xFF0FF0FF else 0xFFFFFFFF
            value := fun s => match s.cfg.l2Size with
              | .absent => 0x0A000000 | .kb256 => 0x0A240240 | .kb512 => 0x0A340340 } cond rd s ∧
    Gives (.mrcL2CacheType cond rd) s fun t =>
      (t.regIn s.mode rd).extractLsb' 8 4 = (t.regIn s.mode rd).extractLsb' 20 4

/-- MCR to the registers of CP15, the debug registers apart, in a privileged mode: the bits that are implemented are written; a 1 in a
reserved bit, and a value of Control, Auxiliary Control or TTBASE that is not defined, are refused (`43_cp15_functions` R770,
`10_state` R71 to R103, `93_implementation_defined` section 2.1). Which bits count as reserved is the reading of
notes/assumptions 15. The model's choices: that the reserved code 0b01 of TTBASE.OC is refused (notes/assumptions 59), and that
the order in which the L2 bit of Control is set binds with no L2 as well (notes/assumptions 41), and that a write that changes
the M bit of Control, or the LLR attributes of Auxiliary Control, empties the memory buffers first (notes/assumptions 63). That
after a write of Control, Auxiliary Control, TTBASE, DACR or PID instructions may still be executed as they were fetched before it (`keepView`), and that these are the writes which count, is the model's reading of
`70_reset_and_hazards` R1131 a (DEDUCED, notes/assumptions 29). -/
def Obligations.ControlCoprocessorWrites : Prop :=
  ∀ (cond : Cond) (rd : Reg) (s : State), condPassed cond s = true → s.privileged = true → rd ≠ 15 →
    let v := s.regIn s.mode rd
    (∀ e ∈ cp15Writable ++ controlWritable, e.takes s v = true → Accepts e cond rd s) ∧
    (∀ e ∈ cp15Writable ++ controlWritable, v &&& e.reserved ≠ 0 → exec (e.instr cond rd) s = .refused .reservedBits) ∧
    (∀ e ∈ controlWritable, v &&& e.reserved = 0 → e.ok s v = false → exec (e.instr cond rd) s = .refused .controlValue)

/-- MRC of every readable register of CP14 and CP7, in a privileged mode: the defined bits into a register, or those of its top
four bits into the flags where the destination is R15 (`44_cp14_cp7` R850, R851, R860, R861, `10_state` R45). -/
def Obligations.DebugCoprocessorReads : Prop :=
  ∀ (cond : Cond) (rd : Reg) (s : State), condPassed cond s = true → s.privileged = true →
    ∀ e ∈ cp14Readable, e.ok s = true →
      (rd ≠ 15 → Reads e cond rd s) ∧
      Gives (e.instr cond 15) s fun t =>
        t.cpsr.extractLsb' 0 28 = s.cpsr.extractLsb' 0 28 ∧
        t.cpsr.extractLsb' 28 4 &&& e.defined.extractLsb' 28 4 = (e.value s).extractLsb' 28 4 &&& e.defined.extractLsb' 28 4 ∧
        t.pc = s.nextPc ∧ Frame (e.after s) t [] noBytes

/-- MCR to the registers of CP14 and CP7 but PMNC and EVTSEL, and to the breakpoint registers of CP15, in a privileged mode: the bits
that are implemented are written; a 1 in a reserved bit is refused; the debug registers ignore every write in Halt Mode outside
Special Debug State (`44_cp14_cp7` R850, R851, R861, `10_state` R100 to R142, `93_implementation_defined` section 2.1). Which
bits count as reserved is the reading of notes/assumptions 15; that PWRMODE takes exactly the values the platform names is that
of notes/assumptions 35; that clearing ERRLOG.SBE clears the request of the L2 is that of notes/assumptions 32 (`10_state` R140
does not say what clears it). Enabling the trace buffer starts its counts again (`61_debug_pmu_power`
R1060), and after a write of an instruction breakpoint register instructions may be fetched as before it (`keepView`:
`70_reset_and_hazards` R1131, notes/assumptions 29). R15 as the source is unpredictable for CP15 and CP14; that MCR of R15 to
CP7, where no rule shuts it out, runs and writes the pc plus eight (`10_state` R36) is the model's choice (DEDUCED,
notes/assumptions 10), and so is that the reserved code 0b111 of DCSR.MOE is stored (DESIGN CHOICE, notes/assumptions 64). -/
def Obligations.DebugCoprocessorWrites : Prop :=
  ∀ (cond : Cond) (rd : Reg) (s : State), condPassed cond s = true → s.privileged = true →
    (rd ≠ 15 →
      let v := s.regIn s.mode rd
      (∀ e ∈ cp14Writable ++ cp7Writable ++ debugWritable, e.takes s v = true → Accepts e cond rd s) ∧
      (∀ e ∈ cp14Writable ++ cp7Writable, v &&& e.reserved ≠ 0 → exec (e.instr cond rd) s = .refused .reservedBits) ∧
      (debugLocked s = false →
        (v &&& 0xFFFFFEF0 ≠ 0 → exec (.mcrDbcon cond rd) s = .refused .reservedBits) ∧
        (v &&& 0x1F20FF80 ≠ 0 → exec (.mcrDcsr cond rd) s = .refused .reservedBits))) ∧
    (∀ e ∈ cp14Writable ++ debugWritable, exec (e.instr cond 15) s = .refused .pcOperand) ∧
    (s.thumb = false → ∀ e ∈ cp7Writable,
      (e.takes s (s.pc + 8) = true → Effect (e.instr cond 15) s (e.write s (s.pc + 8))) ∧
      ((s.pc + 8) &&& e.reserved ≠ 0 → exec (e.instr cond 15) s = .refused .reservedBits))

/-- MCR to PMNC and EVTSEL: the enable, divider and mode bits; counters are reset on request; resetting the performance counters
while disabling them, and changing the events while they count, leave them open; a 1 in bits 23 to 5 of PMNC is refused
(`61_debug_pmu_power` R1001 to R1003, `10_state` R111, R115, `93_implementation_defined` section 2.1). That bits 31 to 24 are
ignored is the reading of notes/assumptions 15; that the machine goes on in the two unpredictable uses, with open counters, is
that of notes/assumptions 26. -/
def Obligations.CounterControl : Prop :=
  ∀ (cond : Cond) (rd : Reg) (s : State), condPassed cond s = true → s.privileged = true → rd ≠ 15 →
    let v := s.regIn s.mode rd
    let counting := s.pmu.e && !s.pmu.m
    (v &&& 0x00FFFFE0 ≠ 0 → exec (.mcrPmnc cond rd) s = .refused .reservedBits) ∧
    (v &&& 0x00FFFFE0 = 0 → Gives (.mcrPmnc cond rd) s fun t =>
      t.pmu.e = v.getLsbD 0 ∧ t.pmu.d = v.getLsbD 3 ∧ t.pmu.m = v.getLsbD 4 ∧
      t.pmu.ccnt = (if v.getLsbD 2 then 0 else s.pmu.ccnt) ∧
      (v.getLsbD 1 = false → t.pmu.pmn = s.pmu.pmn) ∧
      (v.getLsbD 1 = true → (counting = false ∨ (v.getLsbD 0 = true ∧ v.getLsbD 4 = false)) → ∀ k, t.pmu.pmn.get k = 0) ∧
      t.pmu.inten = s.pmu.inten ∧ t.pmu.flag = s.pmu.flag ∧ t.pmu.evtsel = s.pmu.evtsel ∧
      t.cpsr = s.cpsr ∧ t.pc = s.nextPc ∧ Frame { s with pmu := t.pmu } t [] noBytes) ∧
    (Gives (.mcrEvtsel cond rd) s fun t =>
      t.pmu = { s.pmu with evtsel := v, pmn := t.pmu.pmn } ∧ (counting = false → t.pmu.pmn = s.pmu.pmn) ∧
      t.cpsr = s.cpsr ∧ t.pc = s.nextPc ∧ Frame { s with pmu := t.pmu } t [] noBytes)

/-- LDC and STC of CP14, in a privileged mode with plain memory: the word loaded is written as the MCR of the register writes it, the
register is stored as its MRC reads it, its defined bits at least; the base is written back, and nothing else changes; a word
with a reserved bit set is refused, for DCSR where the debug registers do not ignore writes (`44_cp14_cp7` R853 to R855,
`10_state` R132, `93_implementation_defined` section 2.1). Which bits count as
reserved is the reading of notes/assumptions 15; that PWRMODE takes exactly the values the platform names is that of
notes/assumptions 35; that the reserved code 0b111 of DCSR.MOE is stored is the model's choice (DESIGN CHOICE,
notes/assumptions 64). -/
def Obligations.CoprocessorTransfer : Prop :=
  ∀ (cond : Cond) (p u w : Bool) (rn crd : Reg) (off : BitVec 8) (s : State), PlainMemory s →
    condPassed cond s = true → s.privileged = true → (p || u || w) = true → (w = false ∨ rn ≠ 15) →
    let x := if u then s.reg rn + off.setWidth 32 * 4 else s.reg rn - off.setWidth 32 * 4
    let va := if p then x else s.reg rn
    alignedFor s va 4 = true →
    let v := memWord s.mem (wordAt s va)
    (∀ e, ldcTarget crd = some e → v &&& e.reserved ≠ 0 →
      exec (.ldcP14 cond p u false w rn crd off) s = .refused .reservedBits) ∧
    (crd = 10 → debugLocked s = false → v &&& 0x1F20FF80 ≠ 0 →
      exec (.ldcP14 cond p u false w rn crd off) s = .refused .reservedBits) ∧
    (∀ e, ldcTarget crd = some e → e.takes s v = true →
      ∃ n, exec (.ldcP14 cond p u false w rn crd off) s =
        .next { (if w then (e.write s v).setReg rn x else e.write s v) with pc := s.nextPc, note := n }) ∧
    (∀ e, stcSource s crd = some e → e.ok s = true →
      Gives (.stcP14 cond p u false w rn crd off) s fun t =>
        memWord t.mem (wordAt s va) &&& e.defined = e.value s &&& e.defined ∧ (w = true → t.regIn s.mode rn = x) ∧
        t.cpsr = s.cpsr ∧ t.pc = s.nextPc ∧
        Frame (e.after s) t (if w then [phys s rn] else []) (bytes (wordAt s va) 4))

/-- In User mode, with the debug functionality disabled, every access to CP15, CP14 and CP7 takes the undefined instruction
exception, but for the four functions of CP15 that need no privilege; in a privileged mode an access that names no register is
unpredictable, and refused, and so are an LDC and an STC of CP14 with the bit N or with a register that they do not move (`43_cp15_functions` R770, `44_cp14_cp7` R850, R854, R855, R860, `10_state` R104). -/
def Obligations.CoprocessorPrivilege : Prop :=
  ∀ (cond : Cond) (rd : Reg) (p u n w : Bool) (rn crd : Reg) (off : BitVec 8) (o1 o2 : BitVec 3) (crn crm : Reg) (s : State),
    condPassed cond s = true →
    let unlisted : List Instr :=
      [.mcrP15Other cond o1 crn rd o2 crm, .mrcP15Other cond o1 crn rd o2 crm, .mcrP14Other cond o1 crn rd o2 crm,
        .mrcP14Other cond o1 crn rd o2 crm, .mcrP7Other cond o1 crn rd o2, .mrcP7Other cond o1 crn rd o2]
    (s.mode = modeUser → s.debugOn = false → s.dbg.sds = false →
      (∀ f ∈ privilegedForms, Spec.Undefined (f cond rd) s) ∧ (∀ i ∈ unlisted, Spec.Undefined i s) ∧
      Spec.Undefined (.ldcP14 cond p u n w rn crd off) s ∧ Spec.Undefined (.stcP14 cond p u n w rn crd off) s) ∧
    (s.privileged = true →
      (∀ i ∈ unlisted, exec i s = .refused .coprocessorRegister) ∧
      (n = true → ∀ i ∈ [Instr.ldcP14 cond p u n w rn crd off, .stcP14 cond p u n w rn crd off],
        exec i s = .refused .coprocessorForm) ∧
      (n = false → ldcTarget crd = none → exec (.ldcP14 cond p u n w rn crd off) s = .refused .coprocessorRegister) ∧
      (n = false → stcSource s crd = none → exec (.stcP14 cond p u n w rn crd off) s = .refused .coprocessorRegister))

/-! The functions of CP15 -/

/-- The instruction cache and branch target buffer functions, in a privileged mode: lines that are locked survive the global
invalidation, the line of an address becomes invalid even when it is locked, and instructions that are already fetched may have
been fetched before (`keepView`: notes/assumptions 29); a store that waits in a memory buffer stays there, and is to leave before
a fetch of its block does (`markForFetch`, `20_memory` R257: notes/assumptions 18); a line is fetched and locked, in a cache as
reset leaves it, with the MMU off and nothing waiting; a lock whose table walk aborts, or whose fetch the bus answers with an
error, takes a lock abort; the unlocks clear every lock of a cache that is on (`43_cp15_functions` R775 to R777, R780, R810,
R812, R816, R817, `22_caches` R364, R369, `60_exceptions` R903, `70_reset_and_hazards` R1131). The model's choices: that a lock
abort leaves also the instruction TLB and the L2 as they were (notes/assumptions 54), that the replacement order starts again (notes/assumptions 23), and that the
invalidation of both caches and the BTB (R780) executes with the MMU disabled as well (notes/assumptions 56). -/
def Obligations.InstructionCacheFunctions : Prop :=
  ∀ (cond : Cond) (rd : Reg) (s : State), condPassed cond s = true → s.privileged = true → rd ≠ 15 →
    let v := s.regIn s.mode rd
    let kept : ICache := { lines := tableKeep ILine.locked s.icache.lines, repl := [], buffers := [] }
    Effect (.mcrInvICacheBtb cond rd) s { s.keepView.markForFetch with icache := kept, btb := [] } ∧
    Effect (.mcrInvBtb cond rd) s { s with btb := [] } ∧
    Effect (.mcrInvCachesBtb cond rd) s
      { s.keepView.markForFetch with
        icache := kept, btb := [], dcache := { lines := tableKeep DLine.locked s.dcache.lines, repl := [] } } ∧
    (Gives (.mcrInvICacheLine cond rd) s fun t => Quiet s t ∧ t.mem = s.mem ∧ t.icache.buffers = [] ∧
      t.stale = s.stale ++ [s.fetchView] ∧
      (∀ k w l, s.iFind v = some (k, w, l) → t.icache.lines = tableErase k s.icache.lines) ∧
      (s.iFind v = none → t.icache.lines = s.icache.lines)) ∧
    (s.ctrlBit 12 = true →
      (∀ i ∈ [Instr.mcrUnlockICache cond rd, .mcrUnlockICacheLegacy cond rd],
        Effect i s { s with icache := { s.icache with
          lines := tableMap (fun l => { l with locked := false }) s.icache.lines } }) ∧
      (s.mmuOn = false → s.cfg.busErrors = [] → s.icache.lines = [] → s.icache.repl = [] → s.buffers = [] → s.l2Out = [] →
        ∀ i ∈ [Instr.mcrLockILine cond rd, .mcrLockILineLegacy cond rd],
          Gives i s fun t => Quiet s t ∧ t.mem = s.mem ∧ ∃ k w l, t.iFind v = some (k, w, l) ∧ l.locked = true ∧
            l.bad = 0 ∧ l.data = memLine s.mem (v.extractLsb' 5 27 |>.setWidth 31)) ∧
      (s.iFind v = none → ∀ i ∈ [Instr.mcrLockILine cond rd, .mcrLockILineLegacy cond rd],
        (s.mmuOn = true → s.itlb.lookup v = none → ∀ fs d f s1, tableWalk v s = .error (.abort fs d f) s1 →
          LockAborts i s s1) ∧
        (let line : BitVec 31 := (v.extractLsb' 5 27).setWidth 31
         s.mmuOn = false → s.buffers = [] → s.busError line ≠ 0 →
          LockAborts i s (s.logBusError (s.busError line) (lineBase line))))) ∧
    (s.ctrlBit 2 = true →
      ∀ i ∈ [Instr.mcrUnlockDCache cond rd, .mcrUnlockDCacheLegacy cond rd],
        Effect i s { s with dcache := { s.dcache with
          lines := tableMap (fun l => { l with locked := false }) s.dcache.lines } })

/-- The data cache functions, in a privileged mode with the MMU on and the memory buffers empty: invalidating loses dirty data,
cleaning hands it to the buffers, but for a line with a parity error, whose updates are lost with an imprecise abort; a locked
line is left alone by set and way and by the global invalidation (`43_cp15_functions` R772, R778, R779, R781 to R784,
`22_caches` R388). The model's choices: that the replacement order starts again (notes/assumptions 23), and that a clean of a
dirty line with a parity error leaves it valid, with its data and its bad bytes, and no longer dirty, where R388 says only that
the updates are lost (notes/assumptions 55). -/
def Obligations.DataCacheFunctions : Prop :=
  ∀ (cond : Cond) (rd : Reg) (s : State), condPassed cond s = true → s.privileged = true → rd ≠ 15 → s.mmuOn = true →
    s.buffers = [] →
    let v := s.regIn s.mode rd
    let clean (k : Nat) (l : DLine) : State :=
      let c : State := { s with dcache := { s.dcache with lines := tableSet k { l with dirty := false } s.dcache.lines } }
      if l.dirty = false then s
      else if l.bad = 0 then
        { c with buffers := [{ line := l.pa, mask := 0xFFFFFFFF, unk := l.unk, data := l.data, coal := false
                               unc := false, l2 := l.l2, shared := l.shared }] }
      else { c with pendingAbort := if s.pendingAbort = some .external then some .external else some .parity }
    let drop (k : Nat) (u : State) : State := { u with dcache := { u.dcache with lines := tableErase k u.dcache.lines } }
    Effect (.mcrInvDCache cond rd) s
      { s with dcache := { lines := tableKeep DLine.locked s.dcache.lines, repl := [] } } ∧
    (s.dFind v = none →
      Effect (.mcrInvDCacheLine cond rd) s s ∧ Effect (.mcrCleanDLineMva cond rd) s s ∧
        Effect (.mcrCleanInvDLineMva cond rd) s s) ∧
    (∀ k w l, s.dFind v = some (k, w, l) →
      Effect (.mcrInvDCacheLine cond rd) s (drop k s) ∧ Effect (.mcrCleanDLineMva cond rd) s (clean k l) ∧
        Effect (.mcrCleanInvDLineMva cond rd) s (drop k (clean k l))) ∧
    (v &&& 0x3FFFE01F = 0 →
      let k := (v.extractLsb' 5 8).toNat * 4 + (v.extractLsb' 30 2).toNat
      ((tableGet k s.dcache.lines = none ∨ ∃ l, tableGet k s.dcache.lines = some l ∧ l.locked = true) →
        Effect (.mcrCleanDLineSetWay cond rd) s s ∧ Effect (.mcrCleanInvDLineSetWay cond rd) s s) ∧
      (∀ l, tableGet k s.dcache.lines = some l → l.locked = false →
        Effect (.mcrCleanDLineSetWay cond rd) s (clean k l) ∧
          Effect (.mcrCleanInvDLineSetWay cond rd) s (drop k (clean k l))))

/-- The four functions User mode may use: Prefetch Flush empties the fetch buffers and discards what was fetched earlier, the two
barriers empty the memory buffers and let the write-backs of the L2 set/way functions reach memory: with a bus that answers,
memory is then what the waiting write-backs and the waiting stores, those that do not go through the L2, write into it, each in
order. Line Allocate brings the line of a cacheable address into the data cache, where it misses with every byte
unpredictable; it has no effect with the MMU disabled (R792's own sentence, which the spec marks as derived), on memory that is not cacheable, and on a hit of the enabled
cache; locking shared or LLR memory is refused; a translation that aborts gives the data abort, with the data cache as it was
(`43_cp15_functions` R789 to R792, `20_memory` R250 to R252, R255, `22_caches` R396, R397, `60_exceptions` R900). With the data cache disabled it has no effect where the line is absent. Where the line is resident R792 gives it no
effect on the cache, and `22_caches` R383 makes the data unpredictable: the model's choice is that the line stays as it was, or
that only its bytes become unpredictable (notes/assumptions 53). That the write-backs of the L2 set/way functions stand in a list
until a barrier, and go to memory before the waiting stores, is the model's reading (DEDUCED, notes/assumptions 52); that DMB
empties the buffers at once, as DWB does, is the model's choice (DESIGN CHOICE, notes/assumptions 62). -/
def Obligations.UserFunctions : Prop :=
  ∀ (cond : Cond) (rd : Reg) (s : State), condPassed cond s = true → rd ≠ 15 →
    Effect (.mcrPrefetchFlush cond rd) s { s with icache := { s.icache with buffers := [] }, stale := [] } ∧
    (∀ i ∈ [Instr.mcrDataWriteBarrier cond rd, .mcrDataMemoryBarrier cond rd],
      Effect i s s.drainBuffers ∧
      Gives i s fun t => Quiet s t ∧ t.buffers = [] ∧ t.l2Out = [] ∧
        (s.buffers = [] → s.l2Out = [] → { t with pc := s.pc } = s) ∧
        (s.cfg.busErrors = [] → (∀ e ∈ s.l2Out, e.unk = 0) → (∀ e ∈ s.buffers, e.unk = 0 ∧ e.l2 = false) →
          t.mem = s.buffers.foldl (fun m e => memWriteLine m e.line e.mask e.data)
            (s.l2Out.foldl (fun m e => memWriteLine m e.line 0xFFFFFFFF e.data) s.mem))) ∧
    (∀ fs d f s1, translate (s.pidRemap (s.regIn s.mode rd)) .write s.privileged s = .error (.abort fs d f) s1 →
      exec (.mcrDLineAllocate cond rd) s = .next (s1.dataAbort fs d f false) ∧
        (s1.dataAbort fs d f false).dcache = s.dcache) ∧
    (s.debugOn = false →
      let mva := s.pidRemap (s.regIn s.mode rd) &&& ~~~31
      (s.mmuOn = false → Effect (.mcrDLineAllocate cond rd) s s) ∧
      (∀ m s1, translate (s.pidRemap (s.regIn s.mode rd)) .write s.privileged s = .ok m s1 →
        ((s1.dFind mva = none ∧ (m.attrs.dc = false ∨ s1.ctrlBit 2 = false)) ∨ (s1.dFind mva ≠ none ∧ s1.ctrlBit 2 = true) →
          Effect (.mcrDLineAllocate cond rd) s s1) ∧
        (s.mmuOn = true → s1.ctrlBit 2 = false → ∀ k w l, s1.dFind mva = some (k, w, l) →
          Gives (.mcrDLineAllocate cond rd) s fun t => Quiet s t ∧ t.mem = s1.mem ∧
            (t.dcache = s1.dcache ∨
              t.dcache = { s1.dcache with lines := tableSet k { l with unk := 0xFFFFFFFF } s1.dcache.lines })) ∧
        (m.attrs.dc = true → s1.ctrlBit 2 = true → s1.dFind mva = none →
          (s1.lockable m = false → exec (.mcrDLineAllocate cond rd) s = .refused .maintenance) ∧
          (s1.lockable m = true →
            Gives (.mcrDLineAllocate cond rd) s fun t => Quiet s t ∧
              ∃ k w l, t.dFind mva = some (k, w, l) ∧ l.unk = 0xFFFFFFFF ∧ l.dirty = false))))

/-- The TLB functions, in a privileged mode. Invalidation: the global ones keep the locked entries, the single ones drop the entries
that map the address where none of them is locked; instructions that are already fetched may have been fetched before that of
the instruction TLB (`keepView`). With the MMU on, locking puts the entry a table walk gives at the place the lock pointer
names, locked while the pointer is below 31; a walk that aborts gives a lock abort; unlocking clears every lock and the pointer
(`43_cp15_functions` R800 to R804, R820 to R823, `21_mmu` R333 to R335, `60_exceptions` R903, `70_reset_and_hazards` R1131). The
model's choices: that a lock abort leaves also what lies outside that TLB as it was (notes/assumptions 54); that a single-entry invalidation drops every
entry that matches, where R335 speaks of one (notes/assumptions 24); what the instructions fetched already are fetched under
(`keepView`, DEDUCED, notes/assumptions 29); that unlocking leaves the round-robin pointer (notes/assumptions 51). -/
def Obligations.TlbFunctions : Prop :=
  ∀ (cond : Cond) (rd : Reg) (s : State), condPassed cond s = true → s.privileged = true → rd ≠ 15 →
    let v := s.regIn s.mode rd
    let other (e : TlbEntry) : Bool := !e.hits v
    (∃ t t', keepsEntries s.itlb t TlbEntry.locked ∧ keepsEntries s.dtlb t' TlbEntry.locked ∧
      Effect (.mcrInvTlbs cond rd) s { s.keepView with itlb := t, dtlb := t' } ∧
      Effect (.mcrInvITlb cond rd) s { s.keepView with itlb := t } ∧ Effect (.mcrInvDTlb cond rd) s { s with dtlb := t' }) ∧
    ((∀ k e, s.itlb.entries.get k = some e → e.hits v = true → e.locked = false) →
      ∃ t, keepsEntries s.itlb t other ∧ Effect (.mcrInvITlbEntry cond rd) s { s.keepView with itlb := t }) ∧
    ((∀ k e, s.dtlb.entries.get k = some e → e.hits v = true → e.locked = false) →
      ∃ t, keepsEntries s.dtlb t other ∧ Effect (.mcrInvDTlbEntry cond rd) s { s with dtlb := t }) ∧
    (s.mmuOn = true →
      let unlocked (t t' : Tlb) : Prop := t'.lockp = 0 ∧ t'.rr = t.rr ∧
        ∀ k, t'.entries.get k = (t.entries.get k).map fun e => { e with locked := false }
      let placed (t t' : Tlb) (e : TlbEntry) : Prop :=
        t'.rr = 31 ∧ t'.lockp = (if t.lockp = 31 then 31 else t.lockp + 1) ∧
        ∀ k, t'.entries.get k =
          if k = t.lockp.toFin then some { e with locked := t.lockp != 31 } else t.entries.get k
      (∃ t, unlocked s.itlb t ∧ Effect (.mcrUnlockITlb cond rd) s { s with itlb := t }) ∧
      (∃ t, unlocked s.dtlb t ∧ Effect (.mcrUnlockDTlb cond rd) s { s with dtlb := t }) ∧
      (∀ e s1, s.itlb.lookup v = none → tableWalk v s = .ok e s1 →
        ∃ t, placed s1.itlb t e ∧ Effect (.mcrLockITlbEntry cond rd) s { s1 with itlb := t }) ∧
      (∀ e s1, s.dtlb.lookup v = none → tableWalk v s = .ok e s1 →
        ∃ t, placed s1.dtlb t e ∧ Effect (.mcrLockDTlbEntry cond rd) s { s1 with dtlb := t }) ∧
      (∀ fs d f s1, tableWalk v s = .error (.abort fs d f) s1 →
        (s.itlb.lookup v = none → LockAborts (.mcrLockITlbEntry cond rd) s s1) ∧
        (s.dtlb.lookup v = none → LockAborts (.mcrLockDTlbEntry cond rd) s s1)))

/-- The functions of the L2 cache, in a privileged mode. With no L2 they do nothing. With one that is enabled, on memory that is
cacheable there: the line of an address is invalidated, cleaned into memory, or locked, and one that is not held is fetched or
allocated locked, its data unpredictable; the eighth lock of a set is refused. By set and way a locked line is left alone; of
another one, held without an error, the dirty data goes on its way to memory, and reaches it by the next barrier. A translation
that aborts is taken as a data abort, and leaves the L2, the buffers and memory as they were. Memory that is
not L2 cacheable is refused (`43_cp15_functions` R772, R785 to R788, R811, R813, R814, `22_caches` R409, R413, R414, `20_memory`
R255). The model's choices: that nothing happens where there is no L2 (notes/assumptions 49); that a clean and an invalidation
leave the Used bits, and that a lock, an invalidation and the clean of a line that is not dirty do not look at its errors
(notes/assumptions 22); that with the MMU disabled, where no memory is L2 cacheable, the functions on an address are refused
(notes/assumptions 67); that a clean by address is complete when it ends (notes/assumptions 57); that an aborted translation
leaves also what lies outside the L2 as it was (notes/assumptions 54); that the data of a clean by set and way stands in the
list `l2Out` until it reaches memory (DEDUCED, notes/assumptions 52). -/
def Obligations.LevelTwoFunctions : Prop :=
  ∀ (cond : Cond) (rd : Reg) (s : State), condPassed cond s = true → s.privileged = true → rd ≠ 15 →
    let v := s.regIn s.mode rd
    (s.cfg.l2Size = .absent →
      ∀ i ∈ [Instr.mcrInvL2Line cond rd, .mcrCleanL2LineMva cond rd, .mcrCleanL2LineSetWay cond rd,
        .mcrCleanInvL2LineSetWay cond rd, .mcrLockL2Line cond rd, .mcrUnlockL2 cond rd, .mcrAllocLockL2Line cond rd],
        Effect i s s) ∧
    (s.cfg.l2Size ≠ .absent → s.ctrlBit 26 = true →
      Effect (.mcrUnlockL2 cond rd) s
        { s with l2 := { s.l2 with lines := tableMap (fun l => { l with locked := false }) s.l2.lines } } ∧
      (∀ fs d f s1, l2Translate v s = .error (.abort fs d f) s1 →
        (∀ i ∈ [Instr.mcrInvL2Line cond rd, .mcrCleanL2LineMva cond rd, .mcrLockL2Line cond rd, .mcrAllocLockL2Line cond rd],
          exec i s = .next (s1.dataAbort fs d f false)) ∧
        s1.l2 = s.l2 ∧ s1.l2Out = s.l2Out ∧ s1.buffers = s.buffers ∧ s1.dcache = s.dcache ∧ s1.mem = s.mem) ∧
      (∀ m s1, l2Translate v s = .ok m s1 →
        (m.attrs.l2 = false →
          ∀ i ∈ [Instr.mcrInvL2Line cond rd, .mcrCleanL2LineMva cond rd, .mcrLockL2Line cond rd, .mcrAllocLockL2Line cond rd],
            exec i s = .refused .maintenance) ∧
        (m.attrs.l2 = true → s1.buffers = [] → s1.l2Out = [] →
          let line := blockOf m.pa
          (s1.l2Find line = none →
            Effect (.mcrInvL2Line cond rd) s s1 ∧ Effect (.mcrCleanL2LineMva cond rd) s s1 ∧
            (s1.l2Full line = false → s.cfg.busErrors = [] →
              (Gives (.mcrLockL2Line cond rd) s fun t => Quiet s t ∧ ∃ k l, t.l2Find line = some (k, l) ∧ l.locked = true ∧
                l.unk = 0) ∧
              (Gives (.mcrAllocLockL2Line cond rd) s fun t => Quiet s t ∧ ∃ k l, t.l2Find line = some (k, l) ∧
                l.locked = true ∧ l.unk = 0xFFFFFFFF))) ∧
          (s1.l2Full line = true →
            ∀ i ∈ [Instr.mcrLockL2Line cond rd, .mcrAllocLockL2Line cond rd], exec i s = .refused .maintenance) ∧
          (∀ k l, s1.l2Find line = some (k, l) →
            Effect (.mcrInvL2Line cond rd) s { s1 with l2 := { s1.l2 with lines := tableErase k s1.l2.lines } } ∧
            (l.dirty = false → Effect (.mcrCleanL2LineMva cond rd) s s1) ∧
            (l.dirty = true → l.err = L2Error.none → l.unk = 0 → s.cfg.busErrors = [] →
              Gives (.mcrCleanL2LineMva cond rd) s fun t => Quiet s t ∧ t.mem = memWriteLine s1.mem l.pa 0xFFFFFFFF l.data ∧
                ∃ l', tableGet k t.l2.lines = some l' ∧ l'.dirty = false ∧ l'.data = l.data) ∧
            (s1.l2Full line = false →
              ∀ i ∈ [Instr.mcrLockL2Line cond rd, .mcrAllocLockL2Line cond rd],
                Gives i s fun t => Quiet s t ∧ t.mem = s1.mem ∧
                  t.l2.lines = tableSet k { l with locked := true } s1.l2.lines)))) ∧
      (∀ k, s.l2SetWay v = some k →
        ((tableGet k s.l2.lines = none ∨ ∃ l, tableGet k s.l2.lines = some l ∧ l.locked = true) →
          Effect (.mcrCleanL2LineSetWay cond rd) s s ∧ Effect (.mcrCleanInvL2LineSetWay cond rd) s s) ∧
        (∀ l, tableGet k s.l2.lines = some l → l.locked = false → (l.dirty = true → l.err = L2Error.none) →
          let out : List OutEntry := if l.dirty then s.l2Out ++ [{ line := l.pa, unk := l.unk, data := l.data }] else s.l2Out
          (Gives (.mcrCleanL2LineSetWay cond rd) s fun t => Quiet s t ∧ t.l2Out = out ∧ t.mem = s.mem ∧
            ∃ l', tableGet k t.l2.lines = some l' ∧ l'.dirty = false ∧ l'.data = l.data ∧ l'.unk = l.unk) ∧
          (Gives (.mcrCleanInvL2LineSetWay cond rd) s fun t => Quiet s t ∧ t.l2Out = out ∧ t.mem = s.mem ∧
            tableGet k t.l2.lines = none)))) ∧
    (s.buffers = [] → s.cfg.busErrors = [] → ∀ e : OutEntry, s.l2Out = [e] → e.unk = 0 →
      Gives (.mcrDataWriteBarrier cond rd) s fun t => Quiet s t ∧ t.l2Out = [] ∧
        t.mem = memWriteLine s.mem e.line 0xFFFFFFFF e.data)

/-! Stops -/

/-- The forms that the spec calls unpredictable are refused by name: R15 where it may not stand, registers that may not be the
same (those of MRA among them), an empty register list, ARM and Thumb, a base that may not be written back, an SPSR in a mode
that has none, a misaligned halfword or doubleword while the alignment check is off, BKPT with a condition, an instruction that names no high register
(`40_arm_base` R503, R530, R551, `45_arm_loadstore` R581, R597, R605, R610, R615, `41_dsp_thumb` R698, R702, R724,
`42_cp0_accumulator` R752 to R759, `43_cp15_functions` R770, `60_exceptions` R892, `20_memory` R222, `93_implementation_defined`
sections 2.2 and 2.4). -/
def Obligations.UnpredictableForms : Prop :=
  ∀ (cond : Cond) (f p u w i x y : Bool) (rd rn rs rm hi : Reg) (k : BitVec 2) (n : BitVec 5) (off : BitVec 12)
    (list : BitVec 16) (regs : BitVec 15) (a b : BitVec 3) (s : State), condPassed cond s = true →
    (rd = 15 ∨ rs = 15 ∨ rm = 15 →
      (∀ op : DpOp, exec (op.instr cond f rn rd (.shReg rs k rm)) s = .refused .pcOperand) ∧
      (∀ op : DpTest, exec (op.instr cond rd (.shReg rs k rm)) s = .refused .pcOperand) ∧
      ∀ j ∈ [Instr.mul cond f rd 0 rs rm, .mla cond f rd rn rs rm, .umull cond f rd rn rs rm, .umlal cond f rd rn rs rm,
        .smull cond f rd rn rs rm, .smlal cond f rd rn rs rm, .smulXY cond rd 0 rs y x rm, .smlaXY cond rd rn rs y x rm,
        .smulwY cond rd 0 rs y rm, .smlawY cond rd rn rs y rm, .smlalXY cond rd rn rs y x rm, .qadd cond rs rd 0 rm,
        .qsub cond rs rd 0 rm, .qdadd cond rs rd 0 rm, .qdsub cond rs rd 0 rm, .swp cond rs rd 0 rm, .swpb cond rs rd 0 rm],
        exec j s = .refused .pcOperand) ∧
    ((∀ op : DpOp, op ≠ .mov → op ≠ .mvn → exec (op.instr cond f 15 rd (.shReg rs k rm)) s = .refused .pcOperand) ∧
      (∀ op : DpTest, exec (op.instr cond 15 (.shReg rs k rm)) s = .refused .pcOperand) ∧
      ∀ j ∈ [Instr.mla cond f rd 15 rs rm, .smlaXY cond rd 15 rs y x rm, .smlawY cond rd 15 rs y rm,
        .umull cond f rd 15 rs rm, .umlal cond f rd 15 rs rm, .smull cond f rd 15 rs rm, .smlal cond f rd 15 rs rm,
        .smlalXY cond rd 15 rs y x rm], exec j s = .refused .pcOperand) ∧
    (s.privileged = true → ∀ e ∈ cp15Writable ++ controlWritable, exec (e.instr cond 15) s = .refused .pcOperand) ∧
    (s.privileged = true → ∀ e ∈ cp15Readable, exec (e.instr cond 15) s = .refused .pcOperand) ∧
    (s.cp15.cpar.getLsbD 0 = true → rs = 15 ∨ rm = 15 → ∀ j ∈ [Instr.mia cond rs 0 rm, .miaph cond rs 0 rm,
      .miabb cond rs 0 rm, .miabt cond rs 0 rm, .miatb cond rs 0 rm, .miatt cond rs 0 rm, .mar cond rs rm 0 0,
      .mra cond rs rm 0 0], exec j s = .refused .pcOperand) ∧
    (rd ≠ 15 → rs ≠ 15 → rm ≠ 15 →
      (∀ j ∈ [Instr.umull cond f rd rd rs rm, .umlal cond f rd rd rs rm, .smull cond f rd rd rs rm,
        .smlal cond f rd rd rs rm, .smlalXY cond rd rd rs y x rm, .swp cond rd rd 0 rm, .swpb cond rd rd 0 rm,
        .swp cond rm rd 0 rm, .swpb cond rm rd 0 rm], exec j s = .refused .registerOverlap)) ∧
    (∀ j ∈ [Instr.ldrbImm cond p u w rn 15 off, .strbImm cond p u w rn 15 off, .ldrtImm cond u rn 15 off,
      .ldrbtImm cond u rn 15 off, .ldrh cond p u i w rn 15 hi rm,
      .ldrsb cond p u i w rn 15 hi rm, .ldrsh cond p u i w rn 15 hi rm, .ldrReg cond p u w rn rd n k 15,
      .strReg cond p u w rn rd n k 15, .mrs cond f 15 15 0 0, .blxReg cond 0xFFF 15], exec j s = .refused .pcOperand) ∧
    ((p = false ∨ w = true) →
      exec (.ldrImm cond p u w 15 rd off) s = .refused .writeback ∧
      exec (.strImm cond p u w 15 rd off) s = .refused .writeback ∧
      (rm ≠ 15 → exec (.ldrReg cond p u w rm rd n k rm) s = .refused .writeback ∧
        exec (.strReg cond p u w rm rd n k rm) s = .refused .writeback)) ∧
    (∀ j ∈ [Instr.ldm cond p u w 15 list, .stm cond p u w 15 list, .ldmUser cond p u f 15 regs, .stmUser cond p u f 15 list,
      .ldmReturn cond p u w 15 regs], exec j s = .refused .pcOperand) ∧
    (rn ≠ 15 →
      (∀ j ∈ [Instr.ldm cond p u w rn 0, .stm cond p u w rn 0, .ldmUser cond p u f rn 0, .stmUser cond p u f rn 0],
        exec j s = .refused .emptyRegisterList) ∧
      (regs ≠ 0 → exec (.ldmUser cond p u true rn regs) s = .refused .writeback ∧
        (s.spsr = none → exec (.ldmUser cond p u false rn regs) s = .refused .illegalMode)) ∧
      (list ≠ 0 → exec (.stmUser cond p u true rn list) s = .refused .writeback ∧
        (s.spsr = none → exec (.stmUser cond p u false rn list) s = .refused .illegalMode)) ∧
      (s.spsr = none → exec (.ldmReturn cond p u w rn regs) s = .refused .noSpsr)) ∧
    (rd ≠ 15 → s.spsr = none → exec (.mrs cond true 15 rd 0 0) s = .refused .noSpsr ∧
      exec (.msrReg cond true rs 0xF0 rm) s = .refused .noSpsr) ∧
    (s.ctrlBit 1 = false → rd ≠ 15 → rn ≠ 15 → rd.getLsbD 0 = false → rd ≠ 14 → rn ≠ rd → rn ≠ rd + 1 →
      let e := s.am3 true u true false rn hi rm
      (e.addr.getLsbD 0 = true → exec (.ldrh cond true u true false rn rd hi rm) s = .refused .misaligned ∧
        exec (.strh cond true u true false rn rd hi rm) s = .refused .misaligned) ∧
      (e.addr.extractLsb' 0 3 ≠ 0 → exec (.ldrd cond true u true false rn rd hi rm) s = .refused .misaligned ∧
        exec (.strd cond true u true false rn rd hi rm) s = .refused .misaligned)) ∧
    (cond ≠ .al → exec (.bkpt cond off rm) s = .refused .conditionalBkpt) ∧
    exec (.tAddHigh false false a b) s = .refused .registerOverlap ∧
    exec (.tCmpHigh false false a b) s = .refused .registerOverlap ∧
    exec (.tBlxReg true 7 0) s = .refused .pcOperand ∧ exec (.tPush false 0) s = .refused .emptyRegisterList ∧
    exec (.tPop false 0) s = .refused .emptyRegisterList ∧ exec (.tLdmia a 0) s = .refused .emptyRegisterList ∧
    (s.cp15.cpar.getLsbD 0 = true → rd ≠ 15 → exec (.mra cond rd rd 0 0) s = .refused .registerOverlap)

/-! Translation -/

/-- The modified virtual address: the process id in place of the top seven bits where these are zero (`21_mmu` R282). -/
def Obligations.ProcessIdRemap : Prop :=
  ∀ (s : State) (va : Word),
    (va.toNat < 2 ^ 25 → (s.pidRemap va).toNat = s.cp15.pid.toNat * 2 ^ 25 + va.toNat) ∧
    (2 ^ 25 ≤ va.toNat → s.pidRemap va = va)

/-- A data access through a section, missing the TLB: with descriptor bits that should be zero at zero, an unshared mapping of a
type that is defined and a domain that is Manager, or Client with access permitted, the physical address is the section base
and the low twenty bits; a fault descriptor, a domain without access and a permission denied give their abort
(`21_mmu` R284, R285, R290, R294 to R296, R310, `60_exceptions` R901). -/
def Obligations.SectionTranslation : Prop :=
  ∀ (s : State) (mva : Word) (priv write : Bool), s.mmuOn = true → s.dtlb.lookup mva = none → s.cfg.busErrors = [] →
    s.cp15.ttbase.extractLsb' 3 2 = 0 →
    let d := memWord s.mem
      (s.cp15.ttbase.extractLsb' 14 18 ++ mva.extractLsb' 20 12 ++ (0 : BitVec 2) : BitVec 32).toNat
    let kind : Access := if write then .write else .read
    let ap := d.extractLsb' 10 2
    let dom := d.extractLsb' 5 4
    let access : BitVec 2 := s.cp15.dacr.extractLsb' (2 * dom.toNat) 2
    let allowed : Bool := ap == 3 || (priv && ap != 0) || (ap == 2 && !write)
    let aborts (fs : BitVec 5) (dm : Option (BitVec 4)) : Prop :=
      ∃ s1, translate mva kind priv s = .error (.abort fs dm (some mva)) s1
    (d.extractLsb' 0 2 = 0 → aborts 0b00101 none) ∧
    (d.extractLsb' 0 2 = 2 → d &&& 0x000F8010 = 0 →
      (access = 0 → aborts 0b01001 (some dom)) ∧
      (access = 1 → ap ≠ 0 → allowed = false → aborts 0b01101 (some dom)) ∧
      (access = 3 ∨ (access = 1 ∧ ap ≠ 0 ∧ allowed = true) → d.extractLsb' 12 3 = 0 →
        ∃ m s1, translate mva kind priv s = .ok m s1 ∧ s1.regs = s.regs ∧ s1.cpsr = s.cpsr ∧ s1.cp15 = s.cp15 ∧
          m.pa = ((d.extractLsb' 20 12 ++ mva.extractLsb' 0 20 : BitVec 32)).setWidth 36 ∧ s1.mem = s.mem))
end

