-- ==== Sys2Proof/Laws/Encoding.lean ====
section
/-!
SUPPORT. Laws of the encoder's field writing: reading a field of a word that `put` built. With them, and the
definitions of the decoder and the encoder, `simp` decodes the encoding of an instruction field by field.
-/
namespace Sys2Proof

/-- A field below the part that `put` puts low. -/
theorem put_lo {n k : Nat} (y : BitVec k) (x : BitVec n) (s l : Nat) (h : s + l ≤ k) (h2 : s + l ≤ n) :
    (put y x).extractLsb' s l = y.extractLsb' s l := by
  ext i hi
  have : s + i < k := by omega
  have : s + i < n := by omega
  simp [put, *]

/-- A field above it. -/
theorem put_hi {n k : Nat} (y : BitVec k) (x : BitVec n) (s l : Nat) (h : k ≤ s) (h2 : s + l ≤ n) :
    (put y x).extractLsb' s l = x.extractLsb' (s - k) l := by
  ext i hi
  have : ¬ s + i < k := by omega
  have : s + i < n := by omega
  have : k ≤ s + i := by omega
  have : s - k + i = s + i - k := by omega
  simp [put, *, -BitVec.getLsbD_eq_getElem]

/-- One bit of the low part. -/
theorem put_get_lo {n k : Nat} (y : BitVec k) (x : BitVec n) (s : Nat) (h : s < k) (h2 : s < n) :
    (put y x).getLsbD s = y.getLsbD s := by
  simp [put, *]

/-- One bit above it. -/
theorem put_get_hi {n k : Nat} (y : BitVec k) (x : BitVec n) (s : Nat) (h : k ≤ s) (h2 : s < n) :
    (put y x).getLsbD s = x.getLsbD (s - k) := by
  have : ¬ s < k := by omega
  simp [put, *, -BitVec.getLsbD_eq_getElem]

/-- A condition is read back from its bits. -/
@[simp] theorem cond_of_bits (c : Cond) : Cond.ofBits c.bits = some c := by cases c <;> rfl

/-- The code 0b1111 is no condition. -/
@[simp] theorem cond_of_fifteen : Cond.ofBits 15 = none := rfl

end Sys2Proof
end

