-- ==== Sys2Proof/Laws/Exec.lean ====
section
/-!
SUPPORT. What `exec` answers for each constructor, so that no proof unfolds the dispatch over all of them.
-/
namespace Sys2Proof.Machine

variable (s : State)

@[simp] theorem exec_pldImm (uBit : Bool) (rn : BitVec 4) (offset12 : BitVec 12) :
    exec (.pldImm uBit rn offset12) s = execPldImm uBit rn offset12 s := rfl
@[simp] theorem exec_pldReg (uBit : Bool) (rn : BitVec 4) (shiftImm : BitVec 5) (shift : BitVec 2) (rm : BitVec 4) :
    exec (.pldReg uBit rn shiftImm shift rm) s = execPldReg uBit rn shiftImm shift rm s := rfl
@[simp] theorem exec_blxImm (hBit : Bool) (signedImmed24 : BitVec 24) :
    exec (.blxImm hBit signedImmed24) s = execBlxImm hBit signedImmed24 s := rfl
@[simp] theorem exec_ldc2 (pBit uBit nBit wBit : Bool) (rn crd cpNum : BitVec 4) (offset8 : BitVec 8) :
    exec (.ldc2 pBit uBit nBit wBit rn crd cpNum offset8) s = execLdc2 pBit uBit nBit wBit rn crd cpNum offset8 s := rfl
@[simp] theorem exec_stc2 (pBit uBit nBit wBit : Bool) (rn crd cpNum : BitVec 4) (offset8 : BitVec 8) :
    exec (.stc2 pBit uBit nBit wBit rn crd cpNum offset8) s = execStc2 pBit uBit nBit wBit rn crd cpNum offset8 s := rfl
@[simp] theorem exec_cdp2 (opcode1 crn crd cpNum : BitVec 4) (opcode2 : BitVec 3) (crm : BitVec 4) :
    exec (.cdp2 opcode1 crn crd cpNum opcode2 crm) s = execCdp2 opcode1 crn crd cpNum opcode2 crm s := rfl
@[simp] theorem exec_mcr2 (opcode1 : BitVec 3) (crn rd cpNum : BitVec 4) (opcode2 : BitVec 3) (crm : BitVec 4) :
    exec (.mcr2 opcode1 crn rd cpNum opcode2 crm) s = execMcr2 opcode1 crn rd cpNum opcode2 crm s := rfl
@[simp] theorem exec_mrc2 (opcode1 : BitVec 3) (crn rd cpNum : BitVec 4) (opcode2 : BitVec 3) (crm : BitVec 4) :
    exec (.mrc2 opcode1 crn rd cpNum opcode2 crm) s = execMrc2 opcode1 crn rd cpNum opcode2 crm s := rfl
@[simp] theorem exec_undefUncond (raw : BitVec 28) : exec (.undefUncond raw) s = execUndefUncond raw s := rfl
@[simp] theorem exec_mul (cond : Cond) (sBit : Bool) (rd sb rs rm : BitVec 4) :
    exec (.mul cond sBit rd sb rs rm) s = execMul cond sBit rd sb rs rm s := rfl
@[simp] theorem exec_mla (cond : Cond) (sBit : Bool) (rd rn rs rm : BitVec 4) :
    exec (.mla cond sBit rd rn rs rm) s = execMla cond sBit rd rn rs rm s := rfl
@[simp] theorem exec_umull (cond : Cond) (sBit : Bool) (rdHi rdLo rs rm : BitVec 4) :
    exec (.umull cond sBit rdHi rdLo rs rm) s = execUmull cond sBit rdHi rdLo rs rm s := rfl
@[simp] theorem exec_umlal (cond : Cond) (sBit : Bool) (rdHi rdLo rs rm : BitVec 4) :
    exec (.umlal cond sBit rdHi rdLo rs rm) s = execUmlal cond sBit rdHi rdLo rs rm s := rfl
@[simp] theorem exec_smull (cond : Cond) (sBit : Bool) (rdHi rdLo rs rm : BitVec 4) :
    exec (.smull cond sBit rdHi rdLo rs rm) s = execSmull cond sBit rdHi rdLo rs rm s := rfl
@[simp] theorem exec_smlal (cond : Cond) (sBit : Bool) (rdHi rdLo rs rm : BitVec 4) :
    exec (.smlal cond sBit rdHi rdLo rs rm) s = execSmlal cond sBit rdHi rdLo rs rm s := rfl
@[simp] theorem exec_swp (cond : Cond) (rn rd sb rm : BitVec 4) :
    exec (.swp cond rn rd sb rm) s = execSwp cond rn rd sb rm s := rfl
@[simp] theorem exec_swpb (cond : Cond) (rn rd sb rm : BitVec 4) :
    exec (.swpb cond rn rd sb rm) s = execSwpb cond rn rd sb rm s := rfl
@[simp] theorem exec_undefExt (cond : Cond) (raw1 : BitVec 17) (raw2 : BitVec 4) :
    exec (.undefExt cond raw1 raw2) s = execUndefExt cond raw1 raw2 s := rfl
@[simp] theorem exec_strh (cond : Cond) (pBit uBit iBit wBit : Bool) (rn rd addrHi addrLo : BitVec 4) :
    exec (.strh cond pBit uBit iBit wBit rn rd addrHi addrLo) s = execStrh cond pBit uBit iBit wBit rn rd addrHi addrLo s := rfl
@[simp] theorem exec_ldrd (cond : Cond) (pBit uBit iBit wBit : Bool) (rn rd addrHi addrLo : BitVec 4) :
    exec (.ldrd cond pBit uBit iBit wBit rn rd addrHi addrLo) s = execLdrd cond pBit uBit iBit wBit rn rd addrHi addrLo s := rfl
@[simp] theorem exec_strd (cond : Cond) (pBit uBit iBit wBit : Bool) (rn rd addrHi addrLo : BitVec 4) :
    exec (.strd cond pBit uBit iBit wBit rn rd addrHi addrLo) s = execStrd cond pBit uBit iBit wBit rn rd addrHi addrLo s := rfl
@[simp] theorem exec_ldrh (cond : Cond) (pBit uBit iBit wBit : Bool) (rn rd addrHi addrLo : BitVec 4) :
    exec (.ldrh cond pBit uBit iBit wBit rn rd addrHi addrLo) s = execLdrh cond pBit uBit iBit wBit rn rd addrHi addrLo s := rfl
@[simp] theorem exec_ldrsb (cond : Cond) (pBit uBit iBit wBit : Bool) (rn rd addrHi addrLo : BitVec 4) :
    exec (.ldrsb cond pBit uBit iBit wBit rn rd addrHi addrLo) s = execLdrsb cond pBit uBit iBit wBit rn rd addrHi addrLo s := rfl
@[simp] theorem exec_ldrsh (cond : Cond) (pBit uBit iBit wBit : Bool) (rn rd addrHi addrLo : BitVec 4) :
    exec (.ldrsh cond pBit uBit iBit wBit rn rd addrHi addrLo) s = execLdrsh cond pBit uBit iBit wBit rn rd addrHi addrLo s := rfl
@[simp] theorem exec_mrs (cond : Cond) (rBit : Bool) (sb1 rd sb2 sb3 : BitVec 4) :
    exec (.mrs cond rBit sb1 rd sb2 sb3) s = execMrs cond rBit sb1 rd sb2 sb3 s := rfl
@[simp] theorem exec_msrReg (cond : Cond) (rBit : Bool) (fieldMask : BitVec 4) (sb : BitVec 8) (rm : BitVec 4) :
    exec (.msrReg cond rBit fieldMask sb rm) s = execMsrReg cond rBit fieldMask sb rm s := rfl
@[simp] theorem exec_bx (cond : Cond) (sb : BitVec 12) (rm : BitVec 4) :
    exec (.bx cond sb rm) s = execBx cond sb rm s := rfl
@[simp] theorem exec_blxReg (cond : Cond) (sb : BitVec 12) (rm : BitVec 4) :
    exec (.blxReg cond sb rm) s = execBlxReg cond sb rm s := rfl
@[simp] theorem exec_clz (cond : Cond) (sb1 rd sb2 rm : BitVec 4) :
    exec (.clz cond sb1 rd sb2 rm) s = execClz cond sb1 rd sb2 rm s := rfl
@[simp] theorem exec_qadd (cond : Cond) (rn rd sb rm : BitVec 4) :
    exec (.qadd cond rn rd sb rm) s = execQadd cond rn rd sb rm s := rfl
@[simp] theorem exec_qsub (cond : Cond) (rn rd sb rm : BitVec 4) :
    exec (.qsub cond rn rd sb rm) s = execQsub cond rn rd sb rm s := rfl
@[simp] theorem exec_qdadd (cond : Cond) (rn rd sb rm : BitVec 4) :
    exec (.qdadd cond rn rd sb rm) s = execQdadd cond rn rd sb rm s := rfl
@[simp] theorem exec_qdsub (cond : Cond) (rn rd sb rm : BitVec 4) :
    exec (.qdsub cond rn rd sb rm) s = execQdsub cond rn rd sb rm s := rfl
@[simp] theorem exec_bkpt (cond : Cond) (immedHi : BitVec 12) (immedLo : BitVec 4) :
    exec (.bkpt cond immedHi immedLo) s = execBkpt cond immedHi immedLo s := rfl
@[simp] theorem exec_smlaXY (cond : Cond) (rd rn rs : BitVec 4) (yBit xBit : Bool) (rm : BitVec 4) :
    exec (.smlaXY cond rd rn rs yBit xBit rm) s = execSmlaXY cond rd rn rs yBit xBit rm s := rfl
@[simp] theorem exec_smlawY (cond : Cond) (rd rn rs : BitVec 4) (yBit : Bool) (rm : BitVec 4) :
    exec (.smlawY cond rd rn rs yBit rm) s = execSmlawY cond rd rn rs yBit rm s := rfl
@[simp] theorem exec_smulwY (cond : Cond) (rd sb rs : BitVec 4) (yBit : Bool) (rm : BitVec 4) :
    exec (.smulwY cond rd sb rs yBit rm) s = execSmulwY cond rd sb rs yBit rm s := rfl
@[simp] theorem exec_smlalXY (cond : Cond) (rdHi rdLo rs : BitVec 4) (yBit xBit : Bool) (rm : BitVec 4) :
    exec (.smlalXY cond rdHi rdLo rs yBit xBit rm) s = execSmlalXY cond rdHi rdLo rs yBit xBit rm s := rfl
@[simp] theorem exec_smulXY (cond : Cond) (rd sb rs : BitVec 4) (yBit xBit : Bool) (rm : BitVec 4) :
    exec (.smulXY cond rd sb rs yBit xBit rm) s = execSmulXY cond rd sb rs yBit xBit rm s := rfl
@[simp] theorem exec_undefMisc (cond : Cond) (raw1 : BitVec 2) (raw2 : BitVec 20) :
    exec (.undefMisc cond raw1 raw2) s = execUndefMisc cond raw1 raw2 s := rfl
@[simp] theorem exec_andShImm (cond : Cond) (sBit : Bool) (rn rd : BitVec 4) (shiftImm : BitVec 5) (shift : BitVec 2) (rm : BitVec 4) :
    exec (.andShImm cond sBit rn rd shiftImm shift rm) s = execAndShImm cond sBit rn rd shiftImm shift rm s := rfl
@[simp] theorem exec_eorShImm (cond : Cond) (sBit : Bool) (rn rd : BitVec 4) (shiftImm : BitVec 5) (shift : BitVec 2) (rm : BitVec 4) :
    exec (.eorShImm cond sBit rn rd shiftImm shift rm) s = execEorShImm cond sBit rn rd shiftImm shift rm s := rfl
@[simp] theorem exec_subShImm (cond : Cond) (sBit : Bool) (rn rd : BitVec 4) (shiftImm : BitVec 5) (shift : BitVec 2) (rm : BitVec 4) :
    exec (.subShImm cond sBit rn rd shiftImm shift rm) s = execSubShImm cond sBit rn rd shiftImm shift rm s := rfl
@[simp] theorem exec_rsbShImm (cond : Cond) (sBit : Bool) (rn rd : BitVec 4) (shiftImm : BitVec 5) (shift : BitVec 2) (rm : BitVec 4) :
    exec (.rsbShImm cond sBit rn rd shiftImm shift rm) s = execRsbShImm cond sBit rn rd shiftImm shift rm s := rfl
@[simp] theorem exec_addShImm (cond : Cond) (sBit : Bool) (rn rd : BitVec 4) (shiftImm : BitVec 5) (shift : BitVec 2) (rm : BitVec 4) :
    exec (.addShImm cond sBit rn rd shiftImm shift rm) s = execAddShImm cond sBit rn rd shiftImm shift rm s := rfl
@[simp] theorem exec_adcShImm (cond : Cond) (sBit : Bool) (rn rd : BitVec 4) (shiftImm : BitVec 5) (shift : BitVec 2) (rm : BitVec 4) :
    exec (.adcShImm cond sBit rn rd shiftImm shift rm) s = execAdcShImm cond sBit rn rd shiftImm shift rm s := rfl
@[simp] theorem exec_sbcShImm (cond : Cond) (sBit : Bool) (rn rd : BitVec 4) (shiftImm : BitVec 5) (shift : BitVec 2) (rm : BitVec 4) :
    exec (.sbcShImm cond sBit rn rd shiftImm shift rm) s = execSbcShImm cond sBit rn rd shiftImm shift rm s := rfl
@[simp] theorem exec_rscShImm (cond : Cond) (sBit : Bool) (rn rd : BitVec 4) (shiftImm : BitVec 5) (shift : BitVec 2) (rm : BitVec 4) :
    exec (.rscShImm cond sBit rn rd shiftImm shift rm) s = execRscShImm cond sBit rn rd shiftImm shift rm s := rfl
@[simp] theorem exec_tstShImm (cond : Cond) (rn sb : BitVec 4) (shiftImm : BitVec 5) (shift : BitVec 2) (rm : BitVec 4) :
    exec (.tstShImm cond rn sb shiftImm shift rm) s = execTstShImm cond rn sb shiftImm shift rm s := rfl
@[simp] theorem exec_teqShImm (cond : Cond) (rn sb : BitVec 4) (shiftImm : BitVec 5) (shift : BitVec 2) (rm : BitVec 4) :
    exec (.teqShImm cond rn sb shiftImm shift rm) s = execTeqShImm cond rn sb shiftImm shift rm s := rfl
@[simp] theorem exec_cmpShImm (cond : Cond) (rn sb : BitVec 4) (shiftImm : BitVec 5) (shift : BitVec 2) (rm : BitVec 4) :
    exec (.cmpShImm cond rn sb shiftImm shift rm) s = execCmpShImm cond rn sb shiftImm shift rm s := rfl
@[simp] theorem exec_cmnShImm (cond : Cond) (rn sb : BitVec 4) (shiftImm : BitVec 5) (shift : BitVec 2) (rm : BitVec 4) :
    exec (.cmnShImm cond rn sb shiftImm shift rm) s = execCmnShImm cond rn sb shiftImm shift rm s := rfl
@[simp] theorem exec_orrShImm (cond : Cond) (sBit : Bool) (rn rd : BitVec 4) (shiftImm : BitVec 5) (shift : BitVec 2) (rm : BitVec 4) :
    exec (.orrShImm cond sBit rn rd shiftImm shift rm) s = execOrrShImm cond sBit rn rd shiftImm shift rm s := rfl
@[simp] theorem exec_movShImm (cond : Cond) (sBit : Bool) (sb rd : BitVec 4) (shiftImm : BitVec 5) (shift : BitVec 2) (rm : BitVec 4) :
    exec (.movShImm cond sBit sb rd shiftImm shift rm) s = execMovShImm cond sBit sb rd shiftImm shift rm s := rfl
@[simp] theorem exec_bicShImm (cond : Cond) (sBit : Bool) (rn rd : BitVec 4) (shiftImm : BitVec 5) (shift : BitVec 2) (rm : BitVec 4) :
    exec (.bicShImm cond sBit rn rd shiftImm shift rm) s = execBicShImm cond sBit rn rd shiftImm shift rm s := rfl
@[simp] theorem exec_mvnShImm (cond : Cond) (sBit : Bool) (sb rd : BitVec 4) (shiftImm : BitVec 5) (shift : BitVec 2) (rm : BitVec 4) :
    exec (.mvnShImm cond sBit sb rd shiftImm shift rm) s = execMvnShImm cond sBit sb rd shiftImm shift rm s := rfl
@[simp] theorem exec_andShReg (cond : Cond) (sBit : Bool) (rn rd rs : BitVec 4) (shift : BitVec 2) (rm : BitVec 4) :
    exec (.andShReg cond sBit rn rd rs shift rm) s = execAndShReg cond sBit rn rd rs shift rm s := rfl
@[simp] theorem exec_eorShReg (cond : Cond) (sBit : Bool) (rn rd rs : BitVec 4) (shift : BitVec 2) (rm : BitVec 4) :
    exec (.eorShReg cond sBit rn rd rs shift rm) s = execEorShReg cond sBit rn rd rs shift rm s := rfl
@[simp] theorem exec_subShReg (cond : Cond) (sBit : Bool) (rn rd rs : BitVec 4) (shift : BitVec 2) (rm : BitVec 4) :
    exec (.subShReg cond sBit rn rd rs shift rm) s = execSubShReg cond sBit rn rd rs shift rm s := rfl
@[simp] theorem exec_rsbShReg (cond : Cond) (sBit : Bool) (rn rd rs : BitVec 4) (shift : BitVec 2) (rm : BitVec 4) :
    exec (.rsbShReg cond sBit rn rd rs shift rm) s = execRsbShReg cond sBit rn rd rs shift rm s := rfl
@[simp] theorem exec_addShReg (cond : Cond) (sBit : Bool) (rn rd rs : BitVec 4) (shift : BitVec 2) (rm : BitVec 4) :
    exec (.addShReg cond sBit rn rd rs shift rm) s = execAddShReg cond sBit rn rd rs shift rm s := rfl
@[simp] theorem exec_adcShReg (cond : Cond) (sBit : Bool) (rn rd rs : BitVec 4) (shift : BitVec 2) (rm : BitVec 4) :
    exec (.adcShReg cond sBit rn rd rs shift rm) s = execAdcShReg cond sBit rn rd rs shift rm s := rfl
@[simp] theorem exec_sbcShReg (cond : Cond) (sBit : Bool) (rn rd rs : BitVec 4) (shift : BitVec 2) (rm : BitVec 4) :
    exec (.sbcShReg cond sBit rn rd rs shift rm) s = execSbcShReg cond sBit rn rd rs shift rm s := rfl
@[simp] theorem exec_rscShReg (cond : Cond) (sBit : Bool) (rn rd rs : BitVec 4) (shift : BitVec 2) (rm : BitVec 4) :
    exec (.rscShReg cond sBit rn rd rs shift rm) s = execRscShReg cond sBit rn rd rs shift rm s := rfl
@[simp] theorem exec_tstShReg (cond : Cond) (rn sb rs : BitVec 4) (shift : BitVec 2) (rm : BitVec 4) :
    exec (.tstShReg cond rn sb rs shift rm) s = execTstShReg cond rn sb rs shift rm s := rfl
@[simp] theorem exec_teqShReg (cond : Cond) (rn sb rs : BitVec 4) (shift : BitVec 2) (rm : BitVec 4) :
    exec (.teqShReg cond rn sb rs shift rm) s = execTeqShReg cond rn sb rs shift rm s := rfl
@[simp] theorem exec_cmpShReg (cond : Cond) (rn sb rs : BitVec 4) (shift : BitVec 2) (rm : BitVec 4) :
    exec (.cmpShReg cond rn sb rs shift rm) s = execCmpShReg cond rn sb rs shift rm s := rfl
@[simp] theorem exec_cmnShReg (cond : Cond) (rn sb rs : BitVec 4) (shift : BitVec 2) (rm : BitVec 4) :
    exec (.cmnShReg cond rn sb rs shift rm) s = execCmnShReg cond rn sb rs shift rm s := rfl
@[simp] theorem exec_orrShReg (cond : Cond) (sBit : Bool) (rn rd rs : BitVec 4) (shift : BitVec 2) (rm : BitVec 4) :
    exec (.orrShReg cond sBit rn rd rs shift rm) s = execOrrShReg cond sBit rn rd rs shift rm s := rfl
@[simp] theorem exec_movShReg (cond : Cond) (sBit : Bool) (sb rd rs : BitVec 4) (shift : BitVec 2) (rm : BitVec 4) :
    exec (.movShReg cond sBit sb rd rs shift rm) s = execMovShReg cond sBit sb rd rs shift rm s := rfl
@[simp] theorem exec_bicShReg (cond : Cond) (sBit : Bool) (rn rd rs : BitVec 4) (shift : BitVec 2) (rm : BitVec 4) :
    exec (.bicShReg cond sBit rn rd rs shift rm) s = execBicShReg cond sBit rn rd rs shift rm s := rfl
@[simp] theorem exec_mvnShReg (cond : Cond) (sBit : Bool) (sb rd rs : BitVec 4) (shift : BitVec 2) (rm : BitVec 4) :
    exec (.mvnShReg cond sBit sb rd rs shift rm) s = execMvnShReg cond sBit sb rd rs shift rm s := rfl
@[simp] theorem exec_msrImm (cond : Cond) (rBit : Bool) (fieldMask sb rotateImm : BitVec 4) (immed8 : BitVec 8) :
    exec (.msrImm cond rBit fieldMask sb rotateImm immed8) s = execMsrImm cond rBit fieldMask sb rotateImm immed8 s := rfl
@[simp] theorem exec_undefImm (cond : Cond) (raw1 : Bool) (raw2 : BitVec 20) :
    exec (.undefImm cond raw1 raw2) s = execUndefImm cond raw1 raw2 s := rfl
@[simp] theorem exec_andImm (cond : Cond) (sBit : Bool) (rn rd rotateImm : BitVec 4) (immed8 : BitVec 8) :
    exec (.andImm cond sBit rn rd rotateImm immed8) s = execAndImm cond sBit rn rd rotateImm immed8 s := rfl
@[simp] theorem exec_eorImm (cond : Cond) (sBit : Bool) (rn rd rotateImm : BitVec 4) (immed8 : BitVec 8) :
    exec (.eorImm cond sBit rn rd rotateImm immed8) s = execEorImm cond sBit rn rd rotateImm immed8 s := rfl
@[simp] theorem exec_subImm (cond : Cond) (sBit : Bool) (rn rd rotateImm : BitVec 4) (immed8 : BitVec 8) :
    exec (.subImm cond sBit rn rd rotateImm immed8) s = execSubImm cond sBit rn rd rotateImm immed8 s := rfl
@[simp] theorem exec_rsbImm (cond : Cond) (sBit : Bool) (rn rd rotateImm : BitVec 4) (immed8 : BitVec 8) :
    exec (.rsbImm cond sBit rn rd rotateImm immed8) s = execRsbImm cond sBit rn rd rotateImm immed8 s := rfl
@[simp] theorem exec_addImm (cond : Cond) (sBit : Bool) (rn rd rotateImm : BitVec 4) (immed8 : BitVec 8) :
    exec (.addImm cond sBit rn rd rotateImm immed8) s = execAddImm cond sBit rn rd rotateImm immed8 s := rfl
@[simp] theorem exec_adcImm (cond : Cond) (sBit : Bool) (rn rd rotateImm : BitVec 4) (immed8 : BitVec 8) :
    exec (.adcImm cond sBit rn rd rotateImm immed8) s = execAdcImm cond sBit rn rd rotateImm immed8 s := rfl
@[simp] theorem exec_sbcImm (cond : Cond) (sBit : Bool) (rn rd rotateImm : BitVec 4) (immed8 : BitVec 8) :
    exec (.sbcImm cond sBit rn rd rotateImm immed8) s = execSbcImm cond sBit rn rd rotateImm immed8 s := rfl
@[simp] theorem exec_rscImm (cond : Cond) (sBit : Bool) (rn rd rotateImm : BitVec 4) (immed8 : BitVec 8) :
    exec (.rscImm cond sBit rn rd rotateImm immed8) s = execRscImm cond sBit rn rd rotateImm immed8 s := rfl
@[simp] theorem exec_tstImm (cond : Cond) (rn sb rotateImm : BitVec 4) (immed8 : BitVec 8) :
    exec (.tstImm cond rn sb rotateImm immed8) s = execTstImm cond rn sb rotateImm immed8 s := rfl
@[simp] theorem exec_teqImm (cond : Cond) (rn sb rotateImm : BitVec 4) (immed8 : BitVec 8) :
    exec (.teqImm cond rn sb rotateImm immed8) s = execTeqImm cond rn sb rotateImm immed8 s := rfl
@[simp] theorem exec_cmpImm (cond : Cond) (rn sb rotateImm : BitVec 4) (immed8 : BitVec 8) :
    exec (.cmpImm cond rn sb rotateImm immed8) s = execCmpImm cond rn sb rotateImm immed8 s := rfl
@[simp] theorem exec_cmnImm (cond : Cond) (rn sb rotateImm : BitVec 4) (immed8 : BitVec 8) :
    exec (.cmnImm cond rn sb rotateImm immed8) s = execCmnImm cond rn sb rotateImm immed8 s := rfl
@[simp] theorem exec_orrImm (cond : Cond) (sBit : Bool) (rn rd rotateImm : BitVec 4) (immed8 : BitVec 8) :
    exec (.orrImm cond sBit rn rd rotateImm immed8) s = execOrrImm cond sBit rn rd rotateImm immed8 s := rfl
@[simp] theorem exec_movImm (cond : Cond) (sBit : Bool) (sb rd rotateImm : BitVec 4) (immed8 : BitVec 8) :
    exec (.movImm cond sBit sb rd rotateImm immed8) s = execMovImm cond sBit sb rd rotateImm immed8 s := rfl
@[simp] theorem exec_bicImm (cond : Cond) (sBit : Bool) (rn rd rotateImm : BitVec 4) (immed8 : BitVec 8) :
    exec (.bicImm cond sBit rn rd rotateImm immed8) s = execBicImm cond sBit rn rd rotateImm immed8 s := rfl
@[simp] theorem exec_mvnImm (cond : Cond) (sBit : Bool) (sb rd rotateImm : BitVec 4) (immed8 : BitVec 8) :
    exec (.mvnImm cond sBit sb rd rotateImm immed8) s = execMvnImm cond sBit sb rd rotateImm immed8 s := rfl
@[simp] theorem exec_ldrtImm (cond : Cond) (uBit : Bool) (rn rd : BitVec 4) (offset12 : BitVec 12) :
    exec (.ldrtImm cond uBit rn rd offset12) s = execLdrtImm cond uBit rn rd offset12 s := rfl
@[simp] theorem exec_ldrbtImm (cond : Cond) (uBit : Bool) (rn rd : BitVec 4) (offset12 : BitVec 12) :
    exec (.ldrbtImm cond uBit rn rd offset12) s = execLdrbtImm cond uBit rn rd offset12 s := rfl
@[simp] theorem exec_strtImm (cond : Cond) (uBit : Bool) (rn rd : BitVec 4) (offset12 : BitVec 12) :
    exec (.strtImm cond uBit rn rd offset12) s = execStrtImm cond uBit rn rd offset12 s := rfl
@[simp] theorem exec_strbtImm (cond : Cond) (uBit : Bool) (rn rd : BitVec 4) (offset12 : BitVec 12) :
    exec (.strbtImm cond uBit rn rd offset12) s = execStrbtImm cond uBit rn rd offset12 s := rfl
@[simp] theorem exec_ldrImm (cond : Cond) (pBit uBit wBit : Bool) (rn rd : BitVec 4) (offset12 : BitVec 12) :
    exec (.ldrImm cond pBit uBit wBit rn rd offset12) s = execLdrImm cond pBit uBit wBit rn rd offset12 s := rfl
@[simp] theorem exec_ldrbImm (cond : Cond) (pBit uBit wBit : Bool) (rn rd : BitVec 4) (offset12 : BitVec 12) :
    exec (.ldrbImm cond pBit uBit wBit rn rd offset12) s = execLdrbImm cond pBit uBit wBit rn rd offset12 s := rfl
@[simp] theorem exec_strImm (cond : Cond) (pBit uBit wBit : Bool) (rn rd : BitVec 4) (offset12 : BitVec 12) :
    exec (.strImm cond pBit uBit wBit rn rd offset12) s = execStrImm cond pBit uBit wBit rn rd offset12 s := rfl
@[simp] theorem exec_strbImm (cond : Cond) (pBit uBit wBit : Bool) (rn rd : BitVec 4) (offset12 : BitVec 12) :
    exec (.strbImm cond pBit uBit wBit rn rd offset12) s = execStrbImm cond pBit uBit wBit rn rd offset12 s := rfl
@[simp] theorem exec_ldrtReg (cond : Cond) (uBit : Bool) (rn rd : BitVec 4) (shiftImm : BitVec 5) (shift : BitVec 2) (rm : BitVec 4) :
    exec (.ldrtReg cond uBit rn rd shiftImm shift rm) s = execLdrtReg cond uBit rn rd shiftImm shift rm s := rfl
@[simp] theorem exec_ldrbtReg (cond : Cond) (uBit : Bool) (rn rd : BitVec 4) (shiftImm : BitVec 5) (shift : BitVec 2) (rm : BitVec 4) :
    exec (.ldrbtReg cond uBit rn rd shiftImm shift rm) s = execLdrbtReg cond uBit rn rd shiftImm shift rm s := rfl
@[simp] theorem exec_strtReg (cond : Cond) (uBit : Bool) (rn rd : BitVec 4) (shiftImm : BitVec 5) (shift : BitVec 2) (rm : BitVec 4) :
    exec (.strtReg cond uBit rn rd shiftImm shift rm) s = execStrtReg cond uBit rn rd shiftImm shift rm s := rfl
@[simp] theorem exec_strbtReg (cond : Cond) (uBit : Bool) (rn rd : BitVec 4) (shiftImm : BitVec 5) (shift : BitVec 2) (rm : BitVec 4) :
    exec (.strbtReg cond uBit rn rd shiftImm shift rm) s = execStrbtReg cond uBit rn rd shiftImm shift rm s := rfl
@[simp] theorem exec_ldrReg (cond : Cond) (pBit uBit wBit : Bool) (rn rd : BitVec 4) (shiftImm : BitVec 5) (shift : BitVec 2) (rm : BitVec 4) :
    exec (.ldrReg cond pBit uBit wBit rn rd shiftImm shift rm) s = execLdrReg cond pBit uBit wBit rn rd shiftImm shift rm s := rfl
@[simp] theorem exec_ldrbReg (cond : Cond) (pBit uBit wBit : Bool) (rn rd : BitVec 4) (shiftImm : BitVec 5) (shift : BitVec 2) (rm : BitVec 4) :
    exec (.ldrbReg cond pBit uBit wBit rn rd shiftImm shift rm) s = execLdrbReg cond pBit uBit wBit rn rd shiftImm shift rm s := rfl
@[simp] theorem exec_strReg (cond : Cond) (pBit uBit wBit : Bool) (rn rd : BitVec 4) (shiftImm : BitVec 5) (shift : BitVec 2) (rm : BitVec 4) :
    exec (.strReg cond pBit uBit wBit rn rd shiftImm shift rm) s = execStrReg cond pBit uBit wBit rn rd shiftImm shift rm s := rfl
@[simp] theorem exec_strbReg (cond : Cond) (pBit uBit wBit : Bool) (rn rd : BitVec 4) (shiftImm : BitVec 5) (shift : BitVec 2) (rm : BitVec 4) :
    exec (.strbReg cond pBit uBit wBit rn rd shiftImm shift rm) s = execStrbReg cond pBit uBit wBit rn rd shiftImm shift rm s := rfl
@[simp] theorem exec_undefMedia (cond : Cond) (raw1 : BitVec 20) (raw2 : BitVec 4) :
    exec (.undefMedia cond raw1 raw2) s = execUndefMedia cond raw1 raw2 s := rfl
@[simp] theorem exec_ldm (cond : Cond) (pBit uBit wBit : Bool) (rn : BitVec 4) (registerList : BitVec 16) :
    exec (.ldm cond pBit uBit wBit rn registerList) s = execLdm cond pBit uBit wBit rn registerList s := rfl
@[simp] theorem exec_ldmUser (cond : Cond) (pBit uBit sb : Bool) (rn : BitVec 4) (registerList : BitVec 15) :
    exec (.ldmUser cond pBit uBit sb rn registerList) s = execLdmUser cond pBit uBit sb rn registerList s := rfl
@[simp] theorem exec_ldmReturn (cond : Cond) (pBit uBit wBit : Bool) (rn : BitVec 4) (registerList : BitVec 15) :
    exec (.ldmReturn cond pBit uBit wBit rn registerList) s = execLdmReturn cond pBit uBit wBit rn registerList s := rfl
@[simp] theorem exec_stm (cond : Cond) (pBit uBit wBit : Bool) (rn : BitVec 4) (registerList : BitVec 16) :
    exec (.stm cond pBit uBit wBit rn registerList) s = execStm cond pBit uBit wBit rn registerList s := rfl
@[simp] theorem exec_stmUser (cond : Cond) (pBit uBit sb : Bool) (rn : BitVec 4) (registerList : BitVec 16) :
    exec (.stmUser cond pBit uBit sb rn registerList) s = execStmUser cond pBit uBit sb rn registerList s := rfl
@[simp] theorem exec_b (cond : Cond) (signedImmed24 : BitVec 24) :
    exec (.b cond signedImmed24) s = execB cond signedImmed24 s := rfl
@[simp] theorem exec_bl (cond : Cond) (signedImmed24 : BitVec 24) :
    exec (.bl cond signedImmed24) s = execBl cond signedImmed24 s := rfl
@[simp] theorem exec_mar (cond : Cond) (rdHi rdLo : BitVec 4) (sb : BitVec 5) (acc : BitVec 3) :
    exec (.mar cond rdHi rdLo sb acc) s = execMar cond rdHi rdLo sb acc s := rfl
@[simp] theorem exec_mra (cond : Cond) (rdHi rdLo : BitVec 4) (sb : BitVec 5) (acc : BitVec 3) :
    exec (.mra cond rdHi rdLo sb acc) s = execMra cond rdHi rdLo sb acc s := rfl
@[simp] theorem exec_mcrr (cond : Cond) (rn rd cpNum opcode crm : BitVec 4) :
    exec (.mcrr cond rn rd cpNum opcode crm) s = execMcrr cond rn rd cpNum opcode crm s := rfl
@[simp] theorem exec_mrrc (cond : Cond) (rn rd cpNum opcode crm : BitVec 4) :
    exec (.mrrc cond rn rd cpNum opcode crm) s = execMrrc cond rn rd cpNum opcode crm s := rfl
@[simp] theorem exec_ldcP14 (cond : Cond) (pBit uBit nBit wBit : Bool) (rn crd : BitVec 4) (offset8 : BitVec 8) :
    exec (.ldcP14 cond pBit uBit nBit wBit rn crd offset8) s = execLdcP14 cond pBit uBit nBit wBit rn crd offset8 s := rfl
@[simp] theorem exec_stcP14 (cond : Cond) (pBit uBit nBit wBit : Bool) (rn crd : BitVec 4) (offset8 : BitVec 8) :
    exec (.stcP14 cond pBit uBit nBit wBit rn crd offset8) s = execStcP14 cond pBit uBit nBit wBit rn crd offset8 s := rfl
@[simp] theorem exec_ldc (cond : Cond) (pBit uBit nBit wBit : Bool) (rn crd cpNum : BitVec 4) (offset8 : BitVec 8) :
    exec (.ldc cond pBit uBit nBit wBit rn crd cpNum offset8) s = execLdc cond pBit uBit nBit wBit rn crd cpNum offset8 s := rfl
@[simp] theorem exec_stc (cond : Cond) (pBit uBit nBit wBit : Bool) (rn crd cpNum : BitVec 4) (offset8 : BitVec 8) :
    exec (.stc cond pBit uBit nBit wBit rn crd cpNum offset8) s = execStc cond pBit uBit nBit wBit rn crd cpNum offset8 s := rfl
@[simp] theorem exec_cdp (cond : Cond) (opcode1 crn crd cpNum : BitVec 4) (opcode2 : BitVec 3) (crm : BitVec 4) :
    exec (.cdp cond opcode1 crn crd cpNum opcode2 crm) s = execCdp cond opcode1 crn crd cpNum opcode2 crm s := rfl
@[simp] theorem exec_mia (cond : Cond) (rs : BitVec 4) (acc : BitVec 3) (rm : BitVec 4) :
    exec (.mia cond rs acc rm) s = execMia cond rs acc rm s := rfl
@[simp] theorem exec_miaph (cond : Cond) (rs : BitVec 4) (acc : BitVec 3) (rm : BitVec 4) :
    exec (.miaph cond rs acc rm) s = execMiaph cond rs acc rm s := rfl
@[simp] theorem exec_miabb (cond : Cond) (rs : BitVec 4) (acc : BitVec 3) (rm : BitVec 4) :
    exec (.miabb cond rs acc rm) s = execMiabb cond rs acc rm s := rfl
@[simp] theorem exec_miabt (cond : Cond) (rs : BitVec 4) (acc : BitVec 3) (rm : BitVec 4) :
    exec (.miabt cond rs acc rm) s = execMiabt cond rs acc rm s := rfl
@[simp] theorem exec_miatb (cond : Cond) (rs : BitVec 4) (acc : BitVec 3) (rm : BitVec 4) :
    exec (.miatb cond rs acc rm) s = execMiatb cond rs acc rm s := rfl
@[simp] theorem exec_miatt (cond : Cond) (rs : BitVec 4) (acc : BitVec 3) (rm : BitVec 4) :
    exec (.miatt cond rs acc rm) s = execMiatt cond rs acc rm s := rfl
@[simp] theorem exec_mcrInvICacheBtb (cond : Cond) (rd : BitVec 4) :
    exec (.mcrInvICacheBtb cond rd) s = execMcrInvICacheBtb cond rd s := rfl
@[simp] theorem exec_mcrInvICacheLine (cond : Cond) (rd : BitVec 4) :
    exec (.mcrInvICacheLine cond rd) s = execMcrInvICacheLine cond rd s := rfl
@[simp] theorem exec_mcrInvBtb (cond : Cond) (rd : BitVec 4) :
    exec (.mcrInvBtb cond rd) s = execMcrInvBtb cond rd s := rfl
@[simp] theorem exec_mcrInvDCache (cond : Cond) (rd : BitVec 4) :
    exec (.mcrInvDCache cond rd) s = execMcrInvDCache cond rd s := rfl
@[simp] theorem exec_mcrInvDCacheLine (cond : Cond) (rd : BitVec 4) :
    exec (.mcrInvDCacheLine cond rd) s = execMcrInvDCacheLine cond rd s := rfl
@[simp] theorem exec_mcrInvCachesBtb (cond : Cond) (rd : BitVec 4) :
    exec (.mcrInvCachesBtb cond rd) s = execMcrInvCachesBtb cond rd s := rfl
@[simp] theorem exec_mcrCleanDLineMva (cond : Cond) (rd : BitVec 4) :
    exec (.mcrCleanDLineMva cond rd) s = execMcrCleanDLineMva cond rd s := rfl
@[simp] theorem exec_mcrCleanDLineSetWay (cond : Cond) (rd : BitVec 4) :
    exec (.mcrCleanDLineSetWay cond rd) s = execMcrCleanDLineSetWay cond rd s := rfl
@[simp] theorem exec_mcrCleanInvDLineMva (cond : Cond) (rd : BitVec 4) :
    exec (.mcrCleanInvDLineMva cond rd) s = execMcrCleanInvDLineMva cond rd s := rfl
@[simp] theorem exec_mcrCleanInvDLineSetWay (cond : Cond) (rd : BitVec 4) :
    exec (.mcrCleanInvDLineSetWay cond rd) s = execMcrCleanInvDLineSetWay cond rd s := rfl
@[simp] theorem exec_mcrInvL2Line (cond : Cond) (rd : BitVec 4) :
    exec (.mcrInvL2Line cond rd) s = execMcrInvL2Line cond rd s := rfl
@[simp] theorem exec_mcrCleanL2LineMva (cond : Cond) (rd : BitVec 4) :
    exec (.mcrCleanL2LineMva cond rd) s = execMcrCleanL2LineMva cond rd s := rfl
@[simp] theorem exec_mcrCleanL2LineSetWay (cond : Cond) (rd : BitVec 4) :
    exec (.mcrCleanL2LineSetWay cond rd) s = execMcrCleanL2LineSetWay cond rd s := rfl
@[simp] theorem exec_mcrCleanInvL2LineSetWay (cond : Cond) (rd : BitVec 4) :
    exec (.mcrCleanInvL2LineSetWay cond rd) s = execMcrCleanInvL2LineSetWay cond rd s := rfl
@[simp] theorem exec_mcrPrefetchFlush (cond : Cond) (rd : BitVec 4) :
    exec (.mcrPrefetchFlush cond rd) s = execMcrPrefetchFlush cond rd s := rfl
@[simp] theorem exec_mcrDataWriteBarrier (cond : Cond) (rd : BitVec 4) :
    exec (.mcrDataWriteBarrier cond rd) s = execMcrDataWriteBarrier cond rd s := rfl
@[simp] theorem exec_mcrDataMemoryBarrier (cond : Cond) (rd : BitVec 4) :
    exec (.mcrDataMemoryBarrier cond rd) s = execMcrDataMemoryBarrier cond rd s := rfl
@[simp] theorem exec_mcrDLineAllocate (cond : Cond) (rd : BitVec 4) :
    exec (.mcrDLineAllocate cond rd) s = execMcrDLineAllocate cond rd s := rfl
@[simp] theorem exec_mcrInvTlbs (cond : Cond) (rd : BitVec 4) :
    exec (.mcrInvTlbs cond rd) s = execMcrInvTlbs cond rd s := rfl
@[simp] theorem exec_mcrInvITlb (cond : Cond) (rd : BitVec 4) :
    exec (.mcrInvITlb cond rd) s = execMcrInvITlb cond rd s := rfl
@[simp] theorem exec_mcrInvITlbEntry (cond : Cond) (rd : BitVec 4) :
    exec (.mcrInvITlbEntry cond rd) s = execMcrInvITlbEntry cond rd s := rfl
@[simp] theorem exec_mcrInvDTlb (cond : Cond) (rd : BitVec 4) :
    exec (.mcrInvDTlb cond rd) s = execMcrInvDTlb cond rd s := rfl
@[simp] theorem exec_mcrInvDTlbEntry (cond : Cond) (rd : BitVec 4) :
    exec (.mcrInvDTlbEntry cond rd) s = execMcrInvDTlbEntry cond rd s := rfl
@[simp] theorem exec_mcrLockILine (cond : Cond) (rd : BitVec 4) :
    exec (.mcrLockILine cond rd) s = execMcrLockILine cond rd s := rfl
@[simp] theorem exec_mcrLockL2Line (cond : Cond) (rd : BitVec 4) :
    exec (.mcrLockL2Line cond rd) s = execMcrLockL2Line cond rd s := rfl
@[simp] theorem exec_mcrUnlockICache (cond : Cond) (rd : BitVec 4) :
    exec (.mcrUnlockICache cond rd) s = execMcrUnlockICache cond rd s := rfl
@[simp] theorem exec_mcrUnlockL2 (cond : Cond) (rd : BitVec 4) :
    exec (.mcrUnlockL2 cond rd) s = execMcrUnlockL2 cond rd s := rfl
@[simp] theorem exec_mcrAllocLockL2Line (cond : Cond) (rd : BitVec 4) :
    exec (.mcrAllocLockL2Line cond rd) s = execMcrAllocLockL2Line cond rd s := rfl
@[simp] theorem exec_mrcDLock (cond : Cond) (rd : BitVec 4) :
    exec (.mrcDLock cond rd) s = execMrcDLock cond rd s := rfl
@[simp] theorem exec_mcrDLock (cond : Cond) (rd : BitVec 4) :
    exec (.mcrDLock cond rd) s = execMcrDLock cond rd s := rfl
@[simp] theorem exec_mcrUnlockDCache (cond : Cond) (rd : BitVec 4) :
    exec (.mcrUnlockDCache cond rd) s = execMcrUnlockDCache cond rd s := rfl
@[simp] theorem exec_mcrLockILineLegacy (cond : Cond) (rd : BitVec 4) :
    exec (.mcrLockILineLegacy cond rd) s = execMcrLockILineLegacy cond rd s := rfl
@[simp] theorem exec_mcrUnlockICacheLegacy (cond : Cond) (rd : BitVec 4) :
    exec (.mcrUnlockICacheLegacy cond rd) s = execMcrUnlockICacheLegacy cond rd s := rfl
@[simp] theorem exec_mrcDLockLegacy (cond : Cond) (rd : BitVec 4) :
    exec (.mrcDLockLegacy cond rd) s = execMrcDLockLegacy cond rd s := rfl
@[simp] theorem exec_mcrDLockLegacy (cond : Cond) (rd : BitVec 4) :
    exec (.mcrDLockLegacy cond rd) s = execMcrDLockLegacy cond rd s := rfl
@[simp] theorem exec_mcrUnlockDCacheLegacy (cond : Cond) (rd : BitVec 4) :
    exec (.mcrUnlockDCacheLegacy cond rd) s = execMcrUnlockDCacheLegacy cond rd s := rfl
@[simp] theorem exec_mcrLockITlbEntry (cond : Cond) (rd : BitVec 4) :
    exec (.mcrLockITlbEntry cond rd) s = execMcrLockITlbEntry cond rd s := rfl
@[simp] theorem exec_mcrUnlockITlb (cond : Cond) (rd : BitVec 4) :
    exec (.mcrUnlockITlb cond rd) s = execMcrUnlockITlb cond rd s := rfl
@[simp] theorem exec_mcrLockDTlbEntry (cond : Cond) (rd : BitVec 4) :
    exec (.mcrLockDTlbEntry cond rd) s = execMcrLockDTlbEntry cond rd s := rfl
@[simp] theorem exec_mcrUnlockDTlb (cond : Cond) (rd : BitVec 4) :
    exec (.mcrUnlockDTlb cond rd) s = execMcrUnlockDTlb cond rd s := rfl
@[simp] theorem exec_mrcMainId (cond : Cond) (rd : BitVec 4) :
    exec (.mrcMainId cond rd) s = execMrcMainId cond rd s := rfl
@[simp] theorem exec_mcrMainId (cond : Cond) (rd : BitVec 4) :
    exec (.mcrMainId cond rd) s = execMcrMainId cond rd s := rfl
@[simp] theorem exec_mrcCacheType (cond : Cond) (rd : BitVec 4) :
    exec (.mrcCacheType cond rd) s = execMrcCacheType cond rd s := rfl
@[simp] theorem exec_mcrCacheType (cond : Cond) (rd : BitVec 4) :
    exec (.mcrCacheType cond rd) s = execMcrCacheType cond rd s := rfl
@[simp] theorem exec_mrcL2SystemId (cond : Cond) (rd : BitVec 4) :
    exec (.mrcL2SystemId cond rd) s = execMrcL2SystemId cond rd s := rfl
@[simp] theorem exec_mcrL2SystemId (cond : Cond) (rd : BitVec 4) :
    exec (.mcrL2SystemId cond rd) s = execMcrL2SystemId cond rd s := rfl
@[simp] theorem exec_mrcL2CacheType (cond : Cond) (rd : BitVec 4) :
    exec (.mrcL2CacheType cond rd) s = execMrcL2CacheType cond rd s := rfl
@[simp] theorem exec_mcrL2CacheType (cond : Cond) (rd : BitVec 4) :
    exec (.mcrL2CacheType cond rd) s = execMcrL2CacheType cond rd s := rfl
@[simp] theorem exec_mrcControl (cond : Cond) (rd : BitVec 4) :
    exec (.mrcControl cond rd) s = execMrcControl cond rd s := rfl
@[simp] theorem exec_mcrControl (cond : Cond) (rd : BitVec 4) :
    exec (.mcrControl cond rd) s = execMcrControl cond rd s := rfl
@[simp] theorem exec_mrcAuxControl (cond : Cond) (rd : BitVec 4) :
    exec (.mrcAuxControl cond rd) s = execMrcAuxControl cond rd s := rfl
@[simp] theorem exec_mcrAuxControl (cond : Cond) (rd : BitVec 4) :
    exec (.mcrAuxControl cond rd) s = execMcrAuxControl cond rd s := rfl
@[simp] theorem exec_mrcTtBase (cond : Cond) (rd : BitVec 4) :
    exec (.mrcTtBase cond rd) s = execMrcTtBase cond rd s := rfl
@[simp] theorem exec_mcrTtBase (cond : Cond) (rd : BitVec 4) :
    exec (.mcrTtBase cond rd) s = execMcrTtBase cond rd s := rfl
@[simp] theorem exec_mrcDacr (cond : Cond) (rd : BitVec 4) :
    exec (.mrcDacr cond rd) s = execMrcDacr cond rd s := rfl
@[simp] theorem exec_mcrDacr (cond : Cond) (rd : BitVec 4) :
    exec (.mcrDacr cond rd) s = execMcrDacr cond rd s := rfl
@[simp] theorem exec_mrcFsr (cond : Cond) (rd : BitVec 4) :
    exec (.mrcFsr cond rd) s = execMrcFsr cond rd s := rfl
@[simp] theorem exec_mcrFsr (cond : Cond) (rd : BitVec 4) :
    exec (.mcrFsr cond rd) s = execMcrFsr cond rd s := rfl
@[simp] theorem exec_mrcFar (cond : Cond) (rd : BitVec 4) :
    exec (.mrcFar cond rd) s = execMrcFar cond rd s := rfl
@[simp] theorem exec_mcrFar (cond : Cond) (rd : BitVec 4) :
    exec (.mcrFar cond rd) s = execMcrFar cond rd s := rfl
@[simp] theorem exec_mrcProcessId (cond : Cond) (rd : BitVec 4) :
    exec (.mrcProcessId cond rd) s = execMrcProcessId cond rd s := rfl
@[simp] theorem exec_mcrProcessId (cond : Cond) (rd : BitVec 4) :
    exec (.mcrProcessId cond rd) s = execMcrProcessId cond rd s := rfl
@[simp] theorem exec_mrcIbr0 (cond : Cond) (rd : BitVec 4) :
    exec (.mrcIbr0 cond rd) s = execMrcIbr0 cond rd s := rfl
@[simp] theorem exec_mcrIbr0 (cond : Cond) (rd : BitVec 4) :
    exec (.mcrIbr0 cond rd) s = execMcrIbr0 cond rd s := rfl
@[simp] theorem exec_mrcIbr1 (cond : Cond) (rd : BitVec 4) :
    exec (.mrcIbr1 cond rd) s = execMrcIbr1 cond rd s := rfl
@[simp] theorem exec_mcrIbr1 (cond : Cond) (rd : BitVec 4) :
    exec (.mcrIbr1 cond rd) s = execMcrIbr1 cond rd s := rfl
@[simp] theorem exec_mrcDbr0 (cond : Cond) (rd : BitVec 4) :
    exec (.mrcDbr0 cond rd) s = execMrcDbr0 cond rd s := rfl
@[simp] theorem exec_mcrDbr0 (cond : Cond) (rd : BitVec 4) :
    exec (.mcrDbr0 cond rd) s = execMcrDbr0 cond rd s := rfl
@[simp] theorem exec_mrcDbr1 (cond : Cond) (rd : BitVec 4) :
    exec (.mrcDbr1 cond rd) s = execMrcDbr1 cond rd s := rfl
@[simp] theorem exec_mcrDbr1 (cond : Cond) (rd : BitVec 4) :
    exec (.mcrDbr1 cond rd) s = execMcrDbr1 cond rd s := rfl
@[simp] theorem exec_mrcDbcon (cond : Cond) (rd : BitVec 4) :
    exec (.mrcDbcon cond rd) s = execMrcDbcon cond rd s := rfl
@[simp] theorem exec_mcrDbcon (cond : Cond) (rd : BitVec 4) :
    exec (.mcrDbcon cond rd) s = execMcrDbcon cond rd s := rfl
@[simp] theorem exec_mrcCpar (cond : Cond) (rd : BitVec 4) :
    exec (.mrcCpar cond rd) s = execMrcCpar cond rd s := rfl
@[simp] theorem exec_mcrCpar (cond : Cond) (rd : BitVec 4) :
    exec (.mcrCpar cond rd) s = execMcrCpar cond rd s := rfl
@[simp] theorem exec_mrcPmnc (cond : Cond) (rd : BitVec 4) :
    exec (.mrcPmnc cond rd) s = execMrcPmnc cond rd s := rfl
@[simp] theorem exec_mcrPmnc (cond : Cond) (rd : BitVec 4) :
    exec (.mcrPmnc cond rd) s = execMcrPmnc cond rd s := rfl
@[simp] theorem exec_mrcCcnt (cond : Cond) (rd : BitVec 4) :
    exec (.mrcCcnt cond rd) s = execMrcCcnt cond rd s := rfl
@[simp] theorem exec_mcrCcnt (cond : Cond) (rd : BitVec 4) :
    exec (.mcrCcnt cond rd) s = execMcrCcnt cond rd s := rfl
@[simp] theorem exec_mrcInten (cond : Cond) (rd : BitVec 4) :
    exec (.mrcInten cond rd) s = execMrcInten cond rd s := rfl
@[simp] theorem exec_mcrInten (cond : Cond) (rd : BitVec 4) :
    exec (.mcrInten cond rd) s = execMcrInten cond rd s := rfl
@[simp] theorem exec_mrcFlag (cond : Cond) (rd : BitVec 4) :
    exec (.mrcFlag cond rd) s = execMrcFlag cond rd s := rfl
@[simp] theorem exec_mcrFlag (cond : Cond) (rd : BitVec 4) :
    exec (.mcrFlag cond rd) s = execMcrFlag cond rd s := rfl
@[simp] theorem exec_mrcEvtsel (cond : Cond) (rd : BitVec 4) :
    exec (.mrcEvtsel cond rd) s = execMrcEvtsel cond rd s := rfl
@[simp] theorem exec_mcrEvtsel (cond : Cond) (rd : BitVec 4) :
    exec (.mcrEvtsel cond rd) s = execMcrEvtsel cond rd s := rfl
@[simp] theorem exec_mrcPmn0 (cond : Cond) (rd : BitVec 4) :
    exec (.mrcPmn0 cond rd) s = execMrcPmn0 cond rd s := rfl
@[simp] theorem exec_mcrPmn0 (cond : Cond) (rd : BitVec 4) :
    exec (.mcrPmn0 cond rd) s = execMcrPmn0 cond rd s := rfl
@[simp] theorem exec_mrcPmn1 (cond : Cond) (rd : BitVec 4) :
    exec (.mrcPmn1 cond rd) s = execMrcPmn1 cond rd s := rfl
@[simp] theorem exec_mcrPmn1 (cond : Cond) (rd : BitVec 4) :
    exec (.mcrPmn1 cond rd) s = execMcrPmn1 cond rd s := rfl
@[simp] theorem exec_mrcPmn2 (cond : Cond) (rd : BitVec 4) :
    exec (.mrcPmn2 cond rd) s = execMrcPmn2 cond rd s := rfl
@[simp] theorem exec_mcrPmn2 (cond : Cond) (rd : BitVec 4) :
    exec (.mcrPmn2 cond rd) s = execMcrPmn2 cond rd s := rfl
@[simp] theorem exec_mrcPmn3 (cond : Cond) (rd : BitVec 4) :
    exec (.mrcPmn3 cond rd) s = execMrcPmn3 cond rd s := rfl
@[simp] theorem exec_mcrPmn3 (cond : Cond) (rd : BitVec 4) :
    exec (.mcrPmn3 cond rd) s = execMcrPmn3 cond rd s := rfl
@[simp] theorem exec_mrcCclkcfg (cond : Cond) (rd : BitVec 4) :
    exec (.mrcCclkcfg cond rd) s = execMrcCclkcfg cond rd s := rfl
@[simp] theorem exec_mcrCclkcfg (cond : Cond) (rd : BitVec 4) :
    exec (.mcrCclkcfg cond rd) s = execMcrCclkcfg cond rd s := rfl
@[simp] theorem exec_mrcPwrmode (cond : Cond) (rd : BitVec 4) :
    exec (.mrcPwrmode cond rd) s = execMrcPwrmode cond rd s := rfl
@[simp] theorem exec_mcrPwrmode (cond : Cond) (rd : BitVec 4) :
    exec (.mcrPwrmode cond rd) s = execMcrPwrmode cond rd s := rfl
@[simp] theorem exec_mcrTx (cond : Cond) (rd : BitVec 4) : exec (.mcrTx cond rd) s = execMcrTx cond rd s := rfl
@[simp] theorem exec_mrcRx (cond : Cond) (rd : BitVec 4) : exec (.mrcRx cond rd) s = execMrcRx cond rd s := rfl
@[simp] theorem exec_mrcDcsr (cond : Cond) (rd : BitVec 4) :
    exec (.mrcDcsr cond rd) s = execMrcDcsr cond rd s := rfl
@[simp] theorem exec_mcrDcsr (cond : Cond) (rd : BitVec 4) :
    exec (.mcrDcsr cond rd) s = execMcrDcsr cond rd s := rfl
@[simp] theorem exec_mrcTbreg (cond : Cond) (rd : BitVec 4) :
    exec (.mrcTbreg cond rd) s = execMrcTbreg cond rd s := rfl
@[simp] theorem exec_mrcChkpt0 (cond : Cond) (rd : BitVec 4) :
    exec (.mrcChkpt0 cond rd) s = execMrcChkpt0 cond rd s := rfl
@[simp] theorem exec_mcrChkpt0 (cond : Cond) (rd : BitVec 4) :
    exec (.mcrChkpt0 cond rd) s = execMcrChkpt0 cond rd s := rfl
@[simp] theorem exec_mrcChkpt1 (cond : Cond) (rd : BitVec 4) :
    exec (.mrcChkpt1 cond rd) s = execMrcChkpt1 cond rd s := rfl
@[simp] theorem exec_mcrChkpt1 (cond : Cond) (rd : BitVec 4) :
    exec (.mcrChkpt1 cond rd) s = execMcrChkpt1 cond rd s := rfl
@[simp] theorem exec_mrcTxrxctrl (cond : Cond) (rd : BitVec 4) :
    exec (.mrcTxrxctrl cond rd) s = execMrcTxrxctrl cond rd s := rfl
@[simp] theorem exec_mcrTxrxctrl (cond : Cond) (rd : BitVec 4) :
    exec (.mcrTxrxctrl cond rd) s = execMcrTxrxctrl cond rd s := rfl
@[simp] theorem exec_mrcErrlog (cond : Cond) (rd : BitVec 4) :
    exec (.mrcErrlog cond rd) s = execMrcErrlog cond rd s := rfl
@[simp] theorem exec_mcrErrlog (cond : Cond) (rd : BitVec 4) :
    exec (.mcrErrlog cond rd) s = execMcrErrlog cond rd s := rfl
@[simp] theorem exec_mrcErradrl (cond : Cond) (rd : BitVec 4) :
    exec (.mrcErradrl cond rd) s = execMrcErradrl cond rd s := rfl
@[simp] theorem exec_mcrErradrl (cond : Cond) (rd : BitVec 4) :
    exec (.mcrErradrl cond rd) s = execMcrErradrl cond rd s := rfl
@[simp] theorem exec_mrcErradru (cond : Cond) (rd : BitVec 4) :
    exec (.mrcErradru cond rd) s = execMrcErradru cond rd s := rfl
@[simp] theorem exec_mcrErradru (cond : Cond) (rd : BitVec 4) :
    exec (.mcrErradru cond rd) s = execMcrErradru cond rd s := rfl
@[simp] theorem exec_mcrP15Other (cond : Cond) (opcode1 : BitVec 3) (crn rd : BitVec 4) (opcode2 : BitVec 3) (crm : BitVec 4) :
    exec (.mcrP15Other cond opcode1 crn rd opcode2 crm) s = execMcrP15Other cond opcode1 crn rd opcode2 crm s := rfl
@[simp] theorem exec_mcrP14Other (cond : Cond) (opcode1 : BitVec 3) (crn rd : BitVec 4) (opcode2 : BitVec 3) (crm : BitVec 4) :
    exec (.mcrP14Other cond opcode1 crn rd opcode2 crm) s = execMcrP14Other cond opcode1 crn rd opcode2 crm s := rfl
@[simp] theorem exec_mcrP7Other (cond : Cond) (opcode1 : BitVec 3) (crn rd : BitVec 4) (opcode2 : BitVec 3) :
    exec (.mcrP7Other cond opcode1 crn rd opcode2) s = execMcrP7Other cond opcode1 crn rd opcode2 s := rfl
@[simp] theorem exec_mcrP0Other (cond : Cond) (opcode1 : BitVec 3) (crn rd : BitVec 4) (opcode2 : BitVec 3) (crm : BitVec 4) :
    exec (.mcrP0Other cond opcode1 crn rd opcode2 crm) s = execMcrP0Other cond opcode1 crn rd opcode2 crm s := rfl
@[simp] theorem exec_mcr (cond : Cond) (opcode1 : BitVec 3) (crn rd cpNum : BitVec 4) (opcode2 : BitVec 3) (crm : BitVec 4) :
    exec (.mcr cond opcode1 crn rd cpNum opcode2 crm) s = execMcr cond opcode1 crn rd cpNum opcode2 crm s := rfl
@[simp] theorem exec_mrcP15Other (cond : Cond) (opcode1 : BitVec 3) (crn rd : BitVec 4) (opcode2 : BitVec 3) (crm : BitVec 4) :
    exec (.mrcP15Other cond opcode1 crn rd opcode2 crm) s = execMrcP15Other cond opcode1 crn rd opcode2 crm s := rfl
@[simp] theorem exec_mrcP14Other (cond : Cond) (opcode1 : BitVec 3) (crn rd : BitVec 4) (opcode2 : BitVec 3) (crm : BitVec 4) :
    exec (.mrcP14Other cond opcode1 crn rd opcode2 crm) s = execMrcP14Other cond opcode1 crn rd opcode2 crm s := rfl
@[simp] theorem exec_mrcP7Other (cond : Cond) (opcode1 : BitVec 3) (crn rd : BitVec 4) (opcode2 : BitVec 3) :
    exec (.mrcP7Other cond opcode1 crn rd opcode2) s = execMrcP7Other cond opcode1 crn rd opcode2 s := rfl
@[simp] theorem exec_mrcP0Other (cond : Cond) (opcode1 : BitVec 3) (crn rd : BitVec 4) (opcode2 : BitVec 3) (crm : BitVec 4) :
    exec (.mrcP0Other cond opcode1 crn rd opcode2 crm) s = execMrcP0Other cond opcode1 crn rd opcode2 crm s := rfl
@[simp] theorem exec_mrc (cond : Cond) (opcode1 : BitVec 3) (crn rd cpNum : BitVec 4) (opcode2 : BitVec 3) (crm : BitVec 4) :
    exec (.mrc cond opcode1 crn rd cpNum opcode2 crm) s = execMrc cond opcode1 crn rd cpNum opcode2 crm s := rfl
@[simp] theorem exec_swi (cond : Cond) (immed24 : BitVec 24) :
    exec (.swi cond immed24) s = execSwi cond immed24 s := rfl
@[simp] theorem exec_tLslImm (imm5 : BitVec 5) (rm rd : BitVec 3) :
    exec (.tLslImm imm5 rm rd) s = execTLslImm imm5 rm rd s := rfl
@[simp] theorem exec_tLsrImm (imm5 : BitVec 5) (rm rd : BitVec 3) :
    exec (.tLsrImm imm5 rm rd) s = execTLsrImm imm5 rm rd s := rfl
@[simp] theorem exec_tAsrImm (imm5 : BitVec 5) (rm rd : BitVec 3) :
    exec (.tAsrImm imm5 rm rd) s = execTAsrImm imm5 rm rd s := rfl
@[simp] theorem exec_tAddReg (rm rn rd : BitVec 3) : exec (.tAddReg rm rn rd) s = execTAddReg rm rn rd s := rfl
@[simp] theorem exec_tSubReg (rm rn rd : BitVec 3) : exec (.tSubReg rm rn rd) s = execTSubReg rm rn rd s := rfl
@[simp] theorem exec_tAddImm3 (imm3 rn rd : BitVec 3) :
    exec (.tAddImm3 imm3 rn rd) s = execTAddImm3 imm3 rn rd s := rfl
@[simp] theorem exec_tSubImm3 (imm3 rn rd : BitVec 3) :
    exec (.tSubImm3 imm3 rn rd) s = execTSubImm3 imm3 rn rd s := rfl
@[simp] theorem exec_tMovImm (rd : BitVec 3) (imm8 : BitVec 8) :
    exec (.tMovImm rd imm8) s = execTMovImm rd imm8 s := rfl
@[simp] theorem exec_tCmpImm (rn : BitVec 3) (imm8 : BitVec 8) :
    exec (.tCmpImm rn imm8) s = execTCmpImm rn imm8 s := rfl
@[simp] theorem exec_tAddImm8 (rd : BitVec 3) (imm8 : BitVec 8) :
    exec (.tAddImm8 rd imm8) s = execTAddImm8 rd imm8 s := rfl
@[simp] theorem exec_tSubImm8 (rd : BitVec 3) (imm8 : BitVec 8) :
    exec (.tSubImm8 rd imm8) s = execTSubImm8 rd imm8 s := rfl
@[simp] theorem exec_tAnd (rm rd : BitVec 3) : exec (.tAnd rm rd) s = execTAnd rm rd s := rfl
@[simp] theorem exec_tEor (rm rd : BitVec 3) : exec (.tEor rm rd) s = execTEor rm rd s := rfl
@[simp] theorem exec_tLslReg (rs rd : BitVec 3) : exec (.tLslReg rs rd) s = execTLslReg rs rd s := rfl
@[simp] theorem exec_tLsrReg (rs rd : BitVec 3) : exec (.tLsrReg rs rd) s = execTLsrReg rs rd s := rfl
@[simp] theorem exec_tAsrReg (rs rd : BitVec 3) : exec (.tAsrReg rs rd) s = execTAsrReg rs rd s := rfl
@[simp] theorem exec_tAdc (rm rd : BitVec 3) : exec (.tAdc rm rd) s = execTAdc rm rd s := rfl
@[simp] theorem exec_tSbc (rm rd : BitVec 3) : exec (.tSbc rm rd) s = execTSbc rm rd s := rfl
@[simp] theorem exec_tRor (rs rd : BitVec 3) : exec (.tRor rs rd) s = execTRor rs rd s := rfl
@[simp] theorem exec_tTst (rm rn : BitVec 3) : exec (.tTst rm rn) s = execTTst rm rn s := rfl
@[simp] theorem exec_tNeg (rm rd : BitVec 3) : exec (.tNeg rm rd) s = execTNeg rm rd s := rfl
@[simp] theorem exec_tCmpReg (rm rn : BitVec 3) : exec (.tCmpReg rm rn) s = execTCmpReg rm rn s := rfl
@[simp] theorem exec_tCmn (rm rn : BitVec 3) : exec (.tCmn rm rn) s = execTCmn rm rn s := rfl
@[simp] theorem exec_tOrr (rm rd : BitVec 3) : exec (.tOrr rm rd) s = execTOrr rm rd s := rfl
@[simp] theorem exec_tMul (rm rd : BitVec 3) : exec (.tMul rm rd) s = execTMul rm rd s := rfl
@[simp] theorem exec_tBic (rm rd : BitVec 3) : exec (.tBic rm rd) s = execTBic rm rd s := rfl
@[simp] theorem exec_tMvn (rm rd : BitVec 3) : exec (.tMvn rm rd) s = execTMvn rm rd s := rfl
@[simp] theorem exec_tAddHigh (h1 h2 : Bool) (rm rd : BitVec 3) :
    exec (.tAddHigh h1 h2 rm rd) s = execTAddHigh h1 h2 rm rd s := rfl
@[simp] theorem exec_tCmpHigh (h1 h2 : Bool) (rm rn : BitVec 3) :
    exec (.tCmpHigh h1 h2 rm rn) s = execTCmpHigh h1 h2 rm rn s := rfl
@[simp] theorem exec_tMovHigh (h1 h2 : Bool) (rm rd : BitVec 3) :
    exec (.tMovHigh h1 h2 rm rd) s = execTMovHigh h1 h2 rm rd s := rfl
@[simp] theorem exec_tBx (h2 : Bool) (rm sb : BitVec 3) : exec (.tBx h2 rm sb) s = execTBx h2 rm sb s := rfl
@[simp] theorem exec_tBlxReg (h2 : Bool) (rm sb : BitVec 3) :
    exec (.tBlxReg h2 rm sb) s = execTBlxReg h2 rm sb s := rfl
@[simp] theorem exec_tLdrPc (rd : BitVec 3) (imm8 : BitVec 8) :
    exec (.tLdrPc rd imm8) s = execTLdrPc rd imm8 s := rfl
@[simp] theorem exec_tStrReg (rm rn rd : BitVec 3) : exec (.tStrReg rm rn rd) s = execTStrReg rm rn rd s := rfl
@[simp] theorem exec_tStrhReg (rm rn rd : BitVec 3) :
    exec (.tStrhReg rm rn rd) s = execTStrhReg rm rn rd s := rfl
@[simp] theorem exec_tStrbReg (rm rn rd : BitVec 3) :
    exec (.tStrbReg rm rn rd) s = execTStrbReg rm rn rd s := rfl
@[simp] theorem exec_tLdrsbReg (rm rn rd : BitVec 3) :
    exec (.tLdrsbReg rm rn rd) s = execTLdrsbReg rm rn rd s := rfl
@[simp] theorem exec_tLdrReg (rm rn rd : BitVec 3) : exec (.tLdrReg rm rn rd) s = execTLdrReg rm rn rd s := rfl
@[simp] theorem exec_tLdrhReg (rm rn rd : BitVec 3) :
    exec (.tLdrhReg rm rn rd) s = execTLdrhReg rm rn rd s := rfl
@[simp] theorem exec_tLdrbReg (rm rn rd : BitVec 3) :
    exec (.tLdrbReg rm rn rd) s = execTLdrbReg rm rn rd s := rfl
@[simp] theorem exec_tLdrshReg (rm rn rd : BitVec 3) :
    exec (.tLdrshReg rm rn rd) s = execTLdrshReg rm rn rd s := rfl
@[simp] theorem exec_tStrImm (imm5 : BitVec 5) (rn rd : BitVec 3) :
    exec (.tStrImm imm5 rn rd) s = execTStrImm imm5 rn rd s := rfl
@[simp] theorem exec_tLdrImm (imm5 : BitVec 5) (rn rd : BitVec 3) :
    exec (.tLdrImm imm5 rn rd) s = execTLdrImm imm5 rn rd s := rfl
@[simp] theorem exec_tStrbImm (imm5 : BitVec 5) (rn rd : BitVec 3) :
    exec (.tStrbImm imm5 rn rd) s = execTStrbImm imm5 rn rd s := rfl
@[simp] theorem exec_tLdrbImm (imm5 : BitVec 5) (rn rd : BitVec 3) :
    exec (.tLdrbImm imm5 rn rd) s = execTLdrbImm imm5 rn rd s := rfl
@[simp] theorem exec_tStrhImm (imm5 : BitVec 5) (rn rd : BitVec 3) :
    exec (.tStrhImm imm5 rn rd) s = execTStrhImm imm5 rn rd s := rfl
@[simp] theorem exec_tLdrhImm (imm5 : BitVec 5) (rn rd : BitVec 3) :
    exec (.tLdrhImm imm5 rn rd) s = execTLdrhImm imm5 rn rd s := rfl
@[simp] theorem exec_tStrSp (rd : BitVec 3) (imm8 : BitVec 8) :
    exec (.tStrSp rd imm8) s = execTStrSp rd imm8 s := rfl
@[simp] theorem exec_tLdrSp (rd : BitVec 3) (imm8 : BitVec 8) :
    exec (.tLdrSp rd imm8) s = execTLdrSp rd imm8 s := rfl
@[simp] theorem exec_tAddPcImm (rd : BitVec 3) (imm8 : BitVec 8) :
    exec (.tAddPcImm rd imm8) s = execTAddPcImm rd imm8 s := rfl
@[simp] theorem exec_tAddSpImm (rd : BitVec 3) (imm8 : BitVec 8) :
    exec (.tAddSpImm rd imm8) s = execTAddSpImm rd imm8 s := rfl
@[simp] theorem exec_tIncSp (imm7 : BitVec 7) : exec (.tIncSp imm7) s = execTIncSp imm7 s := rfl
@[simp] theorem exec_tDecSp (imm7 : BitVec 7) : exec (.tDecSp imm7) s = execTDecSp imm7 s := rfl
@[simp] theorem exec_tPush (rBit : Bool) (registerList : BitVec 8) :
    exec (.tPush rBit registerList) s = execTPush rBit registerList s := rfl
@[simp] theorem exec_tPop (rBit : Bool) (registerList : BitVec 8) :
    exec (.tPop rBit registerList) s = execTPop rBit registerList s := rfl
@[simp] theorem exec_tBkpt (imm8 : BitVec 8) : exec (.tBkpt imm8) s = execTBkpt imm8 s := rfl
@[simp] theorem exec_tUndef1011 (raw : BitVec 12) : exec (.tUndef1011 raw) s = execTUndef1011 raw s := rfl
@[simp] theorem exec_tStmia (rn : BitVec 3) (registerList : BitVec 8) :
    exec (.tStmia rn registerList) s = execTStmia rn registerList s := rfl
@[simp] theorem exec_tLdmia (rn : BitVec 3) (registerList : BitVec 8) :
    exec (.tLdmia rn registerList) s = execTLdmia rn registerList s := rfl
@[simp] theorem exec_tSwi (imm8 : BitVec 8) : exec (.tSwi imm8) s = execTSwi imm8 s := rfl
@[simp] theorem exec_tUndefCond (raw : BitVec 8) : exec (.tUndefCond raw) s = execTUndefCond raw s := rfl
@[simp] theorem exec_tBCond (cond : Cond) (simm8 : BitVec 8) :
    exec (.tBCond cond simm8) s = execTBCond cond simm8 s := rfl
@[simp] theorem exec_tB (simm11 : BitVec 11) : exec (.tB simm11) s = execTB simm11 s := rfl
@[simp] theorem exec_tBlxSuffix (offset11Hi : BitVec 10) :
    exec (.tBlxSuffix offset11Hi) s = execTBlxSuffix offset11Hi s := rfl
@[simp] theorem exec_tUndefBlx (raw : BitVec 10) : exec (.tUndefBlx raw) s = execTUndefBlx raw s := rfl
@[simp] theorem exec_tBlPrefix (offset11 : BitVec 11) :
    exec (.tBlPrefix offset11) s = execTBlPrefix offset11 s := rfl
@[simp] theorem exec_tBlSuffix (offset11 : BitVec 11) :
    exec (.tBlSuffix offset11) s = execTBlSuffix offset11 s := rfl

end Sys2Proof.Machine
end

