-- ==== Sys2Proof/Laws/Memory.lean ====
section
/-!
SUPPORT. Laws of the sparse tables and of memory: a read after a write, the canonical form.
-/
namespace Sys2Proof.Machine

/-! Tables -/

theorem tableGet_tableErase_self {α : Type} (k : Nat) (t : List (Nat × α)) :
    tableGet k (tableErase k t) = none := by
  induction t with
  | nil => rfl
  | cons e t ih =>
    obtain ⟨j, w⟩ := e
    by_cases h : k = j
    · simp [tableErase, h ▸ ih, h]
    · simp [tableErase, h, tableGet, Ne.symm h, ih]

theorem tableGet_tableErase_other {α : Type} {k j : Nat} (t : List (Nat × α)) (h : j ≠ k) :
    tableGet j (tableErase k t) = tableGet j t := by
  induction t with
  | nil => rfl
  | cons e t ih =>
    obtain ⟨i, w⟩ := e
    by_cases hk : k = i
    · subst hk; simp [tableErase, tableGet, ih, Ne.symm h]
    · simp only [tableErase, hk, if_false, tableGet, ih]

theorem tableGet_tableSet_self {α : Type} (k : Nat) (v : α) (t : List (Nat × α)) :
    tableGet k (tableSet k v t) = some v := by
  induction t with
  | nil => simp [tableSet, tableGet]
  | cons e t ih =>
    obtain ⟨j, w⟩ := e
    unfold tableSet
    split
    · simp [tableGet]
    · split
      · simp [tableGet]
      · rename_i h; simp [tableGet, Ne.symm h, ih]

theorem tableGet_tableSet_other {α : Type} {k j : Nat} (v : α) (t : List (Nat × α)) (h : j ≠ k) :
    tableGet j (tableSet k v t) = tableGet j t := by
  induction t with
  | nil => simp [tableSet, tableGet, Ne.symm h]
  | cons e t ih =>
    obtain ⟨i, w⟩ := e
    unfold tableSet
    split
    · simp [tableGet, Ne.symm h]
    · split
      · rename_i hk; subst hk; simp [tableGet, Ne.symm h]
      · simp [tableGet, ih]

/-! The canonical form of memory -/

theorem memWfFrom_mono {lo hi : Nat} {m : List Host.Cell} (h : lo ≤ hi) (hm : memWfFrom hi m = true) :
    memWfFrom lo m = true := by
  cases m with
  | nil => rfl
  | cons c m =>
    obtain ⟨a, v⟩ := c
    simp only [memWfFrom, Bool.and_eq_true, decide_eq_true_eq] at hm ⊢
    exact ⟨⟨⟨Nat.le_trans h hm.1.1.1, hm.1.1.2⟩, hm.1.2⟩, hm.2⟩

theorem memWfFrom_erase {lo : Nat} {m : List Host.Cell} (k : Nat) (hm : memWfFrom lo m = true) :
    memWfFrom lo (tableErase k m) = true := by
  induction m generalizing lo with
  | nil => rfl
  | cons c m ih =>
    obtain ⟨a, v⟩ := c
    simp only [memWfFrom, Bool.and_eq_true, decide_eq_true_eq] at hm
    unfold tableErase
    split
    · exact ih (memWfFrom_mono (by omega) hm.2)
    · simp only [memWfFrom, Bool.and_eq_true, decide_eq_true_eq]
      exact ⟨⟨⟨hm.1.1.1, hm.1.1.2⟩, hm.1.2⟩, ih hm.2⟩

theorem memWfFrom_set {lo : Nat} {m : List Host.Cell} {k : Nat} {v : Byte} (hk : k < 2 ^ 36)
    (hlo : lo ≤ k) (hv : v ≠ unlistedByte) (hm : memWfFrom lo m = true) :
    memWfFrom lo (tableSet k v m) = true := by
  induction m generalizing lo with
  | nil =>
    simp only [tableSet, memWfFrom, Bool.and_eq_true, decide_eq_true_eq]
    exact ⟨⟨⟨hlo, hk⟩, by simpa using hv⟩, trivial⟩
  | cons c m ih =>
    obtain ⟨a, w⟩ := c
    simp only [memWfFrom, Bool.and_eq_true, decide_eq_true_eq] at hm
    unfold tableSet
    split
    · simp only [memWfFrom, Bool.and_eq_true, decide_eq_true_eq]
      exact ⟨⟨⟨hlo, hk⟩, by simpa using hv⟩, ⟨⟨by omega, hm.1.1.2⟩, hm.1.2⟩, hm.2⟩
    · split
      · rename_i h; subst h
        simp only [memWfFrom, Bool.and_eq_true, decide_eq_true_eq]
        exact ⟨⟨⟨hlo, hk⟩, by simpa using hv⟩, hm.2⟩
      · simp only [memWfFrom, Bool.and_eq_true, decide_eq_true_eq]
        exact ⟨⟨⟨hm.1.1.1, hm.1.1.2⟩, hm.1.2⟩, ih (by omega) hm.2⟩

/-- A byte write below 2^36 keeps the canonical form. -/
theorem memSetByte_wf {m : List Host.Cell} {a : Nat} {v : Byte} (ha : a < 2 ^ 36)
    (hm : Memory.wf m = true) : Memory.wf (memSetByte m a v) = true := by
  unfold memSetByte
  split
  · exact memWfFrom_erase a hm
  · rename_i h; exact memWfFrom_set ha (Nat.zero_le a) h hm

/-! Reading after writing -/

theorem memByte_memSetByte_self (m : List Host.Cell) (a : Nat) (v : Byte) :
    memByte (memSetByte m a v) a = v := by
  unfold memByte memSetByte
  split
  · rename_i h; simp [tableGet_tableErase_self, h]
  · simp [tableGet_tableSet_self]

theorem memByte_memSetByte_other {m : List Host.Cell} {a b : Nat} {v : Byte} (h : b ≠ a) :
    memByte (memSetByte m a v) b = memByte m b := by
  unfold memByte memSetByte
  split
  · rw [tableGet_tableErase_other _ h]
  · rw [tableGet_tableSet_other _ _ h]

/-- Everything a byte write does. -/
theorem memByte_memSetByte (m : List Host.Cell) (a b : Nat) (v : Byte) :
    memByte (memSetByte m a v) b = if b = a then v else memByte m b := by
  split
  · rename_i h; subst h; exact memByte_memSetByte_self m b v
  · rename_i h; exact memByte_memSetByte_other h

/-- Everything a masked write does to one byte. -/
theorem memByte_memWriteMasked (w : Nat) (mask : BitVec w) (v a n b : Nat) (m : List Host.Cell) :
    memByte (memWriteMasked w mask v a n m) b =
      if a ≤ b ∧ b < a + n ∧ mask.getLsbD (b - a) = true then
        BitVec.ofNat 8 (v / 2 ^ (8 * (b - a)))
      else memByte m b := by
  induction n with
  | zero => simp [memWriteMasked]; omega
  | succ n ih =>
    simp only [memWriteMasked]
    by_cases hb : b = a + n
    · subst hb
      have h1 : a + n - a = n := by omega
      cases hm : mask.getLsbD n <;> simp [hm, memByte_memSetByte, ih, h1]
    · have h1 : (a ≤ b ∧ b < a + (n + 1) ∧ mask.getLsbD (b - a) = true) ↔
          (a ≤ b ∧ b < a + n ∧ mask.getLsbD (b - a) = true) := by
        constructor <;> (rintro ⟨x, y, z⟩; exact ⟨x, by omega, z⟩)
      split <;> simp only [memByte_memSetByte, hb, if_false, ih, h1]

theorem memWriteMasked_wf {w : Nat} {mask : BitVec w} {v a n : Nat} {m : List Host.Cell}
    (ha : a + n ≤ 2 ^ 36) (hm : Memory.wf m = true) :
    Memory.wf (memWriteMasked w mask v a n m) = true := by
  induction n with
  | zero => exact hm
  | succ n ih =>
    simp only [memWriteMasked]
    split
    · exact memSetByte_wf (by omega) (ih (by omega))
    · exact ih (by omega)

/-- A write of a block keeps the canonical form. -/
theorem memWriteLine_wf {m : List Host.Cell} (line : BitVec 31) (mask : BitVec 32) (data : BitVec 256)
    (hm : Memory.wf m = true) : Memory.wf (memWriteLine m line mask data) = true := by
  refine memWriteMasked_wf ?_ hm
  have := line.isLt
  omega

/-- A word write keeps the canonical form. -/
theorem memSetWord_wf {m : List Host.Cell} {a : Nat} (v : Word) (ha : a + 3 < 2 ^ 36)
    (hm : Memory.wf m = true) : Memory.wf (memSetWord m a v) = true :=
  memSetByte_wf ha (memSetByte_wf (by omega) (memSetByte_wf (by omega) (memSetByte_wf (by omega) hm)))

/-- The memory after reset is in its canonical form. -/
theorem reset_mem_wf : Memory.wf State.reset.mem = true := rfl

/-- Everything a write of a block does to one byte. -/
theorem memByte_memWriteLine (m : List Host.Cell) (line : BitVec 31) (mask : BitVec 32)
    (data : BitVec 256) (b : Nat) :
    memByte (memWriteLine m line mask data) b =
      if line.toNat * 32 ≤ b ∧ b < line.toNat * 32 + 32 ∧ mask.getLsbD (b - line.toNat * 32) = true then
        data.extractLsb' (8 * (b - line.toNat * 32)) 8
      else memByte m b := by
  simp only [memWriteLine, memByte_memWriteMasked]
  split
  · apply BitVec.eq_of_toNat_eq
    simp [BitVec.extractLsb', Nat.shiftRight_eq_div_pow]
  · rfl

end Sys2Proof.Machine
end

