-- ==== Sys2Proof/Laws/State.lean ====
section
/-!
SUPPORT. What each named update of the state does to each field: one lemma per field per update.
-/
namespace Sys2Proof.Machine

variable (s : State)

/-! `State.setRegIn` -/

@[simp] theorem State.setRegIn_regs (m : BitVec 5) (n : Reg) (v : Word) : (s.setRegIn m n v).regs = s.regs.set (physIndex m n).toNat v (physIndex m n).isLt := rfl
@[simp] theorem State.setRegIn_spsrs (m : BitVec 5) (n : Reg) (v : Word) : (s.setRegIn m n v).spsrs = s.spsrs := rfl
@[simp] theorem State.setRegIn_cpsr (m : BitVec 5) (n : Reg) (v : Word) : (s.setRegIn m n v).cpsr = s.cpsr := rfl
@[simp] theorem State.setRegIn_pc (m : BitVec 5) (n : Reg) (v : Word) : (s.setRegIn m n v).pc = s.pc := rfl
@[simp] theorem State.setRegIn_acc0 (m : BitVec 5) (n : Reg) (v : Word) : (s.setRegIn m n v).acc0 = s.acc0 := rfl
@[simp] theorem State.setRegIn_cp15 (m : BitVec 5) (n : Reg) (v : Word) : (s.setRegIn m n v).cp15 = s.cp15 := rfl
@[simp] theorem State.setRegIn_pmu (m : BitVec 5) (n : Reg) (v : Word) : (s.setRegIn m n v).pmu = s.pmu := rfl
@[simp] theorem State.setRegIn_dbg (m : BitVec 5) (n : Reg) (v : Word) : (s.setRegIn m n v).dbg = s.dbg := rfl
@[simp] theorem State.setRegIn_err (m : BitVec 5) (n : Reg) (v : Word) : (s.setRegIn m n v).err = s.err := rfl
@[simp] theorem State.setRegIn_pwr (m : BitVec 5) (n : Reg) (v : Word) : (s.setRegIn m n v).pwr = s.pwr := rfl
@[simp] theorem State.setRegIn_itlb (m : BitVec 5) (n : Reg) (v : Word) : (s.setRegIn m n v).itlb = s.itlb := rfl
@[simp] theorem State.setRegIn_dtlb (m : BitVec 5) (n : Reg) (v : Word) : (s.setRegIn m n v).dtlb = s.dtlb := rfl
@[simp] theorem State.setRegIn_icache (m : BitVec 5) (n : Reg) (v : Word) : (s.setRegIn m n v).icache = s.icache := rfl
@[simp] theorem State.setRegIn_btb (m : BitVec 5) (n : Reg) (v : Word) : (s.setRegIn m n v).btb = s.btb := rfl
@[simp] theorem State.setRegIn_dcache (m : BitVec 5) (n : Reg) (v : Word) : (s.setRegIn m n v).dcache = s.dcache := rfl
@[simp] theorem State.setRegIn_buffers (m : BitVec 5) (n : Reg) (v : Word) : (s.setRegIn m n v).buffers = s.buffers := rfl
@[simp] theorem State.setRegIn_l2 (m : BitVec 5) (n : Reg) (v : Word) : (s.setRegIn m n v).l2 = s.l2 := rfl
@[simp] theorem State.setRegIn_l2Out (m : BitVec 5) (n : Reg) (v : Word) : (s.setRegIn m n v).l2Out = s.l2Out := rfl
@[simp] theorem State.setRegIn_stale (m : BitVec 5) (n : Reg) (v : Word) : (s.setRegIn m n v).stale = s.stale := rfl
@[simp] theorem State.setRegIn_subWord (m : BitVec 5) (n : Reg) (v : Word) : (s.setRegIn m n v).subWord = s.subWord := rfl
@[simp] theorem State.setRegIn_mem (m : BitVec 5) (n : Reg) (v : Word) : (s.setRegIn m n v).mem = s.mem := rfl
@[simp] theorem State.setRegIn_pins (m : BitVec 5) (n : Reg) (v : Word) : (s.setRegIn m n v).pins = s.pins := rfl
@[simp] theorem State.setRegIn_pendingAbort (m : BitVec 5) (n : Reg) (v : Word) : (s.setRegIn m n v).pendingAbort = s.pendingAbort := rfl
@[simp] theorem State.setRegIn_note (m : BitVec 5) (n : Reg) (v : Word) : (s.setRegIn m n v).note = s.note := rfl
@[simp] theorem State.setRegIn_free (m : BitVec 5) (n : Reg) (v : Word) : (s.setRegIn m n v).free = s.free := rfl
@[simp] theorem State.setRegIn_schedule (m : BitVec 5) (n : Reg) (v : Word) : (s.setRegIn m n v).schedule = s.schedule := rfl
@[simp] theorem State.setRegIn_cfg (m : BitVec 5) (n : Reg) (v : Word) : (s.setRegIn m n v).cfg = s.cfg := rfl

/-! `State.setReg` -/

@[simp] theorem State.setReg_regs (n : Reg) (v : Word) : (s.setReg n v).regs = s.regs.set (physIndex s.mode n).toNat v (physIndex s.mode n).isLt := rfl
@[simp] theorem State.setReg_spsrs (n : Reg) (v : Word) : (s.setReg n v).spsrs = s.spsrs := rfl
@[simp] theorem State.setReg_cpsr (n : Reg) (v : Word) : (s.setReg n v).cpsr = s.cpsr := rfl
@[simp] theorem State.setReg_pc (n : Reg) (v : Word) : (s.setReg n v).pc = s.pc := rfl
@[simp] theorem State.setReg_acc0 (n : Reg) (v : Word) : (s.setReg n v).acc0 = s.acc0 := rfl
@[simp] theorem State.setReg_cp15 (n : Reg) (v : Word) : (s.setReg n v).cp15 = s.cp15 := rfl
@[simp] theorem State.setReg_pmu (n : Reg) (v : Word) : (s.setReg n v).pmu = s.pmu := rfl
@[simp] theorem State.setReg_dbg (n : Reg) (v : Word) : (s.setReg n v).dbg = s.dbg := rfl
@[simp] theorem State.setReg_err (n : Reg) (v : Word) : (s.setReg n v).err = s.err := rfl
@[simp] theorem State.setReg_pwr (n : Reg) (v : Word) : (s.setReg n v).pwr = s.pwr := rfl
@[simp] theorem State.setReg_itlb (n : Reg) (v : Word) : (s.setReg n v).itlb = s.itlb := rfl
@[simp] theorem State.setReg_dtlb (n : Reg) (v : Word) : (s.setReg n v).dtlb = s.dtlb := rfl
@[simp] theorem State.setReg_icache (n : Reg) (v : Word) : (s.setReg n v).icache = s.icache := rfl
@[simp] theorem State.setReg_btb (n : Reg) (v : Word) : (s.setReg n v).btb = s.btb := rfl
@[simp] theorem State.setReg_dcache (n : Reg) (v : Word) : (s.setReg n v).dcache = s.dcache := rfl
@[simp] theorem State.setReg_buffers (n : Reg) (v : Word) : (s.setReg n v).buffers = s.buffers := rfl
@[simp] theorem State.setReg_l2 (n : Reg) (v : Word) : (s.setReg n v).l2 = s.l2 := rfl
@[simp] theorem State.setReg_l2Out (n : Reg) (v : Word) : (s.setReg n v).l2Out = s.l2Out := rfl
@[simp] theorem State.setReg_stale (n : Reg) (v : Word) : (s.setReg n v).stale = s.stale := rfl
@[simp] theorem State.setReg_subWord (n : Reg) (v : Word) : (s.setReg n v).subWord = s.subWord := rfl
@[simp] theorem State.setReg_mem (n : Reg) (v : Word) : (s.setReg n v).mem = s.mem := rfl
@[simp] theorem State.setReg_pins (n : Reg) (v : Word) : (s.setReg n v).pins = s.pins := rfl
@[simp] theorem State.setReg_pendingAbort (n : Reg) (v : Word) : (s.setReg n v).pendingAbort = s.pendingAbort := rfl
@[simp] theorem State.setReg_note (n : Reg) (v : Word) : (s.setReg n v).note = s.note := rfl
@[simp] theorem State.setReg_free (n : Reg) (v : Word) : (s.setReg n v).free = s.free := rfl
@[simp] theorem State.setReg_schedule (n : Reg) (v : Word) : (s.setReg n v).schedule = s.schedule := rfl
@[simp] theorem State.setReg_cfg (n : Reg) (v : Word) : (s.setReg n v).cfg = s.cfg := rfl

/-! `State.setFlags` -/

@[simp] theorem State.setFlags_regs (n z c v : Bool) : (s.setFlags n z c v).regs = s.regs := rfl
@[simp] theorem State.setFlags_spsrs (n z c v : Bool) : (s.setFlags n z c v).spsrs = s.spsrs := rfl
@[simp] theorem State.setFlags_cpsr (n z c v : Bool) : (s.setFlags n z c v).cpsr = BitVec.ofBool n ++ BitVec.ofBool z ++ BitVec.ofBool c ++ BitVec.ofBool v ++ s.cpsr.extractLsb' 0 28 := rfl
@[simp] theorem State.setFlags_pc (n z c v : Bool) : (s.setFlags n z c v).pc = s.pc := rfl
@[simp] theorem State.setFlags_acc0 (n z c v : Bool) : (s.setFlags n z c v).acc0 = s.acc0 := rfl
@[simp] theorem State.setFlags_cp15 (n z c v : Bool) : (s.setFlags n z c v).cp15 = s.cp15 := rfl
@[simp] theorem State.setFlags_pmu (n z c v : Bool) : (s.setFlags n z c v).pmu = s.pmu := rfl
@[simp] theorem State.setFlags_dbg (n z c v : Bool) : (s.setFlags n z c v).dbg = s.dbg := rfl
@[simp] theorem State.setFlags_err (n z c v : Bool) : (s.setFlags n z c v).err = s.err := rfl
@[simp] theorem State.setFlags_pwr (n z c v : Bool) : (s.setFlags n z c v).pwr = s.pwr := rfl
@[simp] theorem State.setFlags_itlb (n z c v : Bool) : (s.setFlags n z c v).itlb = s.itlb := rfl
@[simp] theorem State.setFlags_dtlb (n z c v : Bool) : (s.setFlags n z c v).dtlb = s.dtlb := rfl
@[simp] theorem State.setFlags_icache (n z c v : Bool) : (s.setFlags n z c v).icache = s.icache := rfl
@[simp] theorem State.setFlags_btb (n z c v : Bool) : (s.setFlags n z c v).btb = s.btb := rfl
@[simp] theorem State.setFlags_dcache (n z c v : Bool) : (s.setFlags n z c v).dcache = s.dcache := rfl
@[simp] theorem State.setFlags_buffers (n z c v : Bool) : (s.setFlags n z c v).buffers = s.buffers := rfl
@[simp] theorem State.setFlags_l2 (n z c v : Bool) : (s.setFlags n z c v).l2 = s.l2 := rfl
@[simp] theorem State.setFlags_l2Out (n z c v : Bool) : (s.setFlags n z c v).l2Out = s.l2Out := rfl
@[simp] theorem State.setFlags_stale (n z c v : Bool) : (s.setFlags n z c v).stale = s.stale := rfl
@[simp] theorem State.setFlags_subWord (n z c v : Bool) : (s.setFlags n z c v).subWord = s.subWord := rfl
@[simp] theorem State.setFlags_mem (n z c v : Bool) : (s.setFlags n z c v).mem = s.mem := rfl
@[simp] theorem State.setFlags_pins (n z c v : Bool) : (s.setFlags n z c v).pins = s.pins := rfl
@[simp] theorem State.setFlags_pendingAbort (n z c v : Bool) : (s.setFlags n z c v).pendingAbort = s.pendingAbort := rfl
@[simp] theorem State.setFlags_note (n z c v : Bool) : (s.setFlags n z c v).note = s.note := rfl
@[simp] theorem State.setFlags_free (n z c v : Bool) : (s.setFlags n z c v).free = s.free := rfl
@[simp] theorem State.setFlags_schedule (n z c v : Bool) : (s.setFlags n z c v).schedule = s.schedule := rfl
@[simp] theorem State.setFlags_cfg (n z c v : Bool) : (s.setFlags n z c v).cfg = s.cfg := rfl

/-! `State.setNZC` -/

@[simp] theorem State.setNZC_regs (r : Word) (c : Bool) : (s.setNZC r c).regs = s.regs := rfl
@[simp] theorem State.setNZC_spsrs (r : Word) (c : Bool) : (s.setNZC r c).spsrs = s.spsrs := rfl
@[simp] theorem State.setNZC_pc (r : Word) (c : Bool) : (s.setNZC r c).pc = s.pc := rfl
@[simp] theorem State.setNZC_acc0 (r : Word) (c : Bool) : (s.setNZC r c).acc0 = s.acc0 := rfl
@[simp] theorem State.setNZC_cp15 (r : Word) (c : Bool) : (s.setNZC r c).cp15 = s.cp15 := rfl
@[simp] theorem State.setNZC_pmu (r : Word) (c : Bool) : (s.setNZC r c).pmu = s.pmu := rfl
@[simp] theorem State.setNZC_dbg (r : Word) (c : Bool) : (s.setNZC r c).dbg = s.dbg := rfl
@[simp] theorem State.setNZC_err (r : Word) (c : Bool) : (s.setNZC r c).err = s.err := rfl
@[simp] theorem State.setNZC_pwr (r : Word) (c : Bool) : (s.setNZC r c).pwr = s.pwr := rfl
@[simp] theorem State.setNZC_itlb (r : Word) (c : Bool) : (s.setNZC r c).itlb = s.itlb := rfl
@[simp] theorem State.setNZC_dtlb (r : Word) (c : Bool) : (s.setNZC r c).dtlb = s.dtlb := rfl
@[simp] theorem State.setNZC_icache (r : Word) (c : Bool) : (s.setNZC r c).icache = s.icache := rfl
@[simp] theorem State.setNZC_btb (r : Word) (c : Bool) : (s.setNZC r c).btb = s.btb := rfl
@[simp] theorem State.setNZC_dcache (r : Word) (c : Bool) : (s.setNZC r c).dcache = s.dcache := rfl
@[simp] theorem State.setNZC_buffers (r : Word) (c : Bool) : (s.setNZC r c).buffers = s.buffers := rfl
@[simp] theorem State.setNZC_l2 (r : Word) (c : Bool) : (s.setNZC r c).l2 = s.l2 := rfl
@[simp] theorem State.setNZC_l2Out (r : Word) (c : Bool) : (s.setNZC r c).l2Out = s.l2Out := rfl
@[simp] theorem State.setNZC_stale (r : Word) (c : Bool) : (s.setNZC r c).stale = s.stale := rfl
@[simp] theorem State.setNZC_subWord (r : Word) (c : Bool) : (s.setNZC r c).subWord = s.subWord := rfl
@[simp] theorem State.setNZC_mem (r : Word) (c : Bool) : (s.setNZC r c).mem = s.mem := rfl
@[simp] theorem State.setNZC_pins (r : Word) (c : Bool) : (s.setNZC r c).pins = s.pins := rfl
@[simp] theorem State.setNZC_pendingAbort (r : Word) (c : Bool) : (s.setNZC r c).pendingAbort = s.pendingAbort := rfl
@[simp] theorem State.setNZC_note (r : Word) (c : Bool) : (s.setNZC r c).note = s.note := rfl
@[simp] theorem State.setNZC_free (r : Word) (c : Bool) : (s.setNZC r c).free = s.free := rfl
@[simp] theorem State.setNZC_schedule (r : Word) (c : Bool) : (s.setNZC r c).schedule = s.schedule := rfl
@[simp] theorem State.setNZC_cfg (r : Word) (c : Bool) : (s.setNZC r c).cfg = s.cfg := rfl

/-! `State.setNZ` -/

@[simp] theorem State.setNZ_regs (r : Word) : (s.setNZ r).regs = s.regs := rfl
@[simp] theorem State.setNZ_spsrs (r : Word) : (s.setNZ r).spsrs = s.spsrs := rfl
@[simp] theorem State.setNZ_pc (r : Word) : (s.setNZ r).pc = s.pc := rfl
@[simp] theorem State.setNZ_acc0 (r : Word) : (s.setNZ r).acc0 = s.acc0 := rfl
@[simp] theorem State.setNZ_cp15 (r : Word) : (s.setNZ r).cp15 = s.cp15 := rfl
@[simp] theorem State.setNZ_pmu (r : Word) : (s.setNZ r).pmu = s.pmu := rfl
@[simp] theorem State.setNZ_dbg (r : Word) : (s.setNZ r).dbg = s.dbg := rfl
@[simp] theorem State.setNZ_err (r : Word) : (s.setNZ r).err = s.err := rfl
@[simp] theorem State.setNZ_pwr (r : Word) : (s.setNZ r).pwr = s.pwr := rfl
@[simp] theorem State.setNZ_itlb (r : Word) : (s.setNZ r).itlb = s.itlb := rfl
@[simp] theorem State.setNZ_dtlb (r : Word) : (s.setNZ r).dtlb = s.dtlb := rfl
@[simp] theorem State.setNZ_icache (r : Word) : (s.setNZ r).icache = s.icache := rfl
@[simp] theorem State.setNZ_btb (r : Word) : (s.setNZ r).btb = s.btb := rfl
@[simp] theorem State.setNZ_dcache (r : Word) : (s.setNZ r).dcache = s.dcache := rfl
@[simp] theorem State.setNZ_buffers (r : Word) : (s.setNZ r).buffers = s.buffers := rfl
@[simp] theorem State.setNZ_l2 (r : Word) : (s.setNZ r).l2 = s.l2 := rfl
@[simp] theorem State.setNZ_l2Out (r : Word) : (s.setNZ r).l2Out = s.l2Out := rfl
@[simp] theorem State.setNZ_stale (r : Word) : (s.setNZ r).stale = s.stale := rfl
@[simp] theorem State.setNZ_subWord (r : Word) : (s.setNZ r).subWord = s.subWord := rfl
@[simp] theorem State.setNZ_mem (r : Word) : (s.setNZ r).mem = s.mem := rfl
@[simp] theorem State.setNZ_pins (r : Word) : (s.setNZ r).pins = s.pins := rfl
@[simp] theorem State.setNZ_pendingAbort (r : Word) : (s.setNZ r).pendingAbort = s.pendingAbort := rfl
@[simp] theorem State.setNZ_note (r : Word) : (s.setNZ r).note = s.note := rfl
@[simp] theorem State.setNZ_free (r : Word) : (s.setNZ r).free = s.free := rfl
@[simp] theorem State.setNZ_schedule (r : Word) : (s.setNZ r).schedule = s.schedule := rfl
@[simp] theorem State.setNZ_cfg (r : Word) : (s.setNZ r).cfg = s.cfg := rfl

/-! `State.orQ` -/

@[simp] theorem State.orQ_regs (q : Bool) : (s.orQ q).regs = s.regs := by cases q <;> rfl
@[simp] theorem State.orQ_spsrs (q : Bool) : (s.orQ q).spsrs = s.spsrs := by cases q <;> rfl
@[simp] theorem State.orQ_cpsr (q : Bool) : (s.orQ q).cpsr = if q then s.cpsr ||| 0x08000000 else s.cpsr := by cases q <;> rfl
@[simp] theorem State.orQ_pc (q : Bool) : (s.orQ q).pc = s.pc := by cases q <;> rfl
@[simp] theorem State.orQ_acc0 (q : Bool) : (s.orQ q).acc0 = s.acc0 := by cases q <;> rfl
@[simp] theorem State.orQ_cp15 (q : Bool) : (s.orQ q).cp15 = s.cp15 := by cases q <;> rfl
@[simp] theorem State.orQ_pmu (q : Bool) : (s.orQ q).pmu = s.pmu := by cases q <;> rfl
@[simp] theorem State.orQ_dbg (q : Bool) : (s.orQ q).dbg = s.dbg := by cases q <;> rfl
@[simp] theorem State.orQ_err (q : Bool) : (s.orQ q).err = s.err := by cases q <;> rfl
@[simp] theorem State.orQ_pwr (q : Bool) : (s.orQ q).pwr = s.pwr := by cases q <;> rfl
@[simp] theorem State.orQ_itlb (q : Bool) : (s.orQ q).itlb = s.itlb := by cases q <;> rfl
@[simp] theorem State.orQ_dtlb (q : Bool) : (s.orQ q).dtlb = s.dtlb := by cases q <;> rfl
@[simp] theorem State.orQ_icache (q : Bool) : (s.orQ q).icache = s.icache := by cases q <;> rfl
@[simp] theorem State.orQ_btb (q : Bool) : (s.orQ q).btb = s.btb := by cases q <;> rfl
@[simp] theorem State.orQ_dcache (q : Bool) : (s.orQ q).dcache = s.dcache := by cases q <;> rfl
@[simp] theorem State.orQ_buffers (q : Bool) : (s.orQ q).buffers = s.buffers := by cases q <;> rfl
@[simp] theorem State.orQ_l2 (q : Bool) : (s.orQ q).l2 = s.l2 := by cases q <;> rfl
@[simp] theorem State.orQ_l2Out (q : Bool) : (s.orQ q).l2Out = s.l2Out := by cases q <;> rfl
@[simp] theorem State.orQ_stale (q : Bool) : (s.orQ q).stale = s.stale := by cases q <;> rfl
@[simp] theorem State.orQ_subWord (q : Bool) : (s.orQ q).subWord = s.subWord := by cases q <;> rfl
@[simp] theorem State.orQ_mem (q : Bool) : (s.orQ q).mem = s.mem := by cases q <;> rfl
@[simp] theorem State.orQ_pins (q : Bool) : (s.orQ q).pins = s.pins := by cases q <;> rfl
@[simp] theorem State.orQ_pendingAbort (q : Bool) : (s.orQ q).pendingAbort = s.pendingAbort := by cases q <;> rfl
@[simp] theorem State.orQ_note (q : Bool) : (s.orQ q).note = s.note := by cases q <;> rfl
@[simp] theorem State.orQ_free (q : Bool) : (s.orQ q).free = s.free := by cases q <;> rfl
@[simp] theorem State.orQ_schedule (q : Bool) : (s.orQ q).schedule = s.schedule := by cases q <;> rfl
@[simp] theorem State.orQ_cfg (q : Bool) : (s.orQ q).cfg = s.cfg := by cases q <;> rfl

/-! `State.setThumb` -/

@[simp] theorem State.setThumb_regs (t : Bool) : (s.setThumb t).regs = s.regs := rfl
@[simp] theorem State.setThumb_spsrs (t : Bool) : (s.setThumb t).spsrs = s.spsrs := rfl
@[simp] theorem State.setThumb_cpsr (t : Bool) : (s.setThumb t).cpsr = if t then s.cpsr ||| 0x20 else s.cpsr &&& ~~~0x20 := rfl
@[simp] theorem State.setThumb_pc (t : Bool) : (s.setThumb t).pc = s.pc := rfl
@[simp] theorem State.setThumb_acc0 (t : Bool) : (s.setThumb t).acc0 = s.acc0 := rfl
@[simp] theorem State.setThumb_cp15 (t : Bool) : (s.setThumb t).cp15 = s.cp15 := rfl
@[simp] theorem State.setThumb_pmu (t : Bool) : (s.setThumb t).pmu = s.pmu := rfl
@[simp] theorem State.setThumb_dbg (t : Bool) : (s.setThumb t).dbg = s.dbg := rfl
@[simp] theorem State.setThumb_err (t : Bool) : (s.setThumb t).err = s.err := rfl
@[simp] theorem State.setThumb_pwr (t : Bool) : (s.setThumb t).pwr = s.pwr := rfl
@[simp] theorem State.setThumb_itlb (t : Bool) : (s.setThumb t).itlb = s.itlb := rfl
@[simp] theorem State.setThumb_dtlb (t : Bool) : (s.setThumb t).dtlb = s.dtlb := rfl
@[simp] theorem State.setThumb_icache (t : Bool) : (s.setThumb t).icache = s.icache := rfl
@[simp] theorem State.setThumb_btb (t : Bool) : (s.setThumb t).btb = s.btb := rfl
@[simp] theorem State.setThumb_dcache (t : Bool) : (s.setThumb t).dcache = s.dcache := rfl
@[simp] theorem State.setThumb_buffers (t : Bool) : (s.setThumb t).buffers = s.buffers := rfl
@[simp] theorem State.setThumb_l2 (t : Bool) : (s.setThumb t).l2 = s.l2 := rfl
@[simp] theorem State.setThumb_l2Out (t : Bool) : (s.setThumb t).l2Out = s.l2Out := rfl
@[simp] theorem State.setThumb_stale (t : Bool) : (s.setThumb t).stale = s.stale := rfl
@[simp] theorem State.setThumb_subWord (t : Bool) : (s.setThumb t).subWord = s.subWord := rfl
@[simp] theorem State.setThumb_mem (t : Bool) : (s.setThumb t).mem = s.mem := rfl
@[simp] theorem State.setThumb_pins (t : Bool) : (s.setThumb t).pins = s.pins := rfl
@[simp] theorem State.setThumb_pendingAbort (t : Bool) : (s.setThumb t).pendingAbort = s.pendingAbort := rfl
@[simp] theorem State.setThumb_note (t : Bool) : (s.setThumb t).note = s.note := rfl
@[simp] theorem State.setThumb_free (t : Bool) : (s.setThumb t).free = s.free := rfl
@[simp] theorem State.setThumb_schedule (t : Bool) : (s.setThumb t).schedule = s.schedule := rfl
@[simp] theorem State.setThumb_cfg (t : Bool) : (s.setThumb t).cfg = s.cfg := rfl

/-! `State.setSpsrOf` -/

@[simp] theorem State.setSpsrOf_regs (b : Bank) (v : Word) : (s.setSpsrOf b v).regs = s.regs := by cases b <;> rfl
@[simp] theorem State.setSpsrOf_cpsr (b : Bank) (v : Word) : (s.setSpsrOf b v).cpsr = s.cpsr := by cases b <;> rfl
@[simp] theorem State.setSpsrOf_pc (b : Bank) (v : Word) : (s.setSpsrOf b v).pc = s.pc := by cases b <;> rfl
@[simp] theorem State.setSpsrOf_acc0 (b : Bank) (v : Word) : (s.setSpsrOf b v).acc0 = s.acc0 := by cases b <;> rfl
@[simp] theorem State.setSpsrOf_cp15 (b : Bank) (v : Word) : (s.setSpsrOf b v).cp15 = s.cp15 := by cases b <;> rfl
@[simp] theorem State.setSpsrOf_pmu (b : Bank) (v : Word) : (s.setSpsrOf b v).pmu = s.pmu := by cases b <;> rfl
@[simp] theorem State.setSpsrOf_dbg (b : Bank) (v : Word) : (s.setSpsrOf b v).dbg = s.dbg := by cases b <;> rfl
@[simp] theorem State.setSpsrOf_err (b : Bank) (v : Word) : (s.setSpsrOf b v).err = s.err := by cases b <;> rfl
@[simp] theorem State.setSpsrOf_pwr (b : Bank) (v : Word) : (s.setSpsrOf b v).pwr = s.pwr := by cases b <;> rfl
@[simp] theorem State.setSpsrOf_itlb (b : Bank) (v : Word) : (s.setSpsrOf b v).itlb = s.itlb := by cases b <;> rfl
@[simp] theorem State.setSpsrOf_dtlb (b : Bank) (v : Word) : (s.setSpsrOf b v).dtlb = s.dtlb := by cases b <;> rfl
@[simp] theorem State.setSpsrOf_icache (b : Bank) (v : Word) : (s.setSpsrOf b v).icache = s.icache := by cases b <;> rfl
@[simp] theorem State.setSpsrOf_btb (b : Bank) (v : Word) : (s.setSpsrOf b v).btb = s.btb := by cases b <;> rfl
@[simp] theorem State.setSpsrOf_dcache (b : Bank) (v : Word) : (s.setSpsrOf b v).dcache = s.dcache := by cases b <;> rfl
@[simp] theorem State.setSpsrOf_buffers (b : Bank) (v : Word) : (s.setSpsrOf b v).buffers = s.buffers := by cases b <;> rfl
@[simp] theorem State.setSpsrOf_l2 (b : Bank) (v : Word) : (s.setSpsrOf b v).l2 = s.l2 := by cases b <;> rfl
@[simp] theorem State.setSpsrOf_l2Out (b : Bank) (v : Word) : (s.setSpsrOf b v).l2Out = s.l2Out := by cases b <;> rfl
@[simp] theorem State.setSpsrOf_stale (b : Bank) (v : Word) : (s.setSpsrOf b v).stale = s.stale := by cases b <;> rfl
@[simp] theorem State.setSpsrOf_subWord (b : Bank) (v : Word) : (s.setSpsrOf b v).subWord = s.subWord := by cases b <;> rfl
@[simp] theorem State.setSpsrOf_mem (b : Bank) (v : Word) : (s.setSpsrOf b v).mem = s.mem := by cases b <;> rfl
@[simp] theorem State.setSpsrOf_pins (b : Bank) (v : Word) : (s.setSpsrOf b v).pins = s.pins := by cases b <;> rfl
@[simp] theorem State.setSpsrOf_pendingAbort (b : Bank) (v : Word) : (s.setSpsrOf b v).pendingAbort = s.pendingAbort := by cases b <;> rfl
@[simp] theorem State.setSpsrOf_note (b : Bank) (v : Word) : (s.setSpsrOf b v).note = s.note := by cases b <;> rfl
@[simp] theorem State.setSpsrOf_free (b : Bank) (v : Word) : (s.setSpsrOf b v).free = s.free := by cases b <;> rfl
@[simp] theorem State.setSpsrOf_schedule (b : Bank) (v : Word) : (s.setSpsrOf b v).schedule = s.schedule := by cases b <;> rfl
@[simp] theorem State.setSpsrOf_cfg (b : Bank) (v : Word) : (s.setSpsrOf b v).cfg = s.cfg := by cases b <;> rfl

/-! `State.drawn` -/

@[simp] theorem State.drawn_regs : s.drawn.regs = s.regs := rfl
@[simp] theorem State.drawn_spsrs : s.drawn.spsrs = s.spsrs := rfl
@[simp] theorem State.drawn_cpsr : s.drawn.cpsr = s.cpsr := rfl
@[simp] theorem State.drawn_pc : s.drawn.pc = s.pc := rfl
@[simp] theorem State.drawn_acc0 : s.drawn.acc0 = s.acc0 := rfl
@[simp] theorem State.drawn_cp15 : s.drawn.cp15 = s.cp15 := rfl
@[simp] theorem State.drawn_pmu : s.drawn.pmu = s.pmu := rfl
@[simp] theorem State.drawn_dbg : s.drawn.dbg = s.dbg := rfl
@[simp] theorem State.drawn_err : s.drawn.err = s.err := rfl
@[simp] theorem State.drawn_pwr : s.drawn.pwr = s.pwr := rfl
@[simp] theorem State.drawn_itlb : s.drawn.itlb = s.itlb := rfl
@[simp] theorem State.drawn_dtlb : s.drawn.dtlb = s.dtlb := rfl
@[simp] theorem State.drawn_icache : s.drawn.icache = s.icache := rfl
@[simp] theorem State.drawn_btb : s.drawn.btb = s.btb := rfl
@[simp] theorem State.drawn_dcache : s.drawn.dcache = s.dcache := rfl
@[simp] theorem State.drawn_buffers : s.drawn.buffers = s.buffers := rfl
@[simp] theorem State.drawn_l2 : s.drawn.l2 = s.l2 := rfl
@[simp] theorem State.drawn_l2Out : s.drawn.l2Out = s.l2Out := rfl
@[simp] theorem State.drawn_stale : s.drawn.stale = s.stale := rfl
@[simp] theorem State.drawn_subWord : s.drawn.subWord = s.subWord := rfl
@[simp] theorem State.drawn_mem : s.drawn.mem = s.mem := rfl
@[simp] theorem State.drawn_pins : s.drawn.pins = s.pins := rfl
@[simp] theorem State.drawn_pendingAbort : s.drawn.pendingAbort = s.pendingAbort := rfl
@[simp] theorem State.drawn_note : s.drawn.note = s.note := rfl
@[simp] theorem State.drawn_free : s.drawn.free = s.free + 1 := rfl
@[simp] theorem State.drawn_schedule : s.drawn.schedule = s.schedule := rfl
@[simp] theorem State.drawn_cfg : s.drawn.cfg = s.cfg := rfl

/-! `State.noteB` -/

@[simp] theorem State.noteB_regs : s.noteB.regs = s.regs := rfl
@[simp] theorem State.noteB_spsrs : s.noteB.spsrs = s.spsrs := rfl
@[simp] theorem State.noteB_cpsr : s.noteB.cpsr = s.cpsr := rfl
@[simp] theorem State.noteB_pc : s.noteB.pc = s.pc := rfl
@[simp] theorem State.noteB_acc0 : s.noteB.acc0 = s.acc0 := rfl
@[simp] theorem State.noteB_cp15 : s.noteB.cp15 = s.cp15 := rfl
@[simp] theorem State.noteB_pmu : s.noteB.pmu = s.pmu := rfl
@[simp] theorem State.noteB_dbg : s.noteB.dbg = s.dbg := rfl
@[simp] theorem State.noteB_err : s.noteB.err = s.err := rfl
@[simp] theorem State.noteB_pwr : s.noteB.pwr = s.pwr := rfl
@[simp] theorem State.noteB_itlb : s.noteB.itlb = s.itlb := rfl
@[simp] theorem State.noteB_dtlb : s.noteB.dtlb = s.dtlb := rfl
@[simp] theorem State.noteB_icache : s.noteB.icache = s.icache := rfl
@[simp] theorem State.noteB_btb : s.noteB.btb = s.btb := rfl
@[simp] theorem State.noteB_dcache : s.noteB.dcache = s.dcache := rfl
@[simp] theorem State.noteB_buffers : s.noteB.buffers = s.buffers := rfl
@[simp] theorem State.noteB_l2 : s.noteB.l2 = s.l2 := rfl
@[simp] theorem State.noteB_l2Out : s.noteB.l2Out = s.l2Out := rfl
@[simp] theorem State.noteB_stale : s.noteB.stale = s.stale := rfl
@[simp] theorem State.noteB_subWord : s.noteB.subWord = s.subWord := rfl
@[simp] theorem State.noteB_mem : s.noteB.mem = s.mem := rfl
@[simp] theorem State.noteB_pins : s.noteB.pins = s.pins := rfl
@[simp] theorem State.noteB_pendingAbort : s.noteB.pendingAbort = s.pendingAbort := rfl
@[simp] theorem State.noteB_note : s.noteB.note = { s.note with isB := true, isBranch := true } := rfl
@[simp] theorem State.noteB_free : s.noteB.free = s.free := rfl
@[simp] theorem State.noteB_schedule : s.noteB.schedule = s.schedule := rfl
@[simp] theorem State.noteB_cfg : s.noteB.cfg = s.cfg := rfl

/-! `State.noteBranch` -/

@[simp] theorem State.noteBranch_regs : s.noteBranch.regs = s.regs := rfl
@[simp] theorem State.noteBranch_spsrs : s.noteBranch.spsrs = s.spsrs := rfl
@[simp] theorem State.noteBranch_cpsr : s.noteBranch.cpsr = s.cpsr := rfl
@[simp] theorem State.noteBranch_pc : s.noteBranch.pc = s.pc := rfl
@[simp] theorem State.noteBranch_acc0 : s.noteBranch.acc0 = s.acc0 := rfl
@[simp] theorem State.noteBranch_cp15 : s.noteBranch.cp15 = s.cp15 := rfl
@[simp] theorem State.noteBranch_pmu : s.noteBranch.pmu = s.pmu := rfl
@[simp] theorem State.noteBranch_dbg : s.noteBranch.dbg = s.dbg := rfl
@[simp] theorem State.noteBranch_err : s.noteBranch.err = s.err := rfl
@[simp] theorem State.noteBranch_pwr : s.noteBranch.pwr = s.pwr := rfl
@[simp] theorem State.noteBranch_itlb : s.noteBranch.itlb = s.itlb := rfl
@[simp] theorem State.noteBranch_dtlb : s.noteBranch.dtlb = s.dtlb := rfl
@[simp] theorem State.noteBranch_icache : s.noteBranch.icache = s.icache := rfl
@[simp] theorem State.noteBranch_btb : s.noteBranch.btb = s.btb := rfl
@[simp] theorem State.noteBranch_dcache : s.noteBranch.dcache = s.dcache := rfl
@[simp] theorem State.noteBranch_buffers : s.noteBranch.buffers = s.buffers := rfl
@[simp] theorem State.noteBranch_l2 : s.noteBranch.l2 = s.l2 := rfl
@[simp] theorem State.noteBranch_l2Out : s.noteBranch.l2Out = s.l2Out := rfl
@[simp] theorem State.noteBranch_stale : s.noteBranch.stale = s.stale := rfl
@[simp] theorem State.noteBranch_subWord : s.noteBranch.subWord = s.subWord := rfl
@[simp] theorem State.noteBranch_mem : s.noteBranch.mem = s.mem := rfl
@[simp] theorem State.noteBranch_pins : s.noteBranch.pins = s.pins := rfl
@[simp] theorem State.noteBranch_pendingAbort : s.noteBranch.pendingAbort = s.pendingAbort := rfl
@[simp] theorem State.noteBranch_note : s.noteBranch.note = { s.note with isBranch := true } := rfl
@[simp] theorem State.noteBranch_free : s.noteBranch.free = s.free := rfl
@[simp] theorem State.noteBranch_schedule : s.noteBranch.schedule = s.schedule := rfl
@[simp] theorem State.noteBranch_cfg : s.noteBranch.cfg = s.cfg := rfl

/-! `State.noteAccess` -/

@[simp] theorem State.noteAccess_regs : s.noteAccess.regs = s.regs := rfl
@[simp] theorem State.noteAccess_spsrs : s.noteAccess.spsrs = s.spsrs := rfl
@[simp] theorem State.noteAccess_cpsr : s.noteAccess.cpsr = s.cpsr := rfl
@[simp] theorem State.noteAccess_pc : s.noteAccess.pc = s.pc := rfl
@[simp] theorem State.noteAccess_acc0 : s.noteAccess.acc0 = s.acc0 := rfl
@[simp] theorem State.noteAccess_cp15 : s.noteAccess.cp15 = s.cp15 := rfl
@[simp] theorem State.noteAccess_pmu : s.noteAccess.pmu = s.pmu := rfl
@[simp] theorem State.noteAccess_dbg : s.noteAccess.dbg = s.dbg := rfl
@[simp] theorem State.noteAccess_err : s.noteAccess.err = s.err := rfl
@[simp] theorem State.noteAccess_pwr : s.noteAccess.pwr = s.pwr := rfl
@[simp] theorem State.noteAccess_itlb : s.noteAccess.itlb = s.itlb := rfl
@[simp] theorem State.noteAccess_dtlb : s.noteAccess.dtlb = s.dtlb := rfl
@[simp] theorem State.noteAccess_icache : s.noteAccess.icache = s.icache := rfl
@[simp] theorem State.noteAccess_btb : s.noteAccess.btb = s.btb := rfl
@[simp] theorem State.noteAccess_dcache : s.noteAccess.dcache = s.dcache := rfl
@[simp] theorem State.noteAccess_buffers : s.noteAccess.buffers = s.buffers := rfl
@[simp] theorem State.noteAccess_l2 : s.noteAccess.l2 = s.l2 := rfl
@[simp] theorem State.noteAccess_l2Out : s.noteAccess.l2Out = s.l2Out := rfl
@[simp] theorem State.noteAccess_stale : s.noteAccess.stale = s.stale := rfl
@[simp] theorem State.noteAccess_subWord : s.noteAccess.subWord = s.subWord := rfl
@[simp] theorem State.noteAccess_mem : s.noteAccess.mem = s.mem := rfl
@[simp] theorem State.noteAccess_pins : s.noteAccess.pins = s.pins := rfl
@[simp] theorem State.noteAccess_pendingAbort : s.noteAccess.pendingAbort = s.pendingAbort := rfl
@[simp] theorem State.noteAccess_note : s.noteAccess.note = { s.note with accesses := s.note.accesses + 1 } := rfl
@[simp] theorem State.noteAccess_free : s.noteAccess.free = s.free := rfl
@[simp] theorem State.noteAccess_schedule : s.noteAccess.schedule = s.schedule := rfl
@[simp] theorem State.noteAccess_cfg : s.noteAccess.cfg = s.cfg := rfl

/-! `State.advance` -/

@[simp] theorem State.advance_regs : s.advance.regs = s.regs := rfl
@[simp] theorem State.advance_spsrs : s.advance.spsrs = s.spsrs := rfl
@[simp] theorem State.advance_cpsr : s.advance.cpsr = s.cpsr := rfl
@[simp] theorem State.advance_pc : s.advance.pc = s.nextPc := rfl
@[simp] theorem State.advance_acc0 : s.advance.acc0 = s.acc0 := rfl
@[simp] theorem State.advance_cp15 : s.advance.cp15 = s.cp15 := rfl
@[simp] theorem State.advance_pmu : s.advance.pmu = s.pmu := rfl
@[simp] theorem State.advance_dbg : s.advance.dbg = s.dbg := rfl
@[simp] theorem State.advance_err : s.advance.err = s.err := rfl
@[simp] theorem State.advance_pwr : s.advance.pwr = s.pwr := rfl
@[simp] theorem State.advance_itlb : s.advance.itlb = s.itlb := rfl
@[simp] theorem State.advance_dtlb : s.advance.dtlb = s.dtlb := rfl
@[simp] theorem State.advance_icache : s.advance.icache = s.icache := rfl
@[simp] theorem State.advance_btb : s.advance.btb = s.btb := rfl
@[simp] theorem State.advance_dcache : s.advance.dcache = s.dcache := rfl
@[simp] theorem State.advance_buffers : s.advance.buffers = s.buffers := rfl
@[simp] theorem State.advance_l2 : s.advance.l2 = s.l2 := rfl
@[simp] theorem State.advance_l2Out : s.advance.l2Out = s.l2Out := rfl
@[simp] theorem State.advance_stale : s.advance.stale = s.stale := rfl
@[simp] theorem State.advance_subWord : s.advance.subWord = s.subWord := rfl
@[simp] theorem State.advance_mem : s.advance.mem = s.mem := rfl
@[simp] theorem State.advance_pins : s.advance.pins = s.pins := rfl
@[simp] theorem State.advance_pendingAbort : s.advance.pendingAbort = s.pendingAbort := rfl
@[simp] theorem State.advance_note : s.advance.note = s.note := rfl
@[simp] theorem State.advance_free : s.advance.free = s.free := rfl
@[simp] theorem State.advance_schedule : s.advance.schedule = s.schedule := rfl
@[simp] theorem State.advance_cfg : s.advance.cfg = s.cfg := rfl

/-! `State.skip` -/

@[simp] theorem State.skip_regs : s.skip.regs = s.regs := rfl
@[simp] theorem State.skip_spsrs : s.skip.spsrs = s.spsrs := rfl
@[simp] theorem State.skip_cpsr : s.skip.cpsr = s.cpsr := rfl
@[simp] theorem State.skip_pc : s.skip.pc = s.nextPc := rfl
@[simp] theorem State.skip_acc0 : s.skip.acc0 = s.acc0 := rfl
@[simp] theorem State.skip_cp15 : s.skip.cp15 = s.cp15 := rfl
@[simp] theorem State.skip_pmu : s.skip.pmu = s.pmu := rfl
@[simp] theorem State.skip_dbg : s.skip.dbg = s.dbg := rfl
@[simp] theorem State.skip_err : s.skip.err = s.err := rfl
@[simp] theorem State.skip_pwr : s.skip.pwr = s.pwr := rfl
@[simp] theorem State.skip_itlb : s.skip.itlb = s.itlb := rfl
@[simp] theorem State.skip_dtlb : s.skip.dtlb = s.dtlb := rfl
@[simp] theorem State.skip_icache : s.skip.icache = s.icache := rfl
@[simp] theorem State.skip_btb : s.skip.btb = s.btb := rfl
@[simp] theorem State.skip_dcache : s.skip.dcache = s.dcache := rfl
@[simp] theorem State.skip_buffers : s.skip.buffers = s.buffers := rfl
@[simp] theorem State.skip_l2 : s.skip.l2 = s.l2 := rfl
@[simp] theorem State.skip_l2Out : s.skip.l2Out = s.l2Out := rfl
@[simp] theorem State.skip_stale : s.skip.stale = s.stale := rfl
@[simp] theorem State.skip_subWord : s.skip.subWord = s.subWord := rfl
@[simp] theorem State.skip_mem : s.skip.mem = s.mem := rfl
@[simp] theorem State.skip_pins : s.skip.pins = s.pins := rfl
@[simp] theorem State.skip_pendingAbort : s.skip.pendingAbort = s.pendingAbort := rfl
@[simp] theorem State.skip_note : s.skip.note = { s.note with failed := true } := rfl
@[simp] theorem State.skip_free : s.skip.free = s.free := rfl
@[simp] theorem State.skip_schedule : s.skip.schedule = s.schedule := rfl
@[simp] theorem State.skip_cfg : s.skip.cfg = s.cfg := rfl

/-! `State.branchDirect` -/

@[simp] theorem State.branchDirect_regs (v : Word) : (s.branchDirect v).regs = s.regs := rfl
@[simp] theorem State.branchDirect_spsrs (v : Word) : (s.branchDirect v).spsrs = s.spsrs := rfl
@[simp] theorem State.branchDirect_cpsr (v : Word) : (s.branchDirect v).cpsr = s.cpsr := rfl
@[simp] theorem State.branchDirect_pc (v : Word) : (s.branchDirect v).pc = v := rfl
@[simp] theorem State.branchDirect_acc0 (v : Word) : (s.branchDirect v).acc0 = s.acc0 := rfl
@[simp] theorem State.branchDirect_cp15 (v : Word) : (s.branchDirect v).cp15 = s.cp15 := rfl
@[simp] theorem State.branchDirect_pmu (v : Word) : (s.branchDirect v).pmu = s.pmu := rfl
@[simp] theorem State.branchDirect_dbg (v : Word) : (s.branchDirect v).dbg = s.dbg := rfl
@[simp] theorem State.branchDirect_err (v : Word) : (s.branchDirect v).err = s.err := rfl
@[simp] theorem State.branchDirect_pwr (v : Word) : (s.branchDirect v).pwr = s.pwr := rfl
@[simp] theorem State.branchDirect_itlb (v : Word) : (s.branchDirect v).itlb = s.itlb := rfl
@[simp] theorem State.branchDirect_dtlb (v : Word) : (s.branchDirect v).dtlb = s.dtlb := rfl
@[simp] theorem State.branchDirect_icache (v : Word) : (s.branchDirect v).icache = s.icache := rfl
@[simp] theorem State.branchDirect_btb (v : Word) : (s.branchDirect v).btb = s.btb := rfl
@[simp] theorem State.branchDirect_dcache (v : Word) : (s.branchDirect v).dcache = s.dcache := rfl
@[simp] theorem State.branchDirect_buffers (v : Word) : (s.branchDirect v).buffers = s.buffers := rfl
@[simp] theorem State.branchDirect_l2 (v : Word) : (s.branchDirect v).l2 = s.l2 := rfl
@[simp] theorem State.branchDirect_l2Out (v : Word) : (s.branchDirect v).l2Out = s.l2Out := rfl
@[simp] theorem State.branchDirect_stale (v : Word) : (s.branchDirect v).stale = s.stale := rfl
@[simp] theorem State.branchDirect_subWord (v : Word) : (s.branchDirect v).subWord = s.subWord := rfl
@[simp] theorem State.branchDirect_mem (v : Word) : (s.branchDirect v).mem = s.mem := rfl
@[simp] theorem State.branchDirect_pins (v : Word) : (s.branchDirect v).pins = s.pins := rfl
@[simp] theorem State.branchDirect_pendingAbort (v : Word) : (s.branchDirect v).pendingAbort = s.pendingAbort := rfl
@[simp] theorem State.branchDirect_note (v : Word) : (s.branchDirect v).note = { s.note with flow := .direct, wrotePc := true } := rfl
@[simp] theorem State.branchDirect_free (v : Word) : (s.branchDirect v).free = s.free := rfl
@[simp] theorem State.branchDirect_schedule (v : Word) : (s.branchDirect v).schedule = s.schedule := rfl
@[simp] theorem State.branchDirect_cfg (v : Word) : (s.branchDirect v).cfg = s.cfg := rfl

/-! `State.branchIndirect` -/

@[simp] theorem State.branchIndirect_regs (v : Word) : (s.branchIndirect v).regs = s.regs := rfl
@[simp] theorem State.branchIndirect_spsrs (v : Word) : (s.branchIndirect v).spsrs = s.spsrs := rfl
@[simp] theorem State.branchIndirect_cpsr (v : Word) : (s.branchIndirect v).cpsr = s.cpsr := rfl
@[simp] theorem State.branchIndirect_pc (v : Word) : (s.branchIndirect v).pc = v := rfl
@[simp] theorem State.branchIndirect_acc0 (v : Word) : (s.branchIndirect v).acc0 = s.acc0 := rfl
@[simp] theorem State.branchIndirect_cp15 (v : Word) : (s.branchIndirect v).cp15 = s.cp15 := rfl
@[simp] theorem State.branchIndirect_pmu (v : Word) : (s.branchIndirect v).pmu = s.pmu := rfl
@[simp] theorem State.branchIndirect_dbg (v : Word) : (s.branchIndirect v).dbg = s.dbg := rfl
@[simp] theorem State.branchIndirect_err (v : Word) : (s.branchIndirect v).err = s.err := rfl
@[simp] theorem State.branchIndirect_pwr (v : Word) : (s.branchIndirect v).pwr = s.pwr := rfl
@[simp] theorem State.branchIndirect_itlb (v : Word) : (s.branchIndirect v).itlb = s.itlb := rfl
@[simp] theorem State.branchIndirect_dtlb (v : Word) : (s.branchIndirect v).dtlb = s.dtlb := rfl
@[simp] theorem State.branchIndirect_icache (v : Word) : (s.branchIndirect v).icache = s.icache := rfl
@[simp] theorem State.branchIndirect_btb (v : Word) : (s.branchIndirect v).btb = s.btb := rfl
@[simp] theorem State.branchIndirect_dcache (v : Word) : (s.branchIndirect v).dcache = s.dcache := rfl
@[simp] theorem State.branchIndirect_buffers (v : Word) : (s.branchIndirect v).buffers = s.buffers := rfl
@[simp] theorem State.branchIndirect_l2 (v : Word) : (s.branchIndirect v).l2 = s.l2 := rfl
@[simp] theorem State.branchIndirect_l2Out (v : Word) : (s.branchIndirect v).l2Out = s.l2Out := rfl
@[simp] theorem State.branchIndirect_stale (v : Word) : (s.branchIndirect v).stale = s.stale := rfl
@[simp] theorem State.branchIndirect_subWord (v : Word) : (s.branchIndirect v).subWord = s.subWord := rfl
@[simp] theorem State.branchIndirect_mem (v : Word) : (s.branchIndirect v).mem = s.mem := rfl
@[simp] theorem State.branchIndirect_pins (v : Word) : (s.branchIndirect v).pins = s.pins := rfl
@[simp] theorem State.branchIndirect_pendingAbort (v : Word) : (s.branchIndirect v).pendingAbort = s.pendingAbort := rfl
@[simp] theorem State.branchIndirect_note (v : Word) : (s.branchIndirect v).note = { s.note with flow := .indirect, wrotePc := true, isBranch := true } := rfl
@[simp] theorem State.branchIndirect_free (v : Word) : (s.branchIndirect v).free = s.free := rfl
@[simp] theorem State.branchIndirect_schedule (v : Word) : (s.branchIndirect v).schedule = s.schedule := rfl
@[simp] theorem State.branchIndirect_cfg (v : Word) : (s.branchIndirect v).cfg = s.cfg := rfl

/-! `State.setTraceCount` -/

@[simp] theorem State.setTraceCount_regs (n : BitVec 4) : (s.setTraceCount n).regs = s.regs := rfl
@[simp] theorem State.setTraceCount_spsrs (n : BitVec 4) : (s.setTraceCount n).spsrs = s.spsrs := rfl
@[simp] theorem State.setTraceCount_cpsr (n : BitVec 4) : (s.setTraceCount n).cpsr = s.cpsr := rfl
@[simp] theorem State.setTraceCount_pc (n : BitVec 4) : (s.setTraceCount n).pc = s.pc := rfl
@[simp] theorem State.setTraceCount_acc0 (n : BitVec 4) : (s.setTraceCount n).acc0 = s.acc0 := rfl
@[simp] theorem State.setTraceCount_cp15 (n : BitVec 4) : (s.setTraceCount n).cp15 = s.cp15 := rfl
@[simp] theorem State.setTraceCount_pmu (n : BitVec 4) : (s.setTraceCount n).pmu = s.pmu := rfl
@[simp] theorem State.setTraceCount_dbg (n : BitVec 4) : (s.setTraceCount n).dbg = { s.dbg with tbCnt := n } := rfl
@[simp] theorem State.setTraceCount_err (n : BitVec 4) : (s.setTraceCount n).err = s.err := rfl
@[simp] theorem State.setTraceCount_pwr (n : BitVec 4) : (s.setTraceCount n).pwr = s.pwr := rfl
@[simp] theorem State.setTraceCount_itlb (n : BitVec 4) : (s.setTraceCount n).itlb = s.itlb := rfl
@[simp] theorem State.setTraceCount_dtlb (n : BitVec 4) : (s.setTraceCount n).dtlb = s.dtlb := rfl
@[simp] theorem State.setTraceCount_icache (n : BitVec 4) : (s.setTraceCount n).icache = s.icache := rfl
@[simp] theorem State.setTraceCount_btb (n : BitVec 4) : (s.setTraceCount n).btb = s.btb := rfl
@[simp] theorem State.setTraceCount_dcache (n : BitVec 4) : (s.setTraceCount n).dcache = s.dcache := rfl
@[simp] theorem State.setTraceCount_buffers (n : BitVec 4) : (s.setTraceCount n).buffers = s.buffers := rfl
@[simp] theorem State.setTraceCount_l2 (n : BitVec 4) : (s.setTraceCount n).l2 = s.l2 := rfl
@[simp] theorem State.setTraceCount_l2Out (n : BitVec 4) : (s.setTraceCount n).l2Out = s.l2Out := rfl
@[simp] theorem State.setTraceCount_stale (n : BitVec 4) : (s.setTraceCount n).stale = s.stale := rfl
@[simp] theorem State.setTraceCount_subWord (n : BitVec 4) : (s.setTraceCount n).subWord = s.subWord := rfl
@[simp] theorem State.setTraceCount_mem (n : BitVec 4) : (s.setTraceCount n).mem = s.mem := rfl
@[simp] theorem State.setTraceCount_pins (n : BitVec 4) : (s.setTraceCount n).pins = s.pins := rfl
@[simp] theorem State.setTraceCount_pendingAbort (n : BitVec 4) : (s.setTraceCount n).pendingAbort = s.pendingAbort := rfl
@[simp] theorem State.setTraceCount_note (n : BitVec 4) : (s.setTraceCount n).note = s.note := rfl
@[simp] theorem State.setTraceCount_free (n : BitVec 4) : (s.setTraceCount n).free = s.free := rfl
@[simp] theorem State.setTraceCount_schedule (n : BitVec 4) : (s.setTraceCount n).schedule = s.schedule := rfl
@[simp] theorem State.setTraceCount_cfg (n : BitVec 4) : (s.setTraceCount n).cfg = s.cfg := rfl

/-! `State.setCp15` -/

@[simp] theorem State.setCp15_regs (f : Cp15 → Cp15) : (s.setCp15 f).regs = s.regs := rfl
@[simp] theorem State.setCp15_spsrs (f : Cp15 → Cp15) : (s.setCp15 f).spsrs = s.spsrs := rfl
@[simp] theorem State.setCp15_cpsr (f : Cp15 → Cp15) : (s.setCp15 f).cpsr = s.cpsr := rfl
@[simp] theorem State.setCp15_pc (f : Cp15 → Cp15) : (s.setCp15 f).pc = s.pc := rfl
@[simp] theorem State.setCp15_acc0 (f : Cp15 → Cp15) : (s.setCp15 f).acc0 = s.acc0 := rfl
@[simp] theorem State.setCp15_cp15 (f : Cp15 → Cp15) : (s.setCp15 f).cp15 = f s.cp15 := rfl
@[simp] theorem State.setCp15_pmu (f : Cp15 → Cp15) : (s.setCp15 f).pmu = s.pmu := rfl
@[simp] theorem State.setCp15_dbg (f : Cp15 → Cp15) : (s.setCp15 f).dbg = s.dbg := rfl
@[simp] theorem State.setCp15_err (f : Cp15 → Cp15) : (s.setCp15 f).err = s.err := rfl
@[simp] theorem State.setCp15_pwr (f : Cp15 → Cp15) : (s.setCp15 f).pwr = s.pwr := rfl
@[simp] theorem State.setCp15_itlb (f : Cp15 → Cp15) : (s.setCp15 f).itlb = s.itlb := rfl
@[simp] theorem State.setCp15_dtlb (f : Cp15 → Cp15) : (s.setCp15 f).dtlb = s.dtlb := rfl
@[simp] theorem State.setCp15_icache (f : Cp15 → Cp15) : (s.setCp15 f).icache = s.icache := rfl
@[simp] theorem State.setCp15_btb (f : Cp15 → Cp15) : (s.setCp15 f).btb = s.btb := rfl
@[simp] theorem State.setCp15_dcache (f : Cp15 → Cp15) : (s.setCp15 f).dcache = s.dcache := rfl
@[simp] theorem State.setCp15_buffers (f : Cp15 → Cp15) : (s.setCp15 f).buffers = s.buffers := rfl
@[simp] theorem State.setCp15_l2 (f : Cp15 → Cp15) : (s.setCp15 f).l2 = s.l2 := rfl
@[simp] theorem State.setCp15_l2Out (f : Cp15 → Cp15) : (s.setCp15 f).l2Out = s.l2Out := rfl
@[simp] theorem State.setCp15_stale (f : Cp15 → Cp15) : (s.setCp15 f).stale = s.stale := rfl
@[simp] theorem State.setCp15_subWord (f : Cp15 → Cp15) : (s.setCp15 f).subWord = s.subWord := rfl
@[simp] theorem State.setCp15_mem (f : Cp15 → Cp15) : (s.setCp15 f).mem = s.mem := rfl
@[simp] theorem State.setCp15_pins (f : Cp15 → Cp15) : (s.setCp15 f).pins = s.pins := rfl
@[simp] theorem State.setCp15_pendingAbort (f : Cp15 → Cp15) : (s.setCp15 f).pendingAbort = s.pendingAbort := rfl
@[simp] theorem State.setCp15_note (f : Cp15 → Cp15) : (s.setCp15 f).note = s.note := rfl
@[simp] theorem State.setCp15_free (f : Cp15 → Cp15) : (s.setCp15 f).free = s.free := rfl
@[simp] theorem State.setCp15_schedule (f : Cp15 → Cp15) : (s.setCp15 f).schedule = s.schedule := rfl
@[simp] theorem State.setCp15_cfg (f : Cp15 → Cp15) : (s.setCp15 f).cfg = s.cfg := rfl

/-! `State.setPmu` -/

@[simp] theorem State.setPmu_regs (f : Pmu → Pmu) : (s.setPmu f).regs = s.regs := rfl
@[simp] theorem State.setPmu_spsrs (f : Pmu → Pmu) : (s.setPmu f).spsrs = s.spsrs := rfl
@[simp] theorem State.setPmu_cpsr (f : Pmu → Pmu) : (s.setPmu f).cpsr = s.cpsr := rfl
@[simp] theorem State.setPmu_pc (f : Pmu → Pmu) : (s.setPmu f).pc = s.pc := rfl
@[simp] theorem State.setPmu_acc0 (f : Pmu → Pmu) : (s.setPmu f).acc0 = s.acc0 := rfl
@[simp] theorem State.setPmu_cp15 (f : Pmu → Pmu) : (s.setPmu f).cp15 = s.cp15 := rfl
@[simp] theorem State.setPmu_pmu (f : Pmu → Pmu) : (s.setPmu f).pmu = f s.pmu := rfl
@[simp] theorem State.setPmu_dbg (f : Pmu → Pmu) : (s.setPmu f).dbg = s.dbg := rfl
@[simp] theorem State.setPmu_err (f : Pmu → Pmu) : (s.setPmu f).err = s.err := rfl
@[simp] theorem State.setPmu_pwr (f : Pmu → Pmu) : (s.setPmu f).pwr = s.pwr := rfl
@[simp] theorem State.setPmu_itlb (f : Pmu → Pmu) : (s.setPmu f).itlb = s.itlb := rfl
@[simp] theorem State.setPmu_dtlb (f : Pmu → Pmu) : (s.setPmu f).dtlb = s.dtlb := rfl
@[simp] theorem State.setPmu_icache (f : Pmu → Pmu) : (s.setPmu f).icache = s.icache := rfl
@[simp] theorem State.setPmu_btb (f : Pmu → Pmu) : (s.setPmu f).btb = s.btb := rfl
@[simp] theorem State.setPmu_dcache (f : Pmu → Pmu) : (s.setPmu f).dcache = s.dcache := rfl
@[simp] theorem State.setPmu_buffers (f : Pmu → Pmu) : (s.setPmu f).buffers = s.buffers := rfl
@[simp] theorem State.setPmu_l2 (f : Pmu → Pmu) : (s.setPmu f).l2 = s.l2 := rfl
@[simp] theorem State.setPmu_l2Out (f : Pmu → Pmu) : (s.setPmu f).l2Out = s.l2Out := rfl
@[simp] theorem State.setPmu_stale (f : Pmu → Pmu) : (s.setPmu f).stale = s.stale := rfl
@[simp] theorem State.setPmu_subWord (f : Pmu → Pmu) : (s.setPmu f).subWord = s.subWord := rfl
@[simp] theorem State.setPmu_mem (f : Pmu → Pmu) : (s.setPmu f).mem = s.mem := rfl
@[simp] theorem State.setPmu_pins (f : Pmu → Pmu) : (s.setPmu f).pins = s.pins := rfl
@[simp] theorem State.setPmu_pendingAbort (f : Pmu → Pmu) : (s.setPmu f).pendingAbort = s.pendingAbort := rfl
@[simp] theorem State.setPmu_note (f : Pmu → Pmu) : (s.setPmu f).note = s.note := rfl
@[simp] theorem State.setPmu_free (f : Pmu → Pmu) : (s.setPmu f).free = s.free := rfl
@[simp] theorem State.setPmu_schedule (f : Pmu → Pmu) : (s.setPmu f).schedule = s.schedule := rfl
@[simp] theorem State.setPmu_cfg (f : Pmu → Pmu) : (s.setPmu f).cfg = s.cfg := rfl

/-! `State.setDbg` -/

@[simp] theorem State.setDbg_regs (f : Debug → Debug) : (s.setDbg f).regs = s.regs := rfl
@[simp] theorem State.setDbg_spsrs (f : Debug → Debug) : (s.setDbg f).spsrs = s.spsrs := rfl
@[simp] theorem State.setDbg_cpsr (f : Debug → Debug) : (s.setDbg f).cpsr = s.cpsr := rfl
@[simp] theorem State.setDbg_pc (f : Debug → Debug) : (s.setDbg f).pc = s.pc := rfl
@[simp] theorem State.setDbg_acc0 (f : Debug → Debug) : (s.setDbg f).acc0 = s.acc0 := rfl
@[simp] theorem State.setDbg_cp15 (f : Debug → Debug) : (s.setDbg f).cp15 = s.cp15 := rfl
@[simp] theorem State.setDbg_pmu (f : Debug → Debug) : (s.setDbg f).pmu = s.pmu := rfl
@[simp] theorem State.setDbg_dbg (f : Debug → Debug) : (s.setDbg f).dbg = f s.dbg := rfl
@[simp] theorem State.setDbg_err (f : Debug → Debug) : (s.setDbg f).err = s.err := rfl
@[simp] theorem State.setDbg_pwr (f : Debug → Debug) : (s.setDbg f).pwr = s.pwr := rfl
@[simp] theorem State.setDbg_itlb (f : Debug → Debug) : (s.setDbg f).itlb = s.itlb := rfl
@[simp] theorem State.setDbg_dtlb (f : Debug → Debug) : (s.setDbg f).dtlb = s.dtlb := rfl
@[simp] theorem State.setDbg_icache (f : Debug → Debug) : (s.setDbg f).icache = s.icache := rfl
@[simp] theorem State.setDbg_btb (f : Debug → Debug) : (s.setDbg f).btb = s.btb := rfl
@[simp] theorem State.setDbg_dcache (f : Debug → Debug) : (s.setDbg f).dcache = s.dcache := rfl
@[simp] theorem State.setDbg_buffers (f : Debug → Debug) : (s.setDbg f).buffers = s.buffers := rfl
@[simp] theorem State.setDbg_l2 (f : Debug → Debug) : (s.setDbg f).l2 = s.l2 := rfl
@[simp] theorem State.setDbg_l2Out (f : Debug → Debug) : (s.setDbg f).l2Out = s.l2Out := rfl
@[simp] theorem State.setDbg_stale (f : Debug → Debug) : (s.setDbg f).stale = s.stale := rfl
@[simp] theorem State.setDbg_subWord (f : Debug → Debug) : (s.setDbg f).subWord = s.subWord := rfl
@[simp] theorem State.setDbg_mem (f : Debug → Debug) : (s.setDbg f).mem = s.mem := rfl
@[simp] theorem State.setDbg_pins (f : Debug → Debug) : (s.setDbg f).pins = s.pins := rfl
@[simp] theorem State.setDbg_pendingAbort (f : Debug → Debug) : (s.setDbg f).pendingAbort = s.pendingAbort := rfl
@[simp] theorem State.setDbg_note (f : Debug → Debug) : (s.setDbg f).note = s.note := rfl
@[simp] theorem State.setDbg_free (f : Debug → Debug) : (s.setDbg f).free = s.free := rfl
@[simp] theorem State.setDbg_schedule (f : Debug → Debug) : (s.setDbg f).schedule = s.schedule := rfl
@[simp] theorem State.setDbg_cfg (f : Debug → Debug) : (s.setDbg f).cfg = s.cfg := rfl

/-! `State.pend` -/

@[simp] theorem State.pend_regs (a : ImpreciseAbort) : (s.pend a).regs = s.regs := rfl
@[simp] theorem State.pend_spsrs (a : ImpreciseAbort) : (s.pend a).spsrs = s.spsrs := rfl
@[simp] theorem State.pend_cpsr (a : ImpreciseAbort) : (s.pend a).cpsr = s.cpsr := rfl
@[simp] theorem State.pend_pc (a : ImpreciseAbort) : (s.pend a).pc = s.pc := rfl
@[simp] theorem State.pend_acc0 (a : ImpreciseAbort) : (s.pend a).acc0 = s.acc0 := rfl
@[simp] theorem State.pend_cp15 (a : ImpreciseAbort) : (s.pend a).cp15 = s.cp15 := rfl
@[simp] theorem State.pend_pmu (a : ImpreciseAbort) : (s.pend a).pmu = s.pmu := rfl
@[simp] theorem State.pend_dbg (a : ImpreciseAbort) : (s.pend a).dbg = s.dbg := rfl
@[simp] theorem State.pend_err (a : ImpreciseAbort) : (s.pend a).err = s.err := rfl
@[simp] theorem State.pend_pwr (a : ImpreciseAbort) : (s.pend a).pwr = s.pwr := rfl
@[simp] theorem State.pend_itlb (a : ImpreciseAbort) : (s.pend a).itlb = s.itlb := rfl
@[simp] theorem State.pend_dtlb (a : ImpreciseAbort) : (s.pend a).dtlb = s.dtlb := rfl
@[simp] theorem State.pend_icache (a : ImpreciseAbort) : (s.pend a).icache = s.icache := rfl
@[simp] theorem State.pend_btb (a : ImpreciseAbort) : (s.pend a).btb = s.btb := rfl
@[simp] theorem State.pend_dcache (a : ImpreciseAbort) : (s.pend a).dcache = s.dcache := rfl
@[simp] theorem State.pend_buffers (a : ImpreciseAbort) : (s.pend a).buffers = s.buffers := rfl
@[simp] theorem State.pend_l2 (a : ImpreciseAbort) : (s.pend a).l2 = s.l2 := rfl
@[simp] theorem State.pend_l2Out (a : ImpreciseAbort) : (s.pend a).l2Out = s.l2Out := rfl
@[simp] theorem State.pend_stale (a : ImpreciseAbort) : (s.pend a).stale = s.stale := rfl
@[simp] theorem State.pend_subWord (a : ImpreciseAbort) : (s.pend a).subWord = s.subWord := rfl
@[simp] theorem State.pend_mem (a : ImpreciseAbort) : (s.pend a).mem = s.mem := rfl
@[simp] theorem State.pend_pins (a : ImpreciseAbort) : (s.pend a).pins = s.pins := rfl
@[simp] theorem State.pend_pendingAbort (a : ImpreciseAbort) : (s.pend a).pendingAbort = if s.pendingAbort = some .external then some .external else some a := rfl
@[simp] theorem State.pend_note (a : ImpreciseAbort) : (s.pend a).note = s.note := rfl
@[simp] theorem State.pend_free (a : ImpreciseAbort) : (s.pend a).free = s.free := rfl
@[simp] theorem State.pend_schedule (a : ImpreciseAbort) : (s.pend a).schedule = s.schedule := rfl
@[simp] theorem State.pend_cfg (a : ImpreciseAbort) : (s.pend a).cfg = s.cfg := rfl

/-! `State.keepView` -/

@[simp] theorem State.keepView_regs : s.keepView.regs = s.regs := rfl
@[simp] theorem State.keepView_spsrs : s.keepView.spsrs = s.spsrs := rfl
@[simp] theorem State.keepView_cpsr : s.keepView.cpsr = s.cpsr := rfl
@[simp] theorem State.keepView_pc : s.keepView.pc = s.pc := rfl
@[simp] theorem State.keepView_acc0 : s.keepView.acc0 = s.acc0 := rfl
@[simp] theorem State.keepView_cp15 : s.keepView.cp15 = s.cp15 := rfl
@[simp] theorem State.keepView_pmu : s.keepView.pmu = s.pmu := rfl
@[simp] theorem State.keepView_dbg : s.keepView.dbg = s.dbg := rfl
@[simp] theorem State.keepView_err : s.keepView.err = s.err := rfl
@[simp] theorem State.keepView_pwr : s.keepView.pwr = s.pwr := rfl
@[simp] theorem State.keepView_itlb : s.keepView.itlb = s.itlb := rfl
@[simp] theorem State.keepView_dtlb : s.keepView.dtlb = s.dtlb := rfl
@[simp] theorem State.keepView_icache : s.keepView.icache = s.icache := rfl
@[simp] theorem State.keepView_btb : s.keepView.btb = s.btb := rfl
@[simp] theorem State.keepView_dcache : s.keepView.dcache = s.dcache := rfl
@[simp] theorem State.keepView_buffers : s.keepView.buffers = s.buffers := rfl
@[simp] theorem State.keepView_l2 : s.keepView.l2 = s.l2 := rfl
@[simp] theorem State.keepView_l2Out : s.keepView.l2Out = s.l2Out := rfl
@[simp] theorem State.keepView_stale : s.keepView.stale = s.stale ++ [s.fetchView] := rfl
@[simp] theorem State.keepView_subWord : s.keepView.subWord = s.subWord := rfl
@[simp] theorem State.keepView_mem : s.keepView.mem = s.mem := rfl
@[simp] theorem State.keepView_pins : s.keepView.pins = s.pins := rfl
@[simp] theorem State.keepView_pendingAbort : s.keepView.pendingAbort = s.pendingAbort := rfl
@[simp] theorem State.keepView_note : s.keepView.note = s.note := rfl
@[simp] theorem State.keepView_free : s.keepView.free = s.free := rfl
@[simp] theorem State.keepView_schedule : s.keepView.schedule = s.schedule := rfl
@[simp] theorem State.keepView_cfg : s.keepView.cfg = s.cfg := rfl

/-! `State.markForFetch` -/

@[simp] theorem State.markForFetch_regs : s.markForFetch.regs = s.regs := rfl
@[simp] theorem State.markForFetch_spsrs : s.markForFetch.spsrs = s.spsrs := rfl
@[simp] theorem State.markForFetch_cpsr : s.markForFetch.cpsr = s.cpsr := rfl
@[simp] theorem State.markForFetch_pc : s.markForFetch.pc = s.pc := rfl
@[simp] theorem State.markForFetch_acc0 : s.markForFetch.acc0 = s.acc0 := rfl
@[simp] theorem State.markForFetch_cp15 : s.markForFetch.cp15 = s.cp15 := rfl
@[simp] theorem State.markForFetch_pmu : s.markForFetch.pmu = s.pmu := rfl
@[simp] theorem State.markForFetch_dbg : s.markForFetch.dbg = s.dbg := rfl
@[simp] theorem State.markForFetch_err : s.markForFetch.err = s.err := rfl
@[simp] theorem State.markForFetch_pwr : s.markForFetch.pwr = s.pwr := rfl
@[simp] theorem State.markForFetch_itlb : s.markForFetch.itlb = s.itlb := rfl
@[simp] theorem State.markForFetch_dtlb : s.markForFetch.dtlb = s.dtlb := rfl
@[simp] theorem State.markForFetch_icache : s.markForFetch.icache = s.icache := rfl
@[simp] theorem State.markForFetch_btb : s.markForFetch.btb = s.btb := rfl
@[simp] theorem State.markForFetch_dcache : s.markForFetch.dcache = s.dcache := rfl
@[simp] theorem State.markForFetch_buffers :
    s.markForFetch.buffers = s.buffers.map (fun e => { e with forFetch := true }) := rfl
@[simp] theorem State.markForFetch_l2 : s.markForFetch.l2 = s.l2 := rfl
@[simp] theorem State.markForFetch_l2Out :
    s.markForFetch.l2Out = s.l2Out.map (fun e => { e with forFetch := true }) := rfl
@[simp] theorem State.markForFetch_stale : s.markForFetch.stale = s.stale := rfl
@[simp] theorem State.markForFetch_subWord : s.markForFetch.subWord = s.subWord := rfl
@[simp] theorem State.markForFetch_mem : s.markForFetch.mem = s.mem := rfl
@[simp] theorem State.markForFetch_pins : s.markForFetch.pins = s.pins := rfl
@[simp] theorem State.markForFetch_pendingAbort : s.markForFetch.pendingAbort = s.pendingAbort := rfl
@[simp] theorem State.markForFetch_note : s.markForFetch.note = s.note := rfl
@[simp] theorem State.markForFetch_free : s.markForFetch.free = s.free := rfl
@[simp] theorem State.markForFetch_schedule : s.markForFetch.schedule = s.schedule := rfl
@[simp] theorem State.markForFetch_cfg : s.markForFetch.cfg = s.cfg := rfl

/-! `State.cancelled` -/

@[simp] theorem State.cancelled_regs (t : State) : (s.cancelled t).regs = s.regs := rfl
@[simp] theorem State.cancelled_spsrs (t : State) : (s.cancelled t).spsrs = s.spsrs := rfl
@[simp] theorem State.cancelled_cpsr (t : State) : (s.cancelled t).cpsr = s.cpsr := rfl
@[simp] theorem State.cancelled_pc (t : State) : (s.cancelled t).pc = s.pc := rfl
@[simp] theorem State.cancelled_acc0 (t : State) : (s.cancelled t).acc0 = s.acc0 := rfl
@[simp] theorem State.cancelled_cp15 (t : State) : (s.cancelled t).cp15 = s.cp15 := rfl
@[simp] theorem State.cancelled_pmu (t : State) : (s.cancelled t).pmu = s.pmu := rfl
@[simp] theorem State.cancelled_dbg (t : State) : (s.cancelled t).dbg = s.dbg := rfl
@[simp] theorem State.cancelled_err (t : State) : (s.cancelled t).err = t.err := rfl
@[simp] theorem State.cancelled_pwr (t : State) : (s.cancelled t).pwr = s.pwr := rfl
@[simp] theorem State.cancelled_itlb (t : State) : (s.cancelled t).itlb = s.itlb := rfl
@[simp] theorem State.cancelled_dtlb (t : State) : (s.cancelled t).dtlb = t.dtlb := rfl
@[simp] theorem State.cancelled_icache (t : State) : (s.cancelled t).icache = s.icache := rfl
@[simp] theorem State.cancelled_btb (t : State) : (s.cancelled t).btb = s.btb := rfl
@[simp] theorem State.cancelled_dcache (t : State) : (s.cancelled t).dcache = s.dcache := rfl
@[simp] theorem State.cancelled_buffers (t : State) : (s.cancelled t).buffers = s.buffers := rfl
@[simp] theorem State.cancelled_l2 (t : State) : (s.cancelled t).l2 = s.l2 := rfl
@[simp] theorem State.cancelled_l2Out (t : State) : (s.cancelled t).l2Out = s.l2Out := rfl
@[simp] theorem State.cancelled_stale (t : State) : (s.cancelled t).stale = s.stale := rfl
@[simp] theorem State.cancelled_subWord (t : State) : (s.cancelled t).subWord = s.subWord := rfl
@[simp] theorem State.cancelled_mem (t : State) : (s.cancelled t).mem = s.mem := rfl
@[simp] theorem State.cancelled_pins (t : State) : (s.cancelled t).pins = s.pins := rfl
@[simp] theorem State.cancelled_pendingAbort (t : State) : (s.cancelled t).pendingAbort = t.pendingAbort := rfl
@[simp] theorem State.cancelled_note (t : State) : (s.cancelled t).note = s.note := rfl
@[simp] theorem State.cancelled_free (t : State) : (s.cancelled t).free = t.free := rfl
@[simp] theorem State.cancelled_schedule (t : State) : (s.cancelled t).schedule = s.schedule := rfl
@[simp] theorem State.cancelled_cfg (t : State) : (s.cancelled t).cfg = s.cfg := rfl

/-! `State.setFetchCp15` -/

@[simp] theorem State.setFetchCp15_regs (f : Cp15 → Cp15) : (s.setFetchCp15 f).regs = s.regs := rfl
@[simp] theorem State.setFetchCp15_spsrs (f : Cp15 → Cp15) : (s.setFetchCp15 f).spsrs = s.spsrs := rfl
@[simp] theorem State.setFetchCp15_cpsr (f : Cp15 → Cp15) : (s.setFetchCp15 f).cpsr = s.cpsr := rfl
@[simp] theorem State.setFetchCp15_pc (f : Cp15 → Cp15) : (s.setFetchCp15 f).pc = s.pc := rfl
@[simp] theorem State.setFetchCp15_acc0 (f : Cp15 → Cp15) : (s.setFetchCp15 f).acc0 = s.acc0 := rfl
@[simp] theorem State.setFetchCp15_cp15 (f : Cp15 → Cp15) : (s.setFetchCp15 f).cp15 = f s.cp15 := rfl
@[simp] theorem State.setFetchCp15_pmu (f : Cp15 → Cp15) : (s.setFetchCp15 f).pmu = s.pmu := rfl
@[simp] theorem State.setFetchCp15_dbg (f : Cp15 → Cp15) : (s.setFetchCp15 f).dbg = s.dbg := rfl
@[simp] theorem State.setFetchCp15_err (f : Cp15 → Cp15) : (s.setFetchCp15 f).err = s.err := rfl
@[simp] theorem State.setFetchCp15_pwr (f : Cp15 → Cp15) : (s.setFetchCp15 f).pwr = s.pwr := rfl
@[simp] theorem State.setFetchCp15_itlb (f : Cp15 → Cp15) : (s.setFetchCp15 f).itlb = s.itlb := rfl
@[simp] theorem State.setFetchCp15_dtlb (f : Cp15 → Cp15) : (s.setFetchCp15 f).dtlb = s.dtlb := rfl
@[simp] theorem State.setFetchCp15_icache (f : Cp15 → Cp15) : (s.setFetchCp15 f).icache = s.icache := rfl
@[simp] theorem State.setFetchCp15_btb (f : Cp15 → Cp15) : (s.setFetchCp15 f).btb = s.btb := rfl
@[simp] theorem State.setFetchCp15_dcache (f : Cp15 → Cp15) : (s.setFetchCp15 f).dcache = s.dcache := rfl
@[simp] theorem State.setFetchCp15_buffers (f : Cp15 → Cp15) : (s.setFetchCp15 f).buffers = s.buffers := rfl
@[simp] theorem State.setFetchCp15_l2 (f : Cp15 → Cp15) : (s.setFetchCp15 f).l2 = s.l2 := rfl
@[simp] theorem State.setFetchCp15_l2Out (f : Cp15 → Cp15) : (s.setFetchCp15 f).l2Out = s.l2Out := rfl
@[simp] theorem State.setFetchCp15_stale (f : Cp15 → Cp15) : (s.setFetchCp15 f).stale = s.stale ++ [s.fetchView] := rfl
@[simp] theorem State.setFetchCp15_subWord (f : Cp15 → Cp15) : (s.setFetchCp15 f).subWord = s.subWord := rfl
@[simp] theorem State.setFetchCp15_mem (f : Cp15 → Cp15) : (s.setFetchCp15 f).mem = s.mem := rfl
@[simp] theorem State.setFetchCp15_pins (f : Cp15 → Cp15) : (s.setFetchCp15 f).pins = s.pins := rfl
@[simp] theorem State.setFetchCp15_pendingAbort (f : Cp15 → Cp15) : (s.setFetchCp15 f).pendingAbort = s.pendingAbort := rfl
@[simp] theorem State.setFetchCp15_note (f : Cp15 → Cp15) : (s.setFetchCp15 f).note = s.note := rfl
@[simp] theorem State.setFetchCp15_free (f : Cp15 → Cp15) : (s.setFetchCp15 f).free = s.free := rfl
@[simp] theorem State.setFetchCp15_schedule (f : Cp15 → Cp15) : (s.setFetchCp15 f).schedule = s.schedule := rfl
@[simp] theorem State.setFetchCp15_cfg (f : Cp15 → Cp15) : (s.setFetchCp15 f).cfg = s.cfg := rfl

/-! `State.prefetchFlush` -/

@[simp] theorem State.prefetchFlush_regs : s.prefetchFlush.regs = s.regs := rfl
@[simp] theorem State.prefetchFlush_spsrs : s.prefetchFlush.spsrs = s.spsrs := rfl
@[simp] theorem State.prefetchFlush_cpsr : s.prefetchFlush.cpsr = s.cpsr := rfl
@[simp] theorem State.prefetchFlush_pc : s.prefetchFlush.pc = s.pc := rfl
@[simp] theorem State.prefetchFlush_acc0 : s.prefetchFlush.acc0 = s.acc0 := rfl
@[simp] theorem State.prefetchFlush_cp15 : s.prefetchFlush.cp15 = s.cp15 := rfl
@[simp] theorem State.prefetchFlush_pmu : s.prefetchFlush.pmu = s.pmu := rfl
@[simp] theorem State.prefetchFlush_dbg : s.prefetchFlush.dbg = s.dbg := rfl
@[simp] theorem State.prefetchFlush_err : s.prefetchFlush.err = s.err := rfl
@[simp] theorem State.prefetchFlush_pwr : s.prefetchFlush.pwr = s.pwr := rfl
@[simp] theorem State.prefetchFlush_itlb : s.prefetchFlush.itlb = s.itlb := rfl
@[simp] theorem State.prefetchFlush_dtlb : s.prefetchFlush.dtlb = s.dtlb := rfl
@[simp] theorem State.prefetchFlush_icache : s.prefetchFlush.icache = { s.icache with buffers := [] } := rfl
@[simp] theorem State.prefetchFlush_btb : s.prefetchFlush.btb = s.btb := rfl
@[simp] theorem State.prefetchFlush_dcache : s.prefetchFlush.dcache = s.dcache := rfl
@[simp] theorem State.prefetchFlush_buffers : s.prefetchFlush.buffers = s.buffers := rfl
@[simp] theorem State.prefetchFlush_l2 : s.prefetchFlush.l2 = s.l2 := rfl
@[simp] theorem State.prefetchFlush_l2Out : s.prefetchFlush.l2Out = s.l2Out := rfl
@[simp] theorem State.prefetchFlush_stale : s.prefetchFlush.stale = [] := rfl
@[simp] theorem State.prefetchFlush_subWord : s.prefetchFlush.subWord = s.subWord := rfl
@[simp] theorem State.prefetchFlush_mem : s.prefetchFlush.mem = s.mem := rfl
@[simp] theorem State.prefetchFlush_pins : s.prefetchFlush.pins = s.pins := rfl
@[simp] theorem State.prefetchFlush_pendingAbort : s.prefetchFlush.pendingAbort = s.pendingAbort := rfl
@[simp] theorem State.prefetchFlush_note : s.prefetchFlush.note = s.note := rfl
@[simp] theorem State.prefetchFlush_free : s.prefetchFlush.free = s.free := rfl
@[simp] theorem State.prefetchFlush_schedule : s.prefetchFlush.schedule = s.schedule := rfl
@[simp] theorem State.prefetchFlush_cfg : s.prefetchFlush.cfg = s.cfg := rfl

/-! `State.settleView` -/

@[simp] theorem State.settleView_regs : s.settleView.regs = s.regs := rfl
@[simp] theorem State.settleView_spsrs : s.settleView.spsrs = s.spsrs := rfl
@[simp] theorem State.settleView_cpsr : s.settleView.cpsr = s.cpsr := rfl
@[simp] theorem State.settleView_pc : s.settleView.pc = s.pc := rfl
@[simp] theorem State.settleView_acc0 : s.settleView.acc0 = s.acc0 := rfl
@[simp] theorem State.settleView_cp15 : s.settleView.cp15 = s.cp15 := rfl
@[simp] theorem State.settleView_pmu : s.settleView.pmu = s.pmu := rfl
@[simp] theorem State.settleView_dbg : s.settleView.dbg = s.dbg := rfl
@[simp] theorem State.settleView_err : s.settleView.err = s.err := rfl
@[simp] theorem State.settleView_pwr : s.settleView.pwr = s.pwr := rfl
@[simp] theorem State.settleView_itlb : s.settleView.itlb = s.itlb := rfl
@[simp] theorem State.settleView_dtlb : s.settleView.dtlb = s.dtlb := rfl
@[simp] theorem State.settleView_icache : s.settleView.icache = s.icache := rfl
@[simp] theorem State.settleView_btb : s.settleView.btb = s.btb := rfl
@[simp] theorem State.settleView_dcache : s.settleView.dcache = s.dcache := rfl
@[simp] theorem State.settleView_buffers : s.settleView.buffers = s.buffers := rfl
@[simp] theorem State.settleView_l2 : s.settleView.l2 = s.l2 := rfl
@[simp] theorem State.settleView_l2Out : s.settleView.l2Out = s.l2Out := rfl
@[simp] theorem State.settleView_stale : s.settleView.stale = (dropSeen s.free s.stale).1 := rfl
@[simp] theorem State.settleView_subWord : s.settleView.subWord = s.subWord := rfl
@[simp] theorem State.settleView_mem : s.settleView.mem = s.mem := rfl
@[simp] theorem State.settleView_pins : s.settleView.pins = s.pins := rfl
@[simp] theorem State.settleView_pendingAbort : s.settleView.pendingAbort = s.pendingAbort := rfl
@[simp] theorem State.settleView_note : s.settleView.note = s.note := rfl
@[simp] theorem State.settleView_free : s.settleView.free = (dropSeen s.free s.stale).2 := rfl
@[simp] theorem State.settleView_schedule : s.settleView.schedule = s.schedule := rfl
@[simp] theorem State.settleView_cfg : s.settleView.cfg = s.cfg := rfl

/-! `State.asFetched` -/

@[simp] theorem State.asFetched_regs : s.asFetched.regs = s.regs := by unfold State.asFetched; split <;> rfl
@[simp] theorem State.asFetched_spsrs : s.asFetched.spsrs = s.spsrs := by unfold State.asFetched; split <;> rfl
@[simp] theorem State.asFetched_cpsr : s.asFetched.cpsr = s.cpsr := by unfold State.asFetched; split <;> rfl
@[simp] theorem State.asFetched_pc : s.asFetched.pc = s.pc := by unfold State.asFetched; split <;> rfl
@[simp] theorem State.asFetched_acc0 : s.asFetched.acc0 = s.acc0 := by unfold State.asFetched; split <;> rfl
@[simp] theorem State.asFetched_pmu : s.asFetched.pmu = s.pmu := by unfold State.asFetched; split <;> rfl
@[simp] theorem State.asFetched_dbg : s.asFetched.dbg = s.dbg := by unfold State.asFetched; split <;> rfl
@[simp] theorem State.asFetched_err : s.asFetched.err = s.err := by unfold State.asFetched; split <;> rfl
@[simp] theorem State.asFetched_pwr : s.asFetched.pwr = s.pwr := by unfold State.asFetched; split <;> rfl
@[simp] theorem State.asFetched_dtlb : s.asFetched.dtlb = s.dtlb := by unfold State.asFetched; split <;> rfl
@[simp] theorem State.asFetched_btb : s.asFetched.btb = s.btb := by unfold State.asFetched; split <;> rfl
@[simp] theorem State.asFetched_dcache : s.asFetched.dcache = s.dcache := by unfold State.asFetched; split <;> rfl
@[simp] theorem State.asFetched_buffers : s.asFetched.buffers = s.buffers := by unfold State.asFetched; split <;> rfl
@[simp] theorem State.asFetched_l2 : s.asFetched.l2 = s.l2 := by unfold State.asFetched; split <;> rfl
@[simp] theorem State.asFetched_l2Out : s.asFetched.l2Out = s.l2Out := by unfold State.asFetched; split <;> rfl
@[simp] theorem State.asFetched_stale : s.asFetched.stale = s.stale := by unfold State.asFetched; split <;> rfl
@[simp] theorem State.asFetched_subWord : s.asFetched.subWord = s.subWord := by unfold State.asFetched; split <;> rfl
@[simp] theorem State.asFetched_mem : s.asFetched.mem = s.mem := by unfold State.asFetched; split <;> rfl
@[simp] theorem State.asFetched_pins : s.asFetched.pins = s.pins := by unfold State.asFetched; split <;> rfl
@[simp] theorem State.asFetched_pendingAbort : s.asFetched.pendingAbort = s.pendingAbort := by unfold State.asFetched; split <;> rfl
@[simp] theorem State.asFetched_note : s.asFetched.note = s.note := by unfold State.asFetched; split <;> rfl
@[simp] theorem State.asFetched_free : s.asFetched.free = s.free := by unfold State.asFetched; split <;> rfl
@[simp] theorem State.asFetched_schedule : s.asFetched.schedule = s.schedule := by unfold State.asFetched; split <;> rfl
@[simp] theorem State.asFetched_cfg : s.asFetched.cfg = s.cfg := by unfold State.asFetched; split <;> rfl

/-! `State.awake` -/

@[simp] theorem State.awake_regs : s.awake.regs = s.regs := rfl
@[simp] theorem State.awake_spsrs : s.awake.spsrs = s.spsrs := rfl
@[simp] theorem State.awake_cpsr : s.awake.cpsr = s.cpsr := rfl
@[simp] theorem State.awake_pc : s.awake.pc = s.pc := rfl
@[simp] theorem State.awake_acc0 : s.awake.acc0 = s.acc0 := rfl
@[simp] theorem State.awake_cp15 : s.awake.cp15 = s.cp15 := rfl
@[simp] theorem State.awake_pmu : s.awake.pmu = s.pmu := rfl
@[simp] theorem State.awake_dbg : s.awake.dbg = s.dbg := rfl
@[simp] theorem State.awake_err : s.awake.err = s.err := rfl
@[simp] theorem State.awake_pwr : s.awake.pwr = { s.pwr with mode := 0 } := rfl
@[simp] theorem State.awake_itlb : s.awake.itlb = s.itlb := rfl
@[simp] theorem State.awake_dtlb : s.awake.dtlb = s.dtlb := rfl
@[simp] theorem State.awake_icache : s.awake.icache = s.icache := rfl
@[simp] theorem State.awake_btb : s.awake.btb = s.btb := rfl
@[simp] theorem State.awake_dcache : s.awake.dcache = s.dcache := rfl
@[simp] theorem State.awake_buffers : s.awake.buffers = s.buffers := rfl
@[simp] theorem State.awake_l2 : s.awake.l2 = s.l2 := rfl
@[simp] theorem State.awake_l2Out : s.awake.l2Out = s.l2Out := rfl
@[simp] theorem State.awake_stale : s.awake.stale = s.stale := rfl
@[simp] theorem State.awake_subWord : s.awake.subWord = s.subWord := rfl
@[simp] theorem State.awake_mem : s.awake.mem = s.mem := rfl
@[simp] theorem State.awake_pins : s.awake.pins = s.pins := rfl
@[simp] theorem State.awake_pendingAbort : s.awake.pendingAbort = s.pendingAbort := rfl
@[simp] theorem State.awake_note : s.awake.note = s.note := rfl
@[simp] theorem State.awake_free : s.awake.free = s.free := rfl
@[simp] theorem State.awake_schedule : s.awake.schedule = s.schedule := rfl
@[simp] theorem State.awake_cfg : s.awake.cfg = s.cfg := rfl

/-! `State.flushFetch` -/

@[simp] theorem State.flushFetch_regs : s.flushFetch.regs = s.regs := rfl
@[simp] theorem State.flushFetch_spsrs : s.flushFetch.spsrs = s.spsrs := rfl
@[simp] theorem State.flushFetch_cpsr : s.flushFetch.cpsr = s.cpsr := rfl
@[simp] theorem State.flushFetch_pc : s.flushFetch.pc = s.pc := rfl
@[simp] theorem State.flushFetch_acc0 : s.flushFetch.acc0 = s.acc0 := rfl
@[simp] theorem State.flushFetch_cp15 : s.flushFetch.cp15 = s.cp15 := rfl
@[simp] theorem State.flushFetch_pmu : s.flushFetch.pmu = s.pmu := rfl
@[simp] theorem State.flushFetch_dbg : s.flushFetch.dbg = s.dbg := rfl
@[simp] theorem State.flushFetch_err : s.flushFetch.err = s.err := rfl
@[simp] theorem State.flushFetch_pwr : s.flushFetch.pwr = s.pwr := rfl
@[simp] theorem State.flushFetch_itlb : s.flushFetch.itlb = s.itlb := rfl
@[simp] theorem State.flushFetch_dtlb : s.flushFetch.dtlb = s.dtlb := rfl
@[simp] theorem State.flushFetch_icache : s.flushFetch.icache = { s.icache with buffers := [] } := rfl
@[simp] theorem State.flushFetch_btb : s.flushFetch.btb = s.btb := rfl
@[simp] theorem State.flushFetch_dcache : s.flushFetch.dcache = s.dcache := rfl
@[simp] theorem State.flushFetch_buffers : s.flushFetch.buffers = s.buffers := rfl
@[simp] theorem State.flushFetch_l2 : s.flushFetch.l2 = s.l2 := rfl
@[simp] theorem State.flushFetch_l2Out : s.flushFetch.l2Out = s.l2Out := rfl
@[simp] theorem State.flushFetch_stale : s.flushFetch.stale = s.stale := rfl
@[simp] theorem State.flushFetch_subWord : s.flushFetch.subWord = s.subWord := rfl
@[simp] theorem State.flushFetch_mem : s.flushFetch.mem = s.mem := rfl
@[simp] theorem State.flushFetch_pins : s.flushFetch.pins = s.pins := rfl
@[simp] theorem State.flushFetch_pendingAbort : s.flushFetch.pendingAbort = s.pendingAbort := rfl
@[simp] theorem State.flushFetch_note : s.flushFetch.note = s.note := rfl
@[simp] theorem State.flushFetch_free : s.flushFetch.free = s.free := rfl
@[simp] theorem State.flushFetch_schedule : s.flushFetch.schedule = s.schedule := rfl
@[simp] theorem State.flushFetch_cfg : s.flushFetch.cfg = s.cfg := rfl

/-! `State.dPut` -/

@[simp] theorem State.dPut_regs (k : Nat) (l : DLine) : (s.dPut k l).regs = s.regs := rfl
@[simp] theorem State.dPut_spsrs (k : Nat) (l : DLine) : (s.dPut k l).spsrs = s.spsrs := rfl
@[simp] theorem State.dPut_cpsr (k : Nat) (l : DLine) : (s.dPut k l).cpsr = s.cpsr := rfl
@[simp] theorem State.dPut_pc (k : Nat) (l : DLine) : (s.dPut k l).pc = s.pc := rfl
@[simp] theorem State.dPut_acc0 (k : Nat) (l : DLine) : (s.dPut k l).acc0 = s.acc0 := rfl
@[simp] theorem State.dPut_cp15 (k : Nat) (l : DLine) : (s.dPut k l).cp15 = s.cp15 := rfl
@[simp] theorem State.dPut_pmu (k : Nat) (l : DLine) : (s.dPut k l).pmu = s.pmu := rfl
@[simp] theorem State.dPut_dbg (k : Nat) (l : DLine) : (s.dPut k l).dbg = s.dbg := rfl
@[simp] theorem State.dPut_err (k : Nat) (l : DLine) : (s.dPut k l).err = s.err := rfl
@[simp] theorem State.dPut_pwr (k : Nat) (l : DLine) : (s.dPut k l).pwr = s.pwr := rfl
@[simp] theorem State.dPut_itlb (k : Nat) (l : DLine) : (s.dPut k l).itlb = s.itlb := rfl
@[simp] theorem State.dPut_dtlb (k : Nat) (l : DLine) : (s.dPut k l).dtlb = s.dtlb := rfl
@[simp] theorem State.dPut_icache (k : Nat) (l : DLine) : (s.dPut k l).icache = s.icache := rfl
@[simp] theorem State.dPut_btb (k : Nat) (l : DLine) : (s.dPut k l).btb = s.btb := rfl
@[simp] theorem State.dPut_dcache (k : Nat) (l : DLine) : (s.dPut k l).dcache = { s.dcache with lines := tableSet k l s.dcache.lines } := rfl
@[simp] theorem State.dPut_buffers (k : Nat) (l : DLine) : (s.dPut k l).buffers = s.buffers := rfl
@[simp] theorem State.dPut_l2 (k : Nat) (l : DLine) : (s.dPut k l).l2 = s.l2 := rfl
@[simp] theorem State.dPut_l2Out (k : Nat) (l : DLine) : (s.dPut k l).l2Out = s.l2Out := rfl
@[simp] theorem State.dPut_stale (k : Nat) (l : DLine) : (s.dPut k l).stale = s.stale := rfl
@[simp] theorem State.dPut_subWord (k : Nat) (l : DLine) : (s.dPut k l).subWord = s.subWord := rfl
@[simp] theorem State.dPut_mem (k : Nat) (l : DLine) : (s.dPut k l).mem = s.mem := rfl
@[simp] theorem State.dPut_pins (k : Nat) (l : DLine) : (s.dPut k l).pins = s.pins := rfl
@[simp] theorem State.dPut_pendingAbort (k : Nat) (l : DLine) : (s.dPut k l).pendingAbort = s.pendingAbort := rfl
@[simp] theorem State.dPut_note (k : Nat) (l : DLine) : (s.dPut k l).note = s.note := rfl
@[simp] theorem State.dPut_free (k : Nat) (l : DLine) : (s.dPut k l).free = s.free := rfl
@[simp] theorem State.dPut_schedule (k : Nat) (l : DLine) : (s.dPut k l).schedule = s.schedule := rfl
@[simp] theorem State.dPut_cfg (k : Nat) (l : DLine) : (s.dPut k l).cfg = s.cfg := rfl

/-! `State.dDrop` -/

@[simp] theorem State.dDrop_regs (k : Nat) : (s.dDrop k).regs = s.regs := rfl
@[simp] theorem State.dDrop_spsrs (k : Nat) : (s.dDrop k).spsrs = s.spsrs := rfl
@[simp] theorem State.dDrop_cpsr (k : Nat) : (s.dDrop k).cpsr = s.cpsr := rfl
@[simp] theorem State.dDrop_pc (k : Nat) : (s.dDrop k).pc = s.pc := rfl
@[simp] theorem State.dDrop_acc0 (k : Nat) : (s.dDrop k).acc0 = s.acc0 := rfl
@[simp] theorem State.dDrop_cp15 (k : Nat) : (s.dDrop k).cp15 = s.cp15 := rfl
@[simp] theorem State.dDrop_pmu (k : Nat) : (s.dDrop k).pmu = s.pmu := rfl
@[simp] theorem State.dDrop_dbg (k : Nat) : (s.dDrop k).dbg = s.dbg := rfl
@[simp] theorem State.dDrop_err (k : Nat) : (s.dDrop k).err = s.err := rfl
@[simp] theorem State.dDrop_pwr (k : Nat) : (s.dDrop k).pwr = s.pwr := rfl
@[simp] theorem State.dDrop_itlb (k : Nat) : (s.dDrop k).itlb = s.itlb := rfl
@[simp] theorem State.dDrop_dtlb (k : Nat) : (s.dDrop k).dtlb = s.dtlb := rfl
@[simp] theorem State.dDrop_icache (k : Nat) : (s.dDrop k).icache = s.icache := rfl
@[simp] theorem State.dDrop_btb (k : Nat) : (s.dDrop k).btb = s.btb := rfl
@[simp] theorem State.dDrop_dcache (k : Nat) : (s.dDrop k).dcache = { s.dcache with lines := tableErase k s.dcache.lines } := rfl
@[simp] theorem State.dDrop_buffers (k : Nat) : (s.dDrop k).buffers = s.buffers := rfl
@[simp] theorem State.dDrop_l2 (k : Nat) : (s.dDrop k).l2 = s.l2 := rfl
@[simp] theorem State.dDrop_l2Out (k : Nat) : (s.dDrop k).l2Out = s.l2Out := rfl
@[simp] theorem State.dDrop_stale (k : Nat) : (s.dDrop k).stale = s.stale := rfl
@[simp] theorem State.dDrop_subWord (k : Nat) : (s.dDrop k).subWord = s.subWord := rfl
@[simp] theorem State.dDrop_mem (k : Nat) : (s.dDrop k).mem = s.mem := rfl
@[simp] theorem State.dDrop_pins (k : Nat) : (s.dDrop k).pins = s.pins := rfl
@[simp] theorem State.dDrop_pendingAbort (k : Nat) : (s.dDrop k).pendingAbort = s.pendingAbort := rfl
@[simp] theorem State.dDrop_note (k : Nat) : (s.dDrop k).note = s.note := rfl
@[simp] theorem State.dDrop_free (k : Nat) : (s.dDrop k).free = s.free := rfl
@[simp] theorem State.dDrop_schedule (k : Nat) : (s.dDrop k).schedule = s.schedule := rfl
@[simp] theorem State.dDrop_cfg (k : Nat) : (s.dDrop k).cfg = s.cfg := rfl

/-! `State.l2Put` -/

@[simp] theorem State.l2Put_regs (k : Nat) (l : L2Line) : (s.l2Put k l).regs = s.regs := rfl
@[simp] theorem State.l2Put_spsrs (k : Nat) (l : L2Line) : (s.l2Put k l).spsrs = s.spsrs := rfl
@[simp] theorem State.l2Put_cpsr (k : Nat) (l : L2Line) : (s.l2Put k l).cpsr = s.cpsr := rfl
@[simp] theorem State.l2Put_pc (k : Nat) (l : L2Line) : (s.l2Put k l).pc = s.pc := rfl
@[simp] theorem State.l2Put_acc0 (k : Nat) (l : L2Line) : (s.l2Put k l).acc0 = s.acc0 := rfl
@[simp] theorem State.l2Put_cp15 (k : Nat) (l : L2Line) : (s.l2Put k l).cp15 = s.cp15 := rfl
@[simp] theorem State.l2Put_pmu (k : Nat) (l : L2Line) : (s.l2Put k l).pmu = s.pmu := rfl
@[simp] theorem State.l2Put_dbg (k : Nat) (l : L2Line) : (s.l2Put k l).dbg = s.dbg := rfl
@[simp] theorem State.l2Put_err (k : Nat) (l : L2Line) : (s.l2Put k l).err = s.err := rfl
@[simp] theorem State.l2Put_pwr (k : Nat) (l : L2Line) : (s.l2Put k l).pwr = s.pwr := rfl
@[simp] theorem State.l2Put_itlb (k : Nat) (l : L2Line) : (s.l2Put k l).itlb = s.itlb := rfl
@[simp] theorem State.l2Put_dtlb (k : Nat) (l : L2Line) : (s.l2Put k l).dtlb = s.dtlb := rfl
@[simp] theorem State.l2Put_icache (k : Nat) (l : L2Line) : (s.l2Put k l).icache = s.icache := rfl
@[simp] theorem State.l2Put_btb (k : Nat) (l : L2Line) : (s.l2Put k l).btb = s.btb := rfl
@[simp] theorem State.l2Put_dcache (k : Nat) (l : L2Line) : (s.l2Put k l).dcache = s.dcache := rfl
@[simp] theorem State.l2Put_buffers (k : Nat) (l : L2Line) : (s.l2Put k l).buffers = s.buffers := rfl
@[simp] theorem State.l2Put_l2 (k : Nat) (l : L2Line) : (s.l2Put k l).l2 = { s.l2 with lines := tableSet k l s.l2.lines } := rfl
@[simp] theorem State.l2Put_l2Out (k : Nat) (l : L2Line) : (s.l2Put k l).l2Out = s.l2Out := rfl
@[simp] theorem State.l2Put_stale (k : Nat) (l : L2Line) : (s.l2Put k l).stale = s.stale := rfl
@[simp] theorem State.l2Put_subWord (k : Nat) (l : L2Line) : (s.l2Put k l).subWord = s.subWord := rfl
@[simp] theorem State.l2Put_mem (k : Nat) (l : L2Line) : (s.l2Put k l).mem = s.mem := rfl
@[simp] theorem State.l2Put_pins (k : Nat) (l : L2Line) : (s.l2Put k l).pins = s.pins := rfl
@[simp] theorem State.l2Put_pendingAbort (k : Nat) (l : L2Line) : (s.l2Put k l).pendingAbort = s.pendingAbort := rfl
@[simp] theorem State.l2Put_note (k : Nat) (l : L2Line) : (s.l2Put k l).note = s.note := rfl
@[simp] theorem State.l2Put_free (k : Nat) (l : L2Line) : (s.l2Put k l).free = s.free := rfl
@[simp] theorem State.l2Put_schedule (k : Nat) (l : L2Line) : (s.l2Put k l).schedule = s.schedule := rfl
@[simp] theorem State.l2Put_cfg (k : Nat) (l : L2Line) : (s.l2Put k l).cfg = s.cfg := rfl

/-! `State.invalidateBtb` -/

@[simp] theorem State.invalidateBtb_regs : s.invalidateBtb.regs = s.regs := rfl
@[simp] theorem State.invalidateBtb_spsrs : s.invalidateBtb.spsrs = s.spsrs := rfl
@[simp] theorem State.invalidateBtb_cpsr : s.invalidateBtb.cpsr = s.cpsr := rfl
@[simp] theorem State.invalidateBtb_pc : s.invalidateBtb.pc = s.pc := rfl
@[simp] theorem State.invalidateBtb_acc0 : s.invalidateBtb.acc0 = s.acc0 := rfl
@[simp] theorem State.invalidateBtb_cp15 : s.invalidateBtb.cp15 = s.cp15 := rfl
@[simp] theorem State.invalidateBtb_pmu : s.invalidateBtb.pmu = s.pmu := rfl
@[simp] theorem State.invalidateBtb_dbg : s.invalidateBtb.dbg = s.dbg := rfl
@[simp] theorem State.invalidateBtb_err : s.invalidateBtb.err = s.err := rfl
@[simp] theorem State.invalidateBtb_pwr : s.invalidateBtb.pwr = s.pwr := rfl
@[simp] theorem State.invalidateBtb_itlb : s.invalidateBtb.itlb = s.itlb := rfl
@[simp] theorem State.invalidateBtb_dtlb : s.invalidateBtb.dtlb = s.dtlb := rfl
@[simp] theorem State.invalidateBtb_icache : s.invalidateBtb.icache = s.icache := rfl
@[simp] theorem State.invalidateBtb_btb : s.invalidateBtb.btb = [] := rfl
@[simp] theorem State.invalidateBtb_dcache : s.invalidateBtb.dcache = s.dcache := rfl
@[simp] theorem State.invalidateBtb_buffers : s.invalidateBtb.buffers = s.buffers := rfl
@[simp] theorem State.invalidateBtb_l2 : s.invalidateBtb.l2 = s.l2 := rfl
@[simp] theorem State.invalidateBtb_l2Out : s.invalidateBtb.l2Out = s.l2Out := rfl
@[simp] theorem State.invalidateBtb_stale : s.invalidateBtb.stale = s.stale := rfl
@[simp] theorem State.invalidateBtb_subWord : s.invalidateBtb.subWord = s.subWord := rfl
@[simp] theorem State.invalidateBtb_mem : s.invalidateBtb.mem = s.mem := rfl
@[simp] theorem State.invalidateBtb_pins : s.invalidateBtb.pins = s.pins := rfl
@[simp] theorem State.invalidateBtb_pendingAbort : s.invalidateBtb.pendingAbort = s.pendingAbort := rfl
@[simp] theorem State.invalidateBtb_note : s.invalidateBtb.note = s.note := rfl
@[simp] theorem State.invalidateBtb_free : s.invalidateBtb.free = s.free := rfl
@[simp] theorem State.invalidateBtb_schedule : s.invalidateBtb.schedule = s.schedule := rfl
@[simp] theorem State.invalidateBtb_cfg : s.invalidateBtb.cfg = s.cfg := rfl

/-! `State.accumulate` -/

@[simp] theorem State.accumulate_regs (p : Int) : (s.accumulate p).regs = s.regs := rfl
@[simp] theorem State.accumulate_spsrs (p : Int) : (s.accumulate p).spsrs = s.spsrs := rfl
@[simp] theorem State.accumulate_cpsr (p : Int) : (s.accumulate p).cpsr = s.cpsr := rfl
@[simp] theorem State.accumulate_pc (p : Int) : (s.accumulate p).pc = s.pc := rfl
@[simp] theorem State.accumulate_acc0 (p : Int) : (s.accumulate p).acc0 = BitVec.ofInt 40 (p + s.acc0.toInt) := rfl
@[simp] theorem State.accumulate_cp15 (p : Int) : (s.accumulate p).cp15 = s.cp15 := rfl
@[simp] theorem State.accumulate_pmu (p : Int) : (s.accumulate p).pmu = s.pmu := rfl
@[simp] theorem State.accumulate_dbg (p : Int) : (s.accumulate p).dbg = s.dbg := rfl
@[simp] theorem State.accumulate_err (p : Int) : (s.accumulate p).err = s.err := rfl
@[simp] theorem State.accumulate_pwr (p : Int) : (s.accumulate p).pwr = s.pwr := rfl
@[simp] theorem State.accumulate_itlb (p : Int) : (s.accumulate p).itlb = s.itlb := rfl
@[simp] theorem State.accumulate_dtlb (p : Int) : (s.accumulate p).dtlb = s.dtlb := rfl
@[simp] theorem State.accumulate_icache (p : Int) : (s.accumulate p).icache = s.icache := rfl
@[simp] theorem State.accumulate_btb (p : Int) : (s.accumulate p).btb = s.btb := rfl
@[simp] theorem State.accumulate_dcache (p : Int) : (s.accumulate p).dcache = s.dcache := rfl
@[simp] theorem State.accumulate_buffers (p : Int) : (s.accumulate p).buffers = s.buffers := rfl
@[simp] theorem State.accumulate_l2 (p : Int) : (s.accumulate p).l2 = s.l2 := rfl
@[simp] theorem State.accumulate_l2Out (p : Int) : (s.accumulate p).l2Out = s.l2Out := rfl
@[simp] theorem State.accumulate_stale (p : Int) : (s.accumulate p).stale = s.stale := rfl
@[simp] theorem State.accumulate_subWord (p : Int) : (s.accumulate p).subWord = s.subWord := rfl
@[simp] theorem State.accumulate_mem (p : Int) : (s.accumulate p).mem = s.mem := rfl
@[simp] theorem State.accumulate_pins (p : Int) : (s.accumulate p).pins = s.pins := rfl
@[simp] theorem State.accumulate_pendingAbort (p : Int) : (s.accumulate p).pendingAbort = s.pendingAbort := rfl
@[simp] theorem State.accumulate_note (p : Int) : (s.accumulate p).note = s.note := rfl
@[simp] theorem State.accumulate_free (p : Int) : (s.accumulate p).free = s.free := rfl
@[simp] theorem State.accumulate_schedule (p : Int) : (s.accumulate p).schedule = s.schedule := rfl
@[simp] theorem State.accumulate_cfg (p : Int) : (s.accumulate p).cfg = s.cfg := rfl

/-! `State.mapITlb` -/

@[simp] theorem State.mapITlb_regs (f : Tlb → Tlb) : (s.mapITlb f).regs = s.regs := rfl
@[simp] theorem State.mapITlb_spsrs (f : Tlb → Tlb) : (s.mapITlb f).spsrs = s.spsrs := rfl
@[simp] theorem State.mapITlb_cpsr (f : Tlb → Tlb) : (s.mapITlb f).cpsr = s.cpsr := rfl
@[simp] theorem State.mapITlb_pc (f : Tlb → Tlb) : (s.mapITlb f).pc = s.pc := rfl
@[simp] theorem State.mapITlb_acc0 (f : Tlb → Tlb) : (s.mapITlb f).acc0 = s.acc0 := rfl
@[simp] theorem State.mapITlb_cp15 (f : Tlb → Tlb) : (s.mapITlb f).cp15 = s.cp15 := rfl
@[simp] theorem State.mapITlb_pmu (f : Tlb → Tlb) : (s.mapITlb f).pmu = s.pmu := rfl
@[simp] theorem State.mapITlb_dbg (f : Tlb → Tlb) : (s.mapITlb f).dbg = s.dbg := rfl
@[simp] theorem State.mapITlb_err (f : Tlb → Tlb) : (s.mapITlb f).err = s.err := rfl
@[simp] theorem State.mapITlb_pwr (f : Tlb → Tlb) : (s.mapITlb f).pwr = s.pwr := rfl
@[simp] theorem State.mapITlb_itlb (f : Tlb → Tlb) : (s.mapITlb f).itlb = f s.itlb := rfl
@[simp] theorem State.mapITlb_dtlb (f : Tlb → Tlb) : (s.mapITlb f).dtlb = s.dtlb := rfl
@[simp] theorem State.mapITlb_icache (f : Tlb → Tlb) : (s.mapITlb f).icache = s.icache := rfl
@[simp] theorem State.mapITlb_btb (f : Tlb → Tlb) : (s.mapITlb f).btb = s.btb := rfl
@[simp] theorem State.mapITlb_dcache (f : Tlb → Tlb) : (s.mapITlb f).dcache = s.dcache := rfl
@[simp] theorem State.mapITlb_buffers (f : Tlb → Tlb) : (s.mapITlb f).buffers = s.buffers := rfl
@[simp] theorem State.mapITlb_l2 (f : Tlb → Tlb) : (s.mapITlb f).l2 = s.l2 := rfl
@[simp] theorem State.mapITlb_l2Out (f : Tlb → Tlb) : (s.mapITlb f).l2Out = s.l2Out := rfl
@[simp] theorem State.mapITlb_stale (f : Tlb → Tlb) : (s.mapITlb f).stale = s.stale := rfl
@[simp] theorem State.mapITlb_subWord (f : Tlb → Tlb) : (s.mapITlb f).subWord = s.subWord := rfl
@[simp] theorem State.mapITlb_mem (f : Tlb → Tlb) : (s.mapITlb f).mem = s.mem := rfl
@[simp] theorem State.mapITlb_pins (f : Tlb → Tlb) : (s.mapITlb f).pins = s.pins := rfl
@[simp] theorem State.mapITlb_pendingAbort (f : Tlb → Tlb) : (s.mapITlb f).pendingAbort = s.pendingAbort := rfl
@[simp] theorem State.mapITlb_note (f : Tlb → Tlb) : (s.mapITlb f).note = s.note := rfl
@[simp] theorem State.mapITlb_free (f : Tlb → Tlb) : (s.mapITlb f).free = s.free := rfl
@[simp] theorem State.mapITlb_schedule (f : Tlb → Tlb) : (s.mapITlb f).schedule = s.schedule := rfl
@[simp] theorem State.mapITlb_cfg (f : Tlb → Tlb) : (s.mapITlb f).cfg = s.cfg := rfl

/-! `State.mapDTlb` -/

@[simp] theorem State.mapDTlb_regs (f : Tlb → Tlb) : (s.mapDTlb f).regs = s.regs := rfl
@[simp] theorem State.mapDTlb_spsrs (f : Tlb → Tlb) : (s.mapDTlb f).spsrs = s.spsrs := rfl
@[simp] theorem State.mapDTlb_cpsr (f : Tlb → Tlb) : (s.mapDTlb f).cpsr = s.cpsr := rfl
@[simp] theorem State.mapDTlb_pc (f : Tlb → Tlb) : (s.mapDTlb f).pc = s.pc := rfl
@[simp] theorem State.mapDTlb_acc0 (f : Tlb → Tlb) : (s.mapDTlb f).acc0 = s.acc0 := rfl
@[simp] theorem State.mapDTlb_cp15 (f : Tlb → Tlb) : (s.mapDTlb f).cp15 = s.cp15 := rfl
@[simp] theorem State.mapDTlb_pmu (f : Tlb → Tlb) : (s.mapDTlb f).pmu = s.pmu := rfl
@[simp] theorem State.mapDTlb_dbg (f : Tlb → Tlb) : (s.mapDTlb f).dbg = s.dbg := rfl
@[simp] theorem State.mapDTlb_err (f : Tlb → Tlb) : (s.mapDTlb f).err = s.err := rfl
@[simp] theorem State.mapDTlb_pwr (f : Tlb → Tlb) : (s.mapDTlb f).pwr = s.pwr := rfl
@[simp] theorem State.mapDTlb_itlb (f : Tlb → Tlb) : (s.mapDTlb f).itlb = s.itlb := rfl
@[simp] theorem State.mapDTlb_dtlb (f : Tlb → Tlb) : (s.mapDTlb f).dtlb = f s.dtlb := rfl
@[simp] theorem State.mapDTlb_icache (f : Tlb → Tlb) : (s.mapDTlb f).icache = s.icache := rfl
@[simp] theorem State.mapDTlb_btb (f : Tlb → Tlb) : (s.mapDTlb f).btb = s.btb := rfl
@[simp] theorem State.mapDTlb_dcache (f : Tlb → Tlb) : (s.mapDTlb f).dcache = s.dcache := rfl
@[simp] theorem State.mapDTlb_buffers (f : Tlb → Tlb) : (s.mapDTlb f).buffers = s.buffers := rfl
@[simp] theorem State.mapDTlb_l2 (f : Tlb → Tlb) : (s.mapDTlb f).l2 = s.l2 := rfl
@[simp] theorem State.mapDTlb_l2Out (f : Tlb → Tlb) : (s.mapDTlb f).l2Out = s.l2Out := rfl
@[simp] theorem State.mapDTlb_stale (f : Tlb → Tlb) : (s.mapDTlb f).stale = s.stale := rfl
@[simp] theorem State.mapDTlb_subWord (f : Tlb → Tlb) : (s.mapDTlb f).subWord = s.subWord := rfl
@[simp] theorem State.mapDTlb_mem (f : Tlb → Tlb) : (s.mapDTlb f).mem = s.mem := rfl
@[simp] theorem State.mapDTlb_pins (f : Tlb → Tlb) : (s.mapDTlb f).pins = s.pins := rfl
@[simp] theorem State.mapDTlb_pendingAbort (f : Tlb → Tlb) : (s.mapDTlb f).pendingAbort = s.pendingAbort := rfl
@[simp] theorem State.mapDTlb_note (f : Tlb → Tlb) : (s.mapDTlb f).note = s.note := rfl
@[simp] theorem State.mapDTlb_free (f : Tlb → Tlb) : (s.mapDTlb f).free = s.free := rfl
@[simp] theorem State.mapDTlb_schedule (f : Tlb → Tlb) : (s.mapDTlb f).schedule = s.schedule := rfl
@[simp] theorem State.mapDTlb_cfg (f : Tlb → Tlb) : (s.mapDTlb f).cfg = s.cfg := rfl

end Sys2Proof.Machine
end

