-- ==== Sys2Proof/Laws/MemSide.lean ====
section
/-!
SUPPORT. What the memory system can change: one lemma for each shared operation of Machine/Mmu.lean,
Machine/Caches.lean and the coprocessor loads and stores. The registers, the status registers, the pc, the accumulator,
CP15, the counters, the branch target buffer, the views of earlier fetches, the pins and the platform are never touched, and memory stays in its
canonical form.
-/
namespace Sys2Proof.Machine

/-- `t` is what a memory operation may leave of `s`. -/
structure MemSide (s t : State) : Prop where
  regs     : t.regs = s.regs
  spsrs    : t.spsrs = s.spsrs
  cpsr     : t.cpsr = s.cpsr
  pc       : t.pc = s.pc
  acc0     : t.acc0 = s.acc0
  cp15     : t.cp15 = s.cp15
  pmu      : t.pmu = s.pmu
  pwr      : t.pwr = s.pwr
  btb      : t.btb = s.btb
  pins     : t.pins = s.pins
  schedule : t.schedule = s.schedule
  cfg      : t.cfg = s.cfg
  stale    : t.stale = s.stale
  subWord  : s.subWord = true → t.subWord = true
  dbg      : t.dbg = { s.dbg with hit := t.dbg.hit }
  note     : t.note = { s.note with accesses := t.note.accesses }
  mem      : Memory.wf s.mem = true → Memory.wf t.mem = true

theorem MemSide.refl (s : State) : MemSide s s := by
  constructor <;> first | rfl | exact id

theorem MemSide.trans {s t u : State} (h : MemSide s t) (k : MemSide t u) : MemSide s u where
  regs := k.regs.trans h.regs
  spsrs := k.spsrs.trans h.spsrs
  cpsr := k.cpsr.trans h.cpsr
  pc := k.pc.trans h.pc
  acc0 := k.acc0.trans h.acc0
  cp15 := k.cp15.trans h.cp15
  pmu := k.pmu.trans h.pmu
  pwr := k.pwr.trans h.pwr
  btb := k.btb.trans h.btb
  pins := k.pins.trans h.pins
  schedule := k.schedule.trans h.schedule
  cfg := k.cfg.trans h.cfg
  stale := k.stale.trans h.stale
  subWord := fun w => k.subWord (h.subWord w)
  dbg := by rw [k.dbg, h.dbg]
  note := by rw [k.note, h.note]
  mem := fun w => k.mem (h.mem w)

/-- What an access that is cancelled leaves. -/
theorem memSide_onlyErrors (s s1 : State) : MemSide s (s.onlyErrors s1) := by
  constructor <;> first | rfl | exact id

/-- What a PLD that is cancelled leaves. -/
theorem memSide_cancelled (s s1 : State) : MemSide s (s.cancelled s1) := by
  constructor <;> first | rfl | exact id

/-- The state an operation leaves, whether it ends with a value or not. -/
def leaves {α : Type} : EStateM.Result Stop State α → State
  | .ok _ t => t
  | .error _ t => t

/-- An operation run from `s` stays on the memory side. -/
def SideAt {α : Type} (m : Exec α) (s : State) : Prop := MemSide s (leaves (m s))

/-- An operation that stays on the memory side from every state. -/
def Side {α : Type} (m : Exec α) : Prop := ∀ s, SideAt m s

theorem Side.ok {α : Type} {m : Exec α} (h : Side m) {s t : State} {a : α} (e : m s = .ok a t) :
    MemSide s t := by have := h s; rwa [SideAt, e] at this

theorem Side.error {α : Type} {m : Exec α} (h : Side m) {s t : State} {e : Stop} (k : m s = .error e t) :
    MemSide s t := by have := h s; rwa [SideAt, k] at this

theorem sideAt_pure {α : Type} (a : α) (s : State) : SideAt (pure a : Exec α) s := MemSide.refl s

theorem sideAt_throw {α : Type} (e : Stop) (s : State) : SideAt (throw e : Exec α) s := MemSide.refl s

theorem sideAt_modify {f : State → State} {s : State} (h : MemSide s (f s)) :
    SideAt (modify f : Exec Unit) s := h

theorem sideAt_set {s t : State} (h : MemSide s t) : SideAt (set t : Exec Unit) s := h

theorem sideAt_bind {α β : Type} {m : Exec α} {k : α → Exec β} {s : State} (hm : SideAt m s)
    (hk : ∀ a t, m s = .ok a t → SideAt (k a) t) : SideAt (m >>= k) s := by
  unfold SideAt at *
  simp only [bind, EStateM.bind]
  cases e : m s with
  | ok a t => rw [e] at hm; exact hm.trans (hk a t e)
  | error x t => rw [e] at hm; exact hm

theorem sideAt_get {β : Type} {k : State → Exec β} {s : State} (h : SideAt (k s) s) :
    SideAt (get >>= k) s := h

theorem sideAt_set_bind {β : Type} {k : Unit → Exec β} {s t : State} (h : MemSide s t)
    (hk : SideAt (k ()) t) : SideAt ((set t : Exec Unit) >>= k) s := MemSide.trans h hk

theorem sideAt_modify_bind {β : Type} {f : State → State} {k : Unit → Exec β} {s : State}
    (h : MemSide s (f s)) (hk : SideAt (k ()) (f s)) : SideAt ((modify f : Exec Unit) >>= k) s :=
  MemSide.trans h hk

theorem sideAt_require (c : Bool) (r : Refusal) (s : State) : SideAt (require c r) s := by
  cases c <;> exact MemSide.refl s

theorem sideAt_draw (w : Nat) (s : State) : SideAt (draw w) s := by
  constructor <;> first | rfl | exact id

theorem Side.bind {α β : Type} {m : Exec α} {k : α → Exec β} (hm : Side m) (hk : ∀ a, Side (k a)) :
    Side (m >>= k) := fun s => sideAt_bind (hm s) fun a t _ => hk a t

/-! Updates that no register, no control field and no canonical form depends on -/

theorem memSide_free (s : State) (n : Nat) : MemSide s { s with free := n } := by
  constructor <;> first | rfl | exact id

theorem memSide_access (s : State) : MemSide s s.noteAccess := by
  constructor <;> first | rfl | exact id

theorem memSide_err (s : State) (e : ErrorLog) : MemSide s { s with err := e } := by
  constructor <;> first | rfl | exact id

theorem memSide_drawn (s : State) : MemSide s s.drawn := memSide_free s _

theorem memSide_pend (s : State) (a : ImpreciseAbort) : MemSide s (s.pend a) := by
  constructor <;> first | rfl | exact id

theorem memSide_l2Out (s : State) (o : List OutEntry) : MemSide s { s with l2Out := o } := by
  constructor <;> first | rfl | exact id

theorem memSide_l2 (s : State) (c : L2Cache) : MemSide s { s with l2 := c } := by
  constructor <;> first | rfl | exact id

theorem memSide_dcache (s : State) (c : DCache) : MemSide s { s with dcache := c } := by
  constructor <;> first | rfl | exact id

theorem memSide_icache (s : State) (c : ICache) : MemSide s { s with icache := c } := by
  constructor <;> first | rfl | exact id

theorem memSide_buffers (s : State) (b : List BufEntry) : MemSide s { s with buffers := b } := by
  constructor <;> first | rfl | exact id

theorem memSide_itlb (s : State) (t : Tlb) : MemSide s { s with itlb := t } := by
  constructor <;> first | rfl | exact id

theorem memSide_dtlb (s : State) (t : Tlb) : MemSide s { s with dtlb := t } := by
  constructor <;> first | rfl | exact id

theorem memSide_watch (s : State) (st : Bool) (a : Word) (n : Nat) : MemSide s (s.watch st a n) := by
  unfold State.watch
  dsimp only
  split <;> (constructor <;> first | rfl | exact id | exact fun h => by simp [h])

/-! The bus and the L2 -/

theorem memSide_logError (s : State) (b : BitVec 8) (a : Option (BitVec 36)) :
    MemSide s (s.logError b a) := by
  unfold State.logError; split <;> exact memSide_err s _

theorem memSide_logBusError (s : State) (b : BitVec 8) (a : BitVec 36) : MemSide s (s.logBusError b a) :=
  memSide_logError s b _

theorem memSide_look (s : State) (b : Block) : MemSide s (s.look b).2 := by
  unfold State.look; split
  · exact MemSide.refl s
  · exact memSide_drawn s

theorem memSide_busReadLine (s : State) (a : BitVec 36) : MemSide s (s.busReadLine a).2 := by
  unfold State.busReadLine; split
  · exact MemSide.refl s
  · exact memSide_logBusError s _ a

theorem memSide_busPut (s : State) (l : BitVec 31) (m u : BitVec 32) (d : BitVec 256) :
    MemSide s (s.busPut l m u d) := by
  unfold State.busPut; split
  · refine (memSide_look s { data := d, unk := m &&& u }).trans ?_
    constructor <;> first | rfl | exact id | exact memWriteLine_wf l m _
  · exact (memSide_logBusError s _ _).trans (memSide_pend _ _)

/-- A fold of operations that each stay on the memory side. -/
theorem memSide_foldl {α : Type} {f : State → α → State} (hf : ∀ s e, MemSide s (f s e)) (es : List α) {s t : State}
    (h : MemSide s t) : MemSide s (es.foldl f t) := by
  induction es generalizing t with
  | nil => exact h
  | cons e es ih => exact ih (h.trans (hf t e))

theorem memSide_issueOut (s : State) (e : OutEntry) : MemSide s (s.issueOut e) := memSide_busPut s _ _ _ _

theorem memSide_releaseOutWhere (s : State) (out : OutEntry → Bool) : MemSide s (s.releaseOutWhere out) :=
  memSide_foldl memSide_issueOut _ (memSide_l2Out s _)

theorem memSide_releaseOut (s : State) (l : BitVec 31) : MemSide s (s.releaseOut l) := memSide_releaseOutWhere s _

theorem memSide_busWriteLine (s : State) (l : BitVec 31) (m u : BitVec 32) (d : BitVec 256) :
    MemSide s (s.busWriteLine l m u d) := (memSide_releaseOut s l).trans (memSide_busPut _ l m u d)

theorem memSide_l2Touch (s : State) (k : Nat) : MemSide s (s.l2Touch k) := memSide_l2 s _

theorem memSide_l2Put (s : State) (k : Nat) (l : L2Line) : MemSide s (s.l2Put k l) := memSide_l2 s _

theorem memSide_l2Drop (s : State) (k : Nat) : MemSide s (s.l2Drop k) := memSide_l2 s _

theorem memSide_l2Correct (s : State) (k : Nat) (l : L2Line) : MemSide s (s.l2Correct k l) := by
  unfold State.l2Correct; split
  · exact (memSide_l2Put s k _).trans (memSide_err _ _)
  · exact MemSide.refl s

theorem memSide_l2Error (s : State) (k : Nat) (l : L2Line) : MemSide s (s.l2Error k l).1 := by
  unfold State.l2Error
  dsimp only
  split
  · exact memSide_l2Correct s k l
  · exact (memSide_l2Correct s k l).trans (memSide_logError (s.l2Correct k l) l.err.bits none)

theorem memSide_l2WriteBack (s : State) (k : Nat) (l : L2Line) : MemSide s (s.l2WriteBack k l) := by
  have h := memSide_l2Error s k l
  unfold State.l2WriteBack
  dsimp only
  split
  · exact h.trans (memSide_busWriteLine _ _ _ _ _)
  · exact h.trans (memSide_pend _ _)

theorem memSide_l2Allocate (s : State) (l : L2Line) : MemSide s (s.l2Allocate l) := by
  unfold State.l2Allocate
  refine MemSide.trans ?_ ((memSide_l2Put _ _ _).trans (memSide_l2Touch _ _))
  split
  · split
    · exact memSide_l2WriteBack s _ _
    · exact MemSide.refl s
  · exact MemSide.refl s

theorem memSide_l2Claim (s : State) (l : L2Line) : MemSide s (s.l2Claim l).1 := by
  unfold State.l2Claim; split
  · exact MemSide.refl s
  · exact memSide_logBusError s _ _

theorem memSide_nextRead (s : State) (a : BitVec 36) (c w : Bool) : MemSide s (s.nextRead a c w).2 := by
  unfold State.nextRead
  split
  · split
    · rename_i k l _
      have h := (memSide_l2Touch s k).trans (memSide_l2Error (s.l2Touch k) k l)
      dsimp only
      split
      · exact h
      · split
        · have h2 := h.trans (memSide_l2Claim _ l)
          split
          · exact h2.trans (memSide_l2Put _ _ _)
          · exact h2
        · exact h
    · have h := memSide_busReadLine s (lineBase (blockOf a))
      split <;> (rename_i e; rw [e] at h)
      · exact h.trans (memSide_l2Allocate _ _)
      · exact h
  · have h := memSide_busReadLine s a
    split <;> (rename_i e; rw [e] at h; exact h)

theorem memSide_nextWrite (s : State) (l : BitVec 31) (c : Bool) (m u : BitVec 32) (d : BitVec 256) :
    MemSide s (s.nextWrite l c m u d) := by
  unfold State.nextWrite
  split
  · split
    · rename_i k x _
      have h := (memSide_l2Touch s k).trans (memSide_l2Error (s.l2Touch k) k x)
      generalize (s.l2Touch k).l2Error k x = p at h ⊢
      obtain ⟨u, ok⟩ := p
      have key : ∀ v, MemSide s v → ∀ l', MemSide s
          (if (v.l2Claim x).2 = true then (v.l2Claim x).1.l2Put k l' else (v.l2Claim x).1.pend .external) := by
        intro v hv l'
        have h3 := hv.trans (memSide_l2Claim v x)
        split
        · exact h3.trans (memSide_l2Put _ _ _)
        · exact h3.trans (memSide_pend _ _)
      cases ok
      · exact key _ (h.trans (memSide_pend u _)) _
      · exact key _ h _
    · split
      · exact memSide_l2Allocate s _
      · have h := memSide_busReadLine s (lineBase l)
        split <;> (rename_i e; rw [e] at h)
        · exact h.trans (memSide_l2Allocate _ _)
        · exact h.trans (memSide_pend _ _)
  · exact memSide_busWriteLine s l m u d

/-! Translation -/

theorem memSide_walkRead (s : State) (a : BitVec 36) : MemSide s (s.walkRead a).2 := by
  unfold State.walkRead
  have h := memSide_nextRead s a s.walkCached false
  split <;> (rename_i e; rw [e] at h)
  · exact h.trans (memSide_look _ _)
  · exact h

theorem side_tableWalk (mva : Word) : Side (tableWalk mva) := by
  intro s
  unfold tableWalk
  refine sideAt_get (sideAt_set_bind (memSide_walkRead s _) ?_)
  split
  · exact sideAt_throw _ _
  · split
    · exact sideAt_throw _ _
    · split
      · split
        · exact sideAt_bind (sideAt_require _ _ _) fun _ _ _ => sideAt_pure _ _
        · exact sideAt_throw _ _
      · refine sideAt_bind (sideAt_require _ _ _) fun _ t e => ?_
        have ht : t = (s.walkRead (s.firstLevelAddress mva)).2 := by
          revert e; unfold require; split <;> intro e <;> cases e; rfl
        subst ht
        refine sideAt_set_bind (memSide_walkRead _ _) ?_
        split
        · exact sideAt_throw _ _
        · split
          · exact sideAt_throw _ _
          · split
            · exact sideAt_pure _ _
            · exact sideAt_throw _ _

theorem side_tlbEntry (mva : Word) (kind : Access) : Side (tlbEntry mva kind) := by
  intro s
  unfold tlbEntry
  refine sideAt_get ?_
  split
  · exact sideAt_pure _ _
  · refine sideAt_bind (side_tableWalk mva s) fun e t _ => sideAt_modify_bind ?_ (sideAt_pure _ _)
    split
    · exact memSide_itlb t _
    · exact memSide_dtlb t _

theorem side_checkAccess (e : TlbEntry) (mva : Word) (kind : Access) (priv : Bool) :
    Side (checkAccess e mva kind priv) := by
  intro s
  unfold checkAccess
  refine sideAt_get ?_
  dsimp only
  split
  · exact sideAt_throw _ _
  · split
    · exact sideAt_throw _ _
    · split
      · split
        · exact sideAt_throw _ _
        · exact sideAt_pure _ _
        · exact sideAt_throw _ _
      · exact sideAt_pure _ _

theorem side_entryAttrs (e : TlbEntry) : Side (entryAttrs e) := by
  intro s
  unfold entryAttrs
  refine sideAt_get (sideAt_bind (sideAt_require _ _ _) fun _ t _ => ?_)
  split
  · exact sideAt_pure _ _
  · exact sideAt_throw _ _

theorem side_translate (mva : Word) (kind : Access) (priv : Bool) : Side (translate mva kind priv) := by
  intro s
  unfold translate
  refine sideAt_get ?_
  split
  · exact sideAt_bind (side_tlbEntry mva kind s) fun e t _ =>
      sideAt_bind (side_checkAccess e mva kind priv t) fun _ t _ =>
        sideAt_bind (side_entryAttrs e t) fun _ t _ => sideAt_pure _ t
  · exact sideAt_pure _ _

/-! The memory buffers -/

theorem memSide_issue (s : State) (e : BufEntry) : MemSide s (s.issue e) := memSide_nextWrite s _ _ _ _ _

theorem memSide_releaseWhere (s : State) (out : BufEntry → Bool) : MemSide s (s.releaseWhere out) :=
  memSide_foldl memSide_issue _ (memSide_buffers s _)

theorem memSide_releaseLine (s : State) (l : BitVec 31) : MemSide s (s.releaseLine l) := memSide_releaseWhere s _

theorem memSide_releaseUncached (s : State) : MemSide s s.releaseUncached := memSide_releaseWhere s _

theorem memSide_drainBuffers (s : State) : MemSide s s.drainBuffers :=
  MemSide.trans (memSide_foldl memSide_issueOut s.l2Out (memSide_l2Out s []))
    (memSide_foldl memSide_issue _ (memSide_buffers _ _))

theorem memSide_releaseHeld (s : State) : MemSide s s.releaseHeld :=
  memSide_foldl (fun s (e : BufEntry) => memSide_releaseLine s e.line) _ (MemSide.refl s)

theorem memSide_settleBuffers (s : State) : MemSide s s.settleBuffers := by
  unfold State.settleBuffers
  have h : MemSide s (if 2 < (s.buffers.filter (·.coal)).length then
      match s.buffers.find? (·.coal) with
      | some e => s.releaseLine e.line
      | none => s
    else s) := by
    split
    · split
      · exact memSide_releaseLine s _
      · exact MemSide.refl s
    · exact MemSide.refl s
  revert h
  generalize (if 2 < (s.buffers.filter (·.coal)).length then
      match s.buffers.find? (·.coal) with
      | some e => s.releaseLine e.line
      | none => s
    else s) = t
  intro h
  refine MemSide.trans h ?_
  dsimp only
  split
  · split
    · exact memSide_releaseLine _ _
    · exact MemSide.refl _
  · exact MemSide.refl _

theorem memSide_bufferStore (s : State) (e : BufEntry) : MemSide s (s.bufferStore e) := by
  unfold State.bufferStore
  split
  · exact memSide_buffers s _
  · exact (memSide_buffers s _).trans (memSide_settleBuffers _)

/-! The data cache -/

theorem memSide_dPut (s : State) (k : Nat) (l : DLine) : MemSide s (s.dPut k l) := memSide_dcache s _

theorem memSide_dDrop (s : State) (k : Nat) : MemSide s (s.dDrop k) := memSide_dcache s _

theorem memSide_setDRepl (s : State) (a : Word) (r : Repl) : MemSide s (s.setDRepl a r) :=
  memSide_dcache s _

theorem memSide_dWriteBack (s : State) (l : DLine) : MemSide s (s.dWriteBack l) := by
  unfold State.dWriteBack
  split
  · exact memSide_pend s _
  · exact memSide_bufferStore s _

theorem memSide_dClean (s : State) (k : Nat) : MemSide s (s.dClean k) := by
  unfold State.dClean
  split
  · split
    · exact (memSide_dPut s _ _).trans (memSide_dWriteBack _ _)
    · exact MemSide.refl s
  · exact MemSide.refl s

theorem memSide_dAllocate (s : State) (a : Word) (l : DLine) (llr : Bool) :
    MemSide s (s.dAllocate a l llr) := by
  unfold State.dAllocate
  exact (memSide_dClean s _).trans ((memSide_dPut _ _ _).trans (memSide_setDRepl _ _ _))

theorem side_freeLine : Side freeLine := fun s => sideAt_draw 256 s

theorem side_lookAt (b : Block) : Side (lookAt b) := fun s => memSide_look s b

theorem side_fillRead (m : Mapped) (swap : Bool) : Side (fillRead m swap) := by
  intro s
  unfold fillRead
  refine sideAt_get ?_
  have h : MemSide s (if s.uncached m then s.releaseUncached else s) := by
    split
    · exact memSide_releaseUncached s
    · exact MemSide.refl s
  refine sideAt_set_bind (h.trans ((memSide_releaseLine _ _).trans (memSide_nextRead _ _ _ _))) ?_
  split
  · exact sideAt_pure _ _
  · exact sideAt_modify_bind (memSide_pend _ _)
      (sideAt_bind (side_freeLine _) fun _ _ _ => sideAt_pure _ _)

theorem memSide_startAccess (s : State) (m : Mapped) : MemSide s (s.startAccess m) := by
  unfold State.startAccess
  split
  · exact (memSide_access s).trans (memSide_drainBuffers _)
  · exact memSide_access s

theorem memSide_fillLine (s : State) (a : Word) (m : Mapped) (b : Block) (ok : Bool) :
    MemSide s (s.fillLine a m b ok) := by
  unfold State.fillLine
  split
  · exact memSide_dAllocate s _ _ _
  · exact MemSide.refl s

theorem memSide_spoilLine (s : State) (k : Nat) (l : DLine) : MemSide s (s.spoilLine k l) := memSide_dPut s _ _

theorem side_loadHit (mva : Word) (m : Mapped) (swap : Bool) (mask : BitVec 32) (k : Nat) (w : BitVec 2) (l : DLine) :
    Side (loadHit mva m swap mask k w l) := by
  intro s
  unfold loadHit
  refine sideAt_get ?_
  split
  · exact sideAt_modify_bind (memSide_spoilLine s k l) (side_freeLine _)
  · split
    · refine sideAt_modify_bind (memSide_setDRepl s _ _) ?_
      split
      · exact sideAt_modify_bind (memSide_pend _ _) (side_freeLine _)
      · exact side_lookAt _ _
    · refine sideAt_modify_bind ?_ (sideAt_bind (side_fillRead _ _ _) fun _ _ _ => side_lookAt _ _)
      split
      · exact memSide_dClean s k
      · exact MemSide.refl s

theorem side_loadLine (mva : Word) (m : Mapped) (swap : Bool) (mask : BitVec 32) :
    Side (loadLine mva m swap mask) := by
  intro s
  unfold loadLine
  refine sideAt_modify_bind (memSide_startAccess s m) (sideAt_get ?_)
  split
  · exact side_loadHit _ _ _ _ _ _ _ _
  · exact sideAt_bind (sideAt_require _ _ _) fun _ _ _ => sideAt_bind (side_fillRead _ _ _) fun r t _ =>
      sideAt_modify_bind (memSide_fillLine t mva m r.1 r.2) (side_lookAt _ _)

theorem memSide_storeOut (s : State) (m : Mapped) (mask unk : BitVec 32) (d : BitVec 256) :
    MemSide s (s.storeOut m mask unk d) := by
  unfold State.storeOut
  dsimp only
  split
  · exact (memSide_bufferStore s _).trans (memSide_drainBuffers _)
  · exact memSide_bufferStore s _

theorem side_storeHit (mva : Word) (m : Mapped) (swap : Bool) (mask : BitVec 32) (data : BitVec 256) (k : Nat)
    (w : BitVec 2) (l : DLine) : Side (storeHit mva m swap mask data k w l) := by
  intro s
  unfold storeHit
  refine sideAt_modify ?_
  dsimp only
  split
  · exact (memSide_spoilLine s k l).trans (memSide_storeOut _ _ _ _ _)
  · split
    · refine MemSide.trans (memSide_setDRepl s mva ((s.dRepl mva).touch w)) ?_
      split
      · exact (memSide_dPut _ _ _).trans (memSide_storeOut _ _ _ _ _)
      · exact memSide_dPut _ _ _
    · exact memSide_storeOut s _ _ _ _

theorem side_storeLine (mva : Word) (m : Mapped) (swap : Bool) (mask : BitVec 32) (data : BitVec 256) :
    Side (storeLine mva m swap mask data) := by
  intro s
  unfold storeLine
  refine sideAt_modify_bind (memSide_startAccess s m) (sideAt_get ?_)
  split
  · exact side_storeHit _ _ _ _ _ _ _ _ _
  · exact sideAt_modify (memSide_storeOut _ _ _ _ _)

/-! The instruction cache -/

theorem memSide_setIRepl (s : State) (a : Word) (r : Repl) : MemSide s (s.setIRepl a r) :=
  memSide_icache s _

theorem memSide_iFill (s : State) (a : Word) (d : BitVec 256) : MemSide s (s.iFill a d) := by
  unfold State.iFill
  exact (memSide_icache s _).trans (memSide_icache _ _)

theorem memSide_fetchRead (s : State) (m : Mapped) : MemSide s (s.fetchRead m).2 :=
  ((memSide_releaseOutWhere s _).trans (memSide_releaseWhere _ _)).trans (memSide_nextRead _ _ _ _)

/-- Nothing waits that an invalidation of the instruction cache marked: a fetch reads the next level as it is. -/
theorem fetchRead_unmarked {s : State} (m : Mapped) (hb : s.buffers.all (!·.forFetch) = true)
    (ho : s.l2Out.all (!·.forFetch) = true) :
    s.fetchRead m = s.nextRead (lineBase (blockOf m.pa)) m.attrs.l2 false := by
  have h1 : ∀ p : OutEntry → Bool, s.l2Out.filter (fun e => p e && e.forFetch) = [] := fun p =>
    List.filter_eq_nil_iff.2 fun e he => by simp_all
  have h2 : ∀ p : OutEntry → Bool, s.l2Out.filter (fun e => !(p e && e.forFetch)) = s.l2Out := fun p =>
    List.filter_eq_self.2 fun e he => by simp_all
  have h3 : ∀ p : BufEntry → Bool, s.buffers.filter (fun e => e.forFetch && p e) = [] := fun p =>
    List.filter_eq_nil_iff.2 fun e he => by simp_all
  have h4 : ∀ p : BufEntry → Bool, s.buffers.filter (fun e => !(e.forFetch && p e)) = s.buffers := fun p =>
    List.filter_eq_self.2 fun e he => by simp_all
  simp only [State.fetchRead, State.releaseForFetch, State.releaseOutWhere, State.releaseWhere, h1, h2, h3, h4, List.foldl]

theorem memSide_keepFetched (s : State) (a : Word) (m : Mapped) (d : BitVec 256) :
    MemSide s (s.keepFetched a m d) := by
  unfold State.keepFetched
  dsimp only
  split
  · exact (memSide_icache s _).trans ((memSide_iFill _ a d).trans (memSide_icache _ _))
  · exact memSide_icache s _

theorem side_fetchLine (mva : Word) (m : Mapped) : Side (fetchLine mva m) := by
  intro s
  unfold fetchLine
  refine sideAt_get ?_
  split
  · exact sideAt_pure _ _
  · split
    · refine sideAt_modify_bind (memSide_setIRepl s _ _) ?_
      split
      · exact sideAt_throw _ _
      · exact sideAt_pure _ _
    · refine sideAt_set_bind (memSide_fetchRead s _) ?_
      split
      · exact sideAt_throw _ _
      · exact sideAt_bind (side_lookAt _ _) fun _ t _ =>
          sideAt_modify_bind (memSide_keepFetched t _ _ _) (sideAt_pure _ _)

theorem side_fetchWord (mva : Word) : Side (fetchWord mva) := by
  intro s
  unfold fetchWord
  refine sideAt_get (sideAt_bind ?_ fun m t _ => sideAt_bind (sideAt_require _ _ t) fun _ u _ =>
    sideAt_bind (side_fetchLine mva m u) fun _ v _ => sideAt_pure _ v)
  have h := side_translate mva .fetch s.privileged s
  unfold SideAt at *
  dsimp only
  cases e : translate mva .fetch s.privileged s with
  | ok a t => rw [e] at h; exact h
  | error x t => rw [e] at h; cases x <;> exact h

/-! The data accesses -/

theorem side_checkAligned (va : Word) (n : Nat) : Side (checkAligned va n) := by
  intro s
  unfold checkAligned
  refine sideAt_get ?_
  split
  · exact sideAt_bind (sideAt_draw 1 s) fun _ t _ => sideAt_throw _ t
  · exact sideAt_pure _ _

/-- A data access: translate, watch, then the access itself. -/
theorem side_access {α : Type} (mva : Word) (kind : Access) (priv : Bool) (st : Bool) (n : Nat)
    {k : Mapped → Exec α} (hk : ∀ m, Side (k m)) :
    Side (do
      let m ← translate mva kind priv
      modify fun s => s.watch st mva n
      k m) := fun s =>
  sideAt_bind (side_translate mva kind priv s) fun m t _ =>
    sideAt_modify_bind (memSide_watch t st mva n) (hk m _)

theorem side_loadAligned (va : Word) (user : Bool) : Side (loadAligned va user) := fun s =>
  sideAt_get (side_access _ _ _ _ _ (fun m => (side_loadLine _ m false _).bind fun _ _ => sideAt_pure _ _) s)

theorem side_storeAligned (va : Word) (user : Bool) (v : Word) : Side (storeAligned va user v) := fun s =>
  sideAt_get (side_access _ _ _ _ _ (fun m => side_storeLine _ m _ _ _) s)

theorem side_loadWord (va : Word) (user : Bool) : Side (loadWord va user) :=
  (side_checkAligned va 2).bind fun _ => (side_loadAligned va user).bind fun _ _ => sideAt_pure _ _

theorem side_storeWord (va : Word) (user : Bool) (v : Word) : Side (storeWord va user v) :=
  (side_checkAligned va 2).bind fun _ => side_storeAligned va user v

theorem side_loadByte (va : Word) (user : Bool) : Side (loadByte va user) := fun s =>
  sideAt_get (side_access _ _ _ _ _ (fun m => (side_loadLine _ m false _).bind fun _ _ => sideAt_pure _ _) s)

theorem side_storeByte (va : Word) (user : Bool) (v : Byte) : Side (storeByte va user v) := fun s =>
  sideAt_get (side_access _ _ _ _ _ (fun m => side_storeLine _ m _ _ _) s)

theorem side_loadHalf (va : Word) : Side (loadHalf va) :=
  (side_checkAligned va 1).bind fun _ => Side.bind (fun s => sideAt_require _ _ s) fun _ s =>
    sideAt_get (side_access _ _ _ _ _ (fun m => (side_loadLine _ m false _).bind fun _ _ => sideAt_pure _ _) s)

theorem side_storeHalf (va : Word) (v : Half) : Side (storeHalf va v) :=
  (side_checkAligned va 1).bind fun _ => Side.bind (fun s => sideAt_require _ _ s) fun _ s =>
    sideAt_get (side_access _ _ _ _ _ (fun m => side_storeLine _ m _ _ _) s)

theorem memSide_drainIf (s : State) (changes : Bool) : MemSide s (s.drainIf changes) := by
  unfold State.drainIf
  split
  · exact memSide_drainBuffers s
  · exact MemSide.refl s

theorem memSide_swapFence (s : State) (m : Mapped) : MemSide s (s.swapFence m) := by
  unfold State.swapFence
  split
  · exact memSide_drainBuffers s
  · exact memSide_releaseLine s _

theorem side_swapWord (mva : Word) (n : Nat) (mask : BitVec 32) (data : BitVec 256) :
    Side (swapWord mva n mask data) := fun s =>
  sideAt_get (side_access _ _ _ _ _ (fun m => (side_loadLine _ m true _).bind fun _ =>
    Side.bind (fun s => sideAt_modify (memSide_releaseHeld s)) fun _ => (side_storeLine _ m _ _ _).bind fun _ =>
      Side.bind (fun s => sideAt_modify (memSide_swapFence s m)) fun _ _ => sideAt_pure _ _) s)

theorem side_swapWordAt (va v : Word) : Side (swapWordAt va v) :=
  (side_checkAligned va 2).bind fun _ s =>
    sideAt_get (Side.bind (side_swapWord _ _ _ _) (fun _ s => sideAt_pure _ s) s)

theorem side_swapByteAt (va : Word) (v : Byte) : Side (swapByteAt va v) := fun s =>
  sideAt_get (Side.bind (side_swapWord _ _ _ _) (fun _ s => sideAt_pure _ s) s)

theorem side_loadWords (va : Word) (n : Nat) : Side (loadWords va n) := by
  induction n generalizing va with
  | zero => exact fun s => sideAt_pure _ s
  | succ n ih =>
    exact (side_loadAligned va false).bind fun _ => (ih _).bind fun _ s => sideAt_pure _ s

theorem side_storeWords (va : Word) (ws : List Word) : Side (storeWords va ws) := by
  induction ws generalizing va with
  | nil => exact fun s => sideAt_pure _ s
  | cons w ws ih => exact (side_storeAligned va false w).bind fun _ => ih _

theorem side_storeMultiple (va : Word) (ws : List Word) : Side (storeMultiple va ws) :=
  (side_checkAligned va 2).bind fun _ => side_storeWords va ws

theorem side_checkDouble (va : Word) : Side (checkDouble va) :=
  (side_checkAligned va 3).bind fun _ s => sideAt_require _ _ s

theorem side_loadDouble (va : Word) : Side (loadDouble va) :=
  (side_checkDouble va).bind fun _ => (side_loadAligned va false).bind fun _ =>
    (side_loadAligned (va + 4) false).bind fun _ s => sideAt_pure _ s

theorem side_storeDouble (va a b : Word) : Side (storeDouble va a b) :=
  (side_checkDouble va).bind fun _ => (side_storeAligned va false a).bind fun _ =>
    side_storeAligned (va + 4) false b

theorem side_loadCoprocessor (va : Word) : Side (loadCoprocessor va) :=
  (side_checkAligned va 2).bind fun _ => side_loadAligned va false

/-- The words of LDM, where every access succeeds. -/
theorem memSide_loadList (m base : BitVec 5) (va : Word) (done rs : List Reg) (s t : State)
    (ws : List Word) (h : loadList m base va done rs s = .ok ws t) : MemSide s t := by
  induction rs generalizing va done s t ws with
  | nil => cases h; exact MemSide.refl s
  | cons r rs ih =>
    unfold loadList at h
    split at h
    · rename_i w s1 e1
      split at h
      · rename_i ws2 s2 e2
        cases h
        exact ((side_loadAligned va false).ok e1).trans (ih _ _ _ _ _ e2)
      · cases h
    · cases h

theorem memSide_preloadFill {s s1 : State} (h : MemSide s s1) (mva : Word) (m : Mapped) :
    MemSide s (s.preloadFill s1 mva m) := by
  have k := (h.trans (memSide_releaseLine s1 (blockOf m.pa))).trans
    (memSide_nextRead (s1.releaseLine (blockOf m.pa)) (lineBase (blockOf m.pa)) m.attrs.l2 false)
  unfold State.preloadFill
  split <;> (rename_i e; rw [e] at k)
  · exact k.trans (memSide_dAllocate _ _ _ _)
  · exact (memSide_releaseLine s (blockOf m.pa)).trans (memSide_cancelled _ _)

/-- Everything PLD (`45_arm_loadstore` R599) can answer, outside an undefined instruction exception: no register and no
status changes. -/
theorem preload_next {va : Word} {s t : State} (h : preload va s = .next t) :
    ∃ u, MemSide s u ∧ (t = u.advance ∨ u.raiseUndefined = .next t) := by
  unfold preload at h
  dsimp only at h
  have ht := side_translate (s.pidRemap va) .read s.privileged s
  unfold SideAt at ht
  split at h
  · rename_i s1 e; cases h; exact ⟨_, memSide_cancelled s s1, .inl rfl⟩
  · rename_i x s1 _ e
    rw [e] at ht
    cases x with
    | abort fs dom far => rename_i hx; exact absurd rfl (hx fs dom far)
    | undefined => exact ⟨s1, ht, .inr h⟩
    | fault r => cases h
    | refuse r => cases h
  · rename_i m s1 e
    rw [e] at ht
    split at h
    · unfold orRefuse at h
      split at h
      · cases h; exact ⟨_, memSide_preloadFill ht _ m, .inl rfl⟩
      · cases h
    · cases h; exact ⟨s1, ht, .inl rfl⟩

/-! Operations that an abort takes back -/

/-- What an operation that was taken back leaves: the errors of its run, and nothing else. -/
theorem undoAbort_abort {α : Type} {m : Exec α} {s t : State} {fs : BitVec 5} {dom : Option (BitVec 4)} {far : Option Word}
    (h : undoAbort m s = .error (.abort fs dom far) t) :
    ∃ s1, m s = .error (.abort fs dom far) s1 ∧ t = s.onlyErrors s1 := by
  unfold undoAbort at h
  split at h
  · rename_i e; cases h; exact ⟨_, e, rfl⟩
  · rename_i hx; exact absurd h (hx fs dom far t)

theorem side_undoAbort {α : Type} {m : Exec α} (h : Side m) : Side (undoAbort m) := by
  intro s
  have := h s
  unfold SideAt undoAbort at *
  split
  · exact memSide_onlyErrors s _
  · exact this

theorem side_l2Translate (mva : Word) : Side (l2Translate mva) := by
  intro s
  unfold l2Translate
  refine sideAt_get ?_
  split
  · exact side_undoAbort ((side_tlbEntry mva .read).bind fun e => (side_entryAttrs e).bind fun _ _ => sideAt_pure _ _) s
  · exact sideAt_pure _ _

/-- Fetching an instruction. -/
theorem side_fetchInstr : Side fetchInstr := by
  intro s
  unfold fetchInstr
  refine sideAt_get ?_
  split
  · unfold SideAt fetchSram
    split
    · exact MemSide.refl s
    · split <;> exact MemSide.refl s
  · exact sideAt_bind (side_fetchWord _ s) fun _ t _ => sideAt_pure _ t

end Sys2Proof.Machine
end

