-- ==== Sys2Proof/Laws/Ops.lean ====
section
/-!
SUPPORT. Laws of the shared operations: registers and flags read back, and for each operation that can end an
instruction what it answers when it answers a next state.
-/
namespace Sys2Proof.Machine

/-! Registers -/

/-- Two names below R15 of one mode are one register only when they are the same name. -/
theorem physIndex_inj {m : BitVec 5} {a b : Reg} (ha : a < 15) (hb : b < 15)
    (h : physIndex m a = physIndex m b) : a = b := by
  have hbank : (bankOf m).index = 0 ∨ (bankOf m).index = 1 ∨ (bankOf m).index = 2 ∨
      (bankOf m).index = 3 ∨ (bankOf m).index = 4 ∨ (bankOf m).index = 5 ∨ (bankOf m).index = 6 := by
    cases bankOf m <;> simp [Bank.index]
  unfold physIndex at h
  generalize (bankOf m).index = k at h hbank
  have key : ∀ (k : BitVec 5) (f : Bool) (a b : Reg), k < 7 → a < 15 → b < 15 →
      (if a < 8 then a.setWidth 5 else if a < 13 then if f then a.setWidth 5 + 5 else a.setWidth 5
        else 18 + 2 * k + (a.setWidth 5 - 13)) =
      (if b < 8 then b.setWidth 5 else if b < 13 then if f then b.setWidth 5 + 5 else b.setWidth 5
        else 18 + 2 * k + (b.setWidth 5 - 13)) → a = b := by
    decide +kernel
  refine key k (decide (m = modeFiq)) a b ?_ ha hb ?_
  · rcases hbank with h | h | h | h | h | h | h <;> subst h <;> decide
  · simpa using h

theorem regs_get_set {v : Vector Word 32} {k j : BitVec 5} {x : Word} :
    (v.set k.toNat x k.isLt).get j.toFin = if j = k then x else v.get j.toFin := by
  have hj : j.toNat < 32 := j.isLt
  have hk : k.toNat < 32 := k.isLt
  have e : ∀ w : Vector Word 32, w.get j.toFin = w[j.toNat] := fun w => rfl
  rw [e, e, Vector.getElem_set]
  by_cases h : j = k
  · subst h; simp
  · have : ¬ k.toNat = j.toNat := fun c => h (BitVec.eq_of_toNat_eq c.symm)
    simp [h, this]

/-- Everything a register write does to the registers of any mode. -/
theorem regIn_setRegIn (s : State) (m k : BitVec 5) (n j : Reg) (v : Word) :
    (s.setRegIn m n v).regIn k j = if physIndex k j = physIndex m n then v else s.regIn k j := by
  simp only [State.regIn, State.setRegIn_regs, regs_get_set]

@[simp] theorem regIn_setRegIn_self (s : State) (m : BitVec 5) (n : Reg) (v : Word) :
    (s.setRegIn m n v).regIn m n = v := by simp [regIn_setRegIn]

theorem regIn_setRegIn_other {s : State} {m : BitVec 5} {n j : Reg} {v : Word} (hn : n < 15) (hj : j < 15)
    (h : j ≠ n) : (s.setRegIn m n v).regIn m j = s.regIn m j := by
  rw [regIn_setRegIn, if_neg fun c => h (physIndex_inj hj hn c)]

/-! Status -/

@[simp] theorem setFlags_flagN (s : State) (n z c v : Bool) : (s.setFlags n z c v).flagN = n := by
  simp only [State.flagN, State.setFlags_cpsr, BitVec.getLsbD_append]; simp
@[simp] theorem setFlags_flagZ (s : State) (n z c v : Bool) : (s.setFlags n z c v).flagZ = z := by
  simp only [State.flagZ, State.setFlags_cpsr, BitVec.getLsbD_append]; simp
@[simp] theorem setFlags_flagC (s : State) (n z c v : Bool) : (s.setFlags n z c v).flagC = c := by
  simp only [State.flagC, State.setFlags_cpsr, BitVec.getLsbD_append]; simp
@[simp] theorem setFlags_flagV (s : State) (n z c v : Bool) : (s.setFlags n z c v).flagV = v := by
  simp only [State.flagV, State.setFlags_cpsr, BitVec.getLsbD_append]; simp

/-- The other 28 bits stay. -/
@[simp] theorem setFlags_low (s : State) (n z c v : Bool) :
    (s.setFlags n z c v).cpsr.extractLsb' 0 28 = s.cpsr.extractLsb' 0 28 := by
  apply BitVec.eq_of_getLsbD_eq
  intro i hi
  simp only [State.setFlags_cpsr, BitVec.getLsbD_extractLsb', BitVec.getLsbD_append]
  simp only [hi, decide_true, Bool.true_and, Nat.zero_add]
  simp

@[simp] theorem setFlags_mode (s : State) (n z c v : Bool) : (s.setFlags n z c v).mode = s.mode := by
  apply BitVec.eq_of_getLsbD_eq
  intro i hi
  simp only [State.mode, State.setFlags_cpsr, BitVec.getLsbD_extractLsb', BitVec.getLsbD_append]
  have : i < 28 := by omega
  simp [hi, this]

@[simp] theorem setFlags_thumb (s : State) (n z c v : Bool) : (s.setFlags n z c v).thumb = s.thumb := by
  simp only [State.thumb, State.setFlags_cpsr, BitVec.getLsbD_append]; simp

@[simp] theorem setReg_mode (s : State) (n : Reg) (v : Word) : (s.setReg n v).mode = s.mode := rfl
@[simp] theorem setReg_thumb (s : State) (n : Reg) (v : Word) : (s.setReg n v).thumb = s.thumb := rfl
@[simp] theorem setReg_nextPc (s : State) (n : Reg) (v : Word) : (s.setReg n v).nextPc = s.nextPc := rfl
@[simp] theorem setFlags_nextPc (s : State) (n z c v : Bool) :
    (s.setFlags n z c v).nextPc = s.nextPc := by
  unfold State.nextPc; rw [setFlags_thumb]; rfl

/-! Outcomes -/

theorem whenCond_passed {c : Cond} {s : State} (h : condPassed c s = true)
    (body : Host.Outcome State Fault Refusal) : whenCond c s body = body := by simp [whenCond, h]

theorem whenCond_failed {c : Cond} {s : State} (h : condPassed c s = false)
    (body : Host.Outcome State Fault Refusal) : whenCond c s body = .next s.skip := by simp [whenCond, h]

/-- Everything `whenCond` can answer. -/
theorem whenCond_next {c : Cond} {s t : State} {body : Host.Outcome State Fault Refusal}
    (h : whenCond c s body = .next t) : body = .next t ∨ t = s.skip := by
  unfold whenCond at h
  split at h
  · exact .inl h
  · cases h; exact .inr rfl

theorem whenCondPc_passed {b : Bool} {c : Cond} {s : State} (h : condPassed c s = true)
    (body : Host.Outcome State Fault Refusal) : whenCondPc b c s body = body := by simp [whenCondPc, h]

theorem whenCondPc_failed {b : Bool} {c : Cond} {s : State} (h : condPassed c s = false)
    (body : Host.Outcome State Fault Refusal) :
    whenCondPc b c s body = .next { s with pc := s.nextPc, note := { s.note with
      failed := true, isBranch := b || s.note.isBranch } } := by
  cases b <;> simp [whenCondPc, h, State.skip, State.noteBranch, State.advance, State.nextPc, State.thumb]

/-- Everything `whenCondPc` can answer. -/
theorem whenCondPc_next {b : Bool} {c : Cond} {s t : State} {body : Host.Outcome State Fault Refusal}
    (h : whenCondPc b c s body = .next t) :
    body = .next t ∨ t = { s with pc := s.nextPc, note := { s.note with
      failed := true, isBranch := b || s.note.isBranch } } := by
  cases e : condPassed c s
  · rw [whenCondPc_failed e] at h; cases h; exact .inr rfl
  · rw [whenCondPc_passed e] at h; exact .inl h

@[simp] theorem orRefuse_true (r : Refusal) (body : Host.Outcome State Fault Refusal) :
    orRefuse true r body = body := rfl

/-- Everything `orRefuse` can answer. -/
theorem orRefuse_next {c : Bool} {r : Refusal} {t : State} {body : Host.Outcome State Fault Refusal}
    (h : orRefuse c r body = .next t) : c = true ∧ body = .next t := by
  cases c
  · cases h
  · exact ⟨rfl, h⟩

/-- Everything `needPrivilege` can answer. -/
theorem needPrivilege_next {s t : State} {body : Host.Outcome State Fault Refusal}
    (h : needPrivilege s body = .next t) :
    (s.privileged = true ∧ body = .next t) ∨ (s.privileged = false ∧ s.raiseUndefined = .next t) := by
  unfold needPrivilege at h
  split at h
  · exact .inl ⟨‹_›, h⟩
  · exact .inr ⟨Bool.eq_false_iff.mpr ‹_›, h⟩

/-- Everything `needCp` can answer. -/
theorem needCp_next {n : Nat} {s t : State} {body : Host.Outcome State Fault Refusal}
    (h : needCp n s body = .next t) : body = .next t ∨ s.raiseUndefined = .next t := by
  unfold needCp at h
  split at h
  · exact .inl h
  · exact .inr h

/-- Everything an interworking branch can answer (`10_state` R37). -/
theorem interwork_next {s t : State} {v : Word} (h : s.interwork v = .next t) :
    (v.getLsbD 0 = true ∧ t = (s.setThumb true).branchIndirect (v &&& ~~~1)) ∨
    (v.getLsbD 0 = false ∧ v.getLsbD 1 = false ∧ t = (s.setThumb false).branchIndirect v) := by
  unfold State.interwork at h
  split at h
  · cases h; exact .inl ⟨‹_›, rfl⟩
  · split at h
    · cases h
    · cases h; exact .inr ⟨Bool.eq_false_iff.mpr ‹_›, Bool.eq_false_iff.mpr ‹_›, rfl⟩

/-- Everything a write of the pc can answer. -/
theorem writePc_next {s t : State} {v : Word} (h : s.writePc v = .next t) :
    (s.thumb = true ∧ t = s.branchIndirect (v &&& ~~~1)) ∨
    (s.thumb = false ∧ v.extractLsb' 0 2 = 0 ∧ t = s.branchIndirect v) := by
  unfold State.writePc at h
  split at h
  · cases h; exact .inl ⟨‹_›, rfl⟩
  · split at h
    · cases h; exact .inr ⟨Bool.eq_false_iff.mpr ‹_›, ‹_›, rfl⟩
    · cases h

/-- Everything an exception return can answer (`60_exceptions` R884). -/
theorem exceptionReturn_next {s t : State} {v : Word} (h : s.exceptionReturn v = .next t) :
    ∃ p, s.spsr = some p ∧ isSoftwareMode (p.extractLsb' 0 5) = true ∧
      t = ({ s with cpsr := p, dbg := { s.dbg with sds := false } }).branchIndirect
        (if p.getLsbD 5 then v &&& ~~~1 else v &&& ~~~3) := by
  unfold State.exceptionReturn at h
  split at h
  · cases h
  · rename_i p e
    split at h
    · cases h; exact ⟨p, e, ‹_›, rfl⟩
    · cases h

/-- Everything `raise` can answer. -/
theorem raise_next {s t : State} {e : Exception} {l : Word} (h : s.raise e l = .next t) :
    s.dbg.sds = false ∧ t = s.takeException e l false := by
  unfold State.raise at h
  split at h
  · cases h
  · cases h; exact ⟨Bool.eq_false_iff.mpr ‹_›, rfl⟩

/-- Everything an operation followed by its end can answer: the end, or the exception that the operation
raised. -/
theorem withValue_next {α : Type} {b : Bool} {m : Exec α} {s t : State}
    {k : α → State → Host.Outcome State Fault Refusal} (h : withValue b m s k = .next t) :
    (∃ a s', m s = .ok a s' ∧ k a s' = .next t) ∨
    (∃ fs dom far s', m s = .error (.abort fs dom far) s' ∧ t = s'.dataAbort fs dom far b) ∨
    (∃ s', m s = .error .undefined s' ∧ s'.raiseUndefined = .next t) := by
  unfold withValue at h
  cases e : m s with
  | ok a s' => rw [e] at h; exact .inl ⟨a, s', rfl, h⟩
  | error x s' =>
    rw [e] at h
    cases x with
    | abort fs dom far => cases h; exact .inr (.inl ⟨fs, dom, far, s', rfl, rfl⟩)
    | undefined => exact .inr (.inr ⟨s', rfl, h⟩)
    | fault r => cases h
    | refuse r => cases h

theorem withValue_ok {α : Type} {b : Bool} {m : Exec α} {s s' : State} {a : α}
    {k : α → State → Host.Outcome State Fault Refusal} (h : m s = .ok a s') :
    withValue b m s k = k a s' := by simp only [withValue, h]

/-- Everything the end of a data-processing instruction can answer (`40_arm_base` R507). -/
theorem dpFinish_next {s t : State} {b : Bool} {rd : Reg} {r : Sum} (h : dpFinish s b rd r = .next t) :
    (rd = 15 ∧ b = true ∧ s.exceptionReturn r.value = .next t) ∨
    (rd = 15 ∧ b = false ∧ s.writePc r.value = .next t) ∨
    (rd ≠ 15 ∧ t = (if b then (s.setReg rd r.value).setSum r else s.setReg rd r.value).advance) := by
  unfold dpFinish at h
  split at h
  · split at h
    · exact .inl ⟨‹_›, ‹_›, h⟩
    · exact .inr (.inl ⟨‹_›, Bool.eq_false_iff.mpr ‹_›, h⟩)
  · cases h; exact .inr (.inr ⟨‹_›, rfl⟩)

/-- Everything the end of a load can answer (`45_arm_loadstore` R580). -/
theorem finishLoad_next {rd rn : Reg} {wb : Option Word} {v : Word} {s t : State}
    (h : finishLoad rd rn wb v s = .next t) :
    (rd = 15 ∧ (s.writeBack rn wb).interwork v = .next t) ∨
    (rd ≠ 15 ∧ t = (s.setReg rd (s.freeBits 32)).drawn.advance) ∨
    (rd ≠ 15 ∧ t = ((s.setReg rd v).writeBack rn wb).advance) := by
  unfold finishLoad at h
  split at h
  · exact .inl ⟨‹_›, h⟩
  · split at h
    · cases h; exact .inr (.inl ⟨‹_›, rfl⟩)
    · cases h; exact .inr (.inr ⟨‹_›, rfl⟩)

/-- Everything a write of a coprocessor register can answer. -/
theorem finishWrite_next {r : Except Refusal State} {t : State} (h : finishWrite r = .next t) :
    ∃ s, r = .ok s ∧ t = s.advance := by
  cases r with
  | ok s => cases h; exact ⟨s, rfl, rfl⟩
  | error e => cases h

/-- Everything a guarded write can give. -/
theorem guarded_ok {c : Bool} {r : Refusal} {x : Except Refusal State} {t : State}
    (h : guarded c r x = .ok t) : c = true ∧ x = .ok t := by
  cases c
  · cases h
  · exact ⟨rfl, h⟩

/-- Everything a write to a register with reserved bits can give. -/
theorem reservedWrite_ok {m v : Word} {w : CpWrite} {s t : State} (h : reservedWrite m w s v = .ok t) :
    v &&& m = 0 ∧ w s v = .ok t := by
  unfold reservedWrite at h
  split at h
  · exact ⟨‹_›, h⟩
  · cases h

theorem reservedWrite_clear {m v : Word} (w : CpWrite) (s : State) (h : v &&& m = 0) :
    reservedWrite m w s v = w s v := by simp [reservedWrite, h]

/-! Fetches -/

/-- A fetch leaves what a memory operation may leave, under whatever view it was made. -/
theorem memSide_afterFetch {s t : State} (h : MemSide s.asFetched t) : MemSide s (s.afterFetch t) := by
  unfold State.asFetched at h
  unfold State.afterFetch
  cases e : s.stale with
  | nil => rw [e] at h; exact h
  | cons v rest => exact memSide_onlyErrors s t

theorem side_fetchNext : Side fetchNext := by
  intro s
  have h := side_fetchInstr s.asFetched
  unfold SideAt fetchNext at *
  cases e : fetchInstr s.asFetched with
  | ok c t => rw [e] at h; exact memSide_afterFetch h
  | error x t => rw [e] at h; exact memSide_afterFetch h

/-- With nothing fetched earlier in the way, the next instruction is fetched now. -/
theorem fetchNext_now {s : State} (h : s.stale = []) : fetchNext s = fetchInstr s := by
  have e : s.asFetched = s := by simp [State.asFetched, h]
  unfold fetchNext
  rw [e]
  cases fetchInstr s <;> simp [State.afterFetch, h]

@[simp] theorem settleView_now {s : State} (h : s.stale = []) : s.settleView = s := by
  obtain ⟨⟩ := s
  cases h
  rfl

/-- Everything the guard of the branch target buffer can answer. -/
theorem guardBtb_next {s t : State} {r : Host.Outcome State Fault Refusal} (h : s.guardBtb r = .next t) :
    r = .next t ∧ s.btbStale = false := by
  cases r with
  | next u =>
    unfold State.guardBtb at h
    dsimp only at h
    split at h
    · cases h
    · cases h; exact ⟨rfl, Bool.eq_false_iff.mpr ‹_›⟩
  | fault f => cases h
  | refused e => cases h

/-! Arithmetic -/

@[simp] theorem addWithCarry_value (a b : Word) (c : Bool) :
    (addWithCarry a b c).value = a + b + (if c then 1 else 0) := by
  apply BitVec.eq_of_toNat_eq
  cases c <;> simp [addWithCarry, carryNat, BitVec.toNat_add]

end Sys2Proof.Machine
end

