-- ==== Sys2Proof/Laws/Plain.lean ====
section
/-!
SUPPORT. The data accesses at their simplest: with the MMU off, the data cache and the memory buffers empty, the bus answering
everywhere and the debug functionality disabled, each operation reads or writes memory directly.
-/
namespace Sys2Proof.Machine

/-- The conditions of this file. -/
structure State.Direct (s : State) : Prop where
  mmu : s.mmuOn = false
  dcache : s.dcache.lines = []
  buffers : s.buffers = []
  l2Out : s.l2Out = []
  bus : s.cfg.busErrors = []
  debug : s.debugOn = false

theorem bind_ok {α β : Type} {m : Exec α} {k : α → Exec β} {s t : State} {a : α} (h : m s = .ok a t) :
    (m >>= k) s = k a t := by
  change EStateM.bind m k s = _
  simp [EStateM.bind, h]

theorem get_ok (s : State) : (get : Exec State) s = .ok s s := rfl

theorem modify_ok (f : State → State) (s : State) : (modify f : Exec Unit) s = .ok () (f s) := rfl

theorem translate_off {s : State} (mva : Word) (kind : Access) (priv : Bool) (h : s.mmuOn = false) :
    translate mva kind priv s =
      .ok { pa := mva.setWidth 36, attrs := if kind = .fetch then Attrs.flatFetch else Attrs.strong } s := by
  simp [translate, bind_ok (get_ok s), h, pure, EStateM.pure]

theorem drainBuffers_empty {s : State} (h : s.buffers = []) (o : s.l2Out = []) : s.drainBuffers = s := by
  obtain ⟨⟩ := s
  cases h
  cases o
  rfl

theorem drainBuffers_one {s : State} (e : BufEntry) (h : s.buffers = []) (o : s.l2Out = []) :
    ({ s with buffers := [e] }).drainBuffers = s.issue e := by
  obtain ⟨⟩ := s
  cases h
  cases o
  rfl

theorem startAccess_direct {s : State} (m : Mapped) (h : s.Direct) : s.startAccess m = s.noteAccess := by
  unfold State.startAccess
  split
  · exact drainBuffers_empty h.buffers h.l2Out
  · rfl

/-- An access of `n` bytes was made. -/
def State.accessed (s : State) (n : Nat) : State := { s with subWord := s.subWord || decide (n < 4) }

theorem watch_off {s : State} (st : Bool) (a : Word) (n : Nat) (h : s.debugOn = false) :
    s.watch st a n = s.accessed n := by
  simp [State.watch, h, State.accessed]

theorem dFind_empty {s : State} (mva : Word) (h : s.dcache.lines = []) : s.dFind mva = none := by
  simp [State.dFind, h, tableGet, ways]

theorem releaseWhere_empty {s : State} (out : BufEntry → Bool) (h : s.buffers = []) : s.releaseWhere out = s := by
  obtain ⟨⟩ := s
  cases h
  rfl

theorem releaseHeld_empty {s : State} (h : s.buffers = []) : s.releaseHeld = s := by
  simp [State.releaseHeld, h]

theorem releaseLine_empty {s : State} (line : BitVec 31) (h : s.buffers = []) : s.releaseLine line = s :=
  releaseWhere_empty _ h

theorem releaseOut_empty {s : State} (line : BitVec 31) (h : s.l2Out = []) : s.releaseOut line = s := by
  obtain ⟨⟩ := s
  cases h
  rfl

theorem State.Direct.noteAccess {s : State} (h : s.Direct) : s.noteAccess.Direct :=
  ⟨h.mmu, h.dcache, h.buffers, h.l2Out, h.bus, h.debug⟩

theorem State.Direct.accessed {s : State} (h : s.Direct) (n : Nat) : (s.accessed n).Direct :=
  ⟨h.mmu, h.dcache, h.buffers, h.l2Out, h.bus, h.debug⟩

theorem busError_none {s : State} (line : BitVec 31) (h : s.cfg.busErrors = []) : s.busError line = 0 := by
  simp [State.busError, h, tableGet]

/-- A block without unpredictable bytes is seen as it is. -/
theorem look_known (s : State) (b : Block) (h : b.unk = 0) : s.look b = (b.data, s) := by simp [State.look, h]

theorem nextRead_direct {s : State} (a : BitVec 36) (swap : Bool) (h : s.Direct) :
    s.nextRead a false swap = (some { data := memLine s.mem (blockOf a), unk := 0 }, s) := by
  simp [State.nextRead, State.busReadLine, busError_none _ h.bus]

theorem nextWrite_direct {s : State} (line : BitVec 31) (mask : BitVec 32) (data : BitVec 256) (h : s.Direct) :
    s.nextWrite line false mask 0 data = { s with mem := memWriteLine s.mem line mask data } := by
  simp [State.nextWrite, State.busWriteLine, State.busPut, releaseOut_empty line h.l2Out, busError_none line h.bus,
    look_known]

theorem fillRead_direct {s : State} (pa : BitVec 36) (swap : Bool) (h : s.Direct) :
    fillRead { pa := pa, attrs := Attrs.strong } swap s =
      .ok ({ data := memLine s.mem (blockOf pa), unk := 0 }, true) s := by
  unfold fillRead
  rw [bind_ok (get_ok s)]
  simp only [State.uncached, State.fills, Attrs.strong, Bool.and_false, Bool.not_false, Bool.and_true, if_true,
    State.releaseUncached, releaseWhere_empty _ h.buffers, releaseLine_empty _ h.buffers, nextRead_direct _ _ h]
  rfl

/-- A load that goes straight to memory. -/
theorem loadLine_direct {s : State} (mva : Word) (pa : BitVec 36) (swap : Bool) (mask : BitVec 32) (h : s.Direct) :
    loadLine mva { pa := pa, attrs := Attrs.strong } swap mask s = .ok (memLine s.mem (blockOf pa)) s.noteAccess := by
  unfold loadLine
  rw [bind_ok (modify_ok _ s), bind_ok (get_ok _), startAccess_direct _ h, dFind_empty _ h.noteAccess.dcache]
  have hr : require (!s.noteAccess.fills { pa := pa, attrs := Attrs.strong } ||
      s.noteAccess.lockable { pa := pa, attrs := Attrs.strong }) .maintenance s.noteAccess = .ok () s.noteAccess := by
    simp [require, State.fills, Attrs.strong, pure, EStateM.pure]
  refine (bind_ok hr).trans ((bind_ok (fillRead_direct pa swap h.noteAccess)).trans ((bind_ok (modify_ok _ _)).trans ?_))
  simp [State.fillLine, State.fills, Attrs.strong, lookAt, look_known, State.noteAccess]

theorem storeOut_direct {s : State} (pa : BitVec 36) (mask : BitVec 32) (data : BitVec 256) (h : s.Direct) :
    s.storeOut { pa := pa, attrs := Attrs.strong } mask 0 data =
      { s with mem := memWriteLine s.mem (blockOf pa) mask data } := by
  have e : s.bufferStore
      { line := blockOf pa, mask := mask, unk := 0, data := data, coal := false, unc := true, l2 := false
        shared := true } =
      { s with buffers := [{ line := blockOf pa, mask := mask, unk := 0, data := data, coal := false, unc := true
                             l2 := false, shared := true }] } := by
    simp [State.bufferStore, State.settleBuffers, h.buffers]
  have hu : s.uncached { pa := pa, attrs := Attrs.strong } = true := by simp [State.uncached, State.fills, Attrs.strong]
  unfold State.storeOut
  rw [hu]
  refine Eq.trans (congrArg State.drainBuffers e) ?_
  rw [drainBuffers_one _ h.buffers h.l2Out]
  exact nextWrite_direct _ _ _ h

/-- A store that goes straight to memory. -/
theorem storeLine_direct {s : State} (mva : Word) (pa : BitVec 36) (swap : Bool) (mask : BitVec 32) (data : BitVec 256)
    (h : s.Direct) :
    storeLine mva { pa := pa, attrs := Attrs.strong } swap mask data s =
      .ok () { s.noteAccess with mem := memWriteLine s.mem (blockOf pa) mask data } := by
  unfold storeLine
  rw [bind_ok (modify_ok _ s), bind_ok (get_ok _), startAccess_direct _ h, dFind_empty _ h.noteAccess.dcache]
  simp only [modify_ok, storeOut_direct pa mask data h.noteAccess]
  rfl

theorem word_index (k : BitVec 3) : k = 0 ∨ k = 1 ∨ k = 2 ∨ k = 3 ∨ k = 4 ∨ k = 5 ∨ k = 6 ∨ k = 7 := by
  revert k; decide

theorem cat_low {n : Nat} (x : BitVec n) (y : BitVec 32) (i : Nat) (h : i < 32) :
    (x ++ y).getLsbD i = y.getLsbD i := by
  simp [BitVec.getLsbD_append, h]

theorem cat_high {n : Nat} (x : BitVec n) (y : BitVec 32) (i : Nat) : (x ++ y).getLsbD (32 + i) = x.getLsbD i := by
  simp [BitVec.getLsbD_append]

theorem lineWord_of {x : BitVec 256} {w : Word} {k : BitVec 3}
    (h : ∀ i, i < 32 → x.getLsbD (32 * k.toNat + i) = w.getLsbD i) : lineWord x k = w := by
  apply BitVec.eq_of_getLsbD_eq
  intro i hi
  rw [lineWord, BitVec.getLsbD_extractLsb', h i hi]
  simp [hi]

/-- A word of a block is the word in memory. -/
theorem lineWord_memLine (m : List Host.Cell) (line : BitVec 31) (k : BitVec 3) :
    lineWord (memLine m line) k = memWord m (line.toNat * 32 + 4 * k.toNat) := by
  obtain rfl | rfl | rfl | rfl | rfl | rfl | rfl | rfl := word_index k <;> refine lineWord_of fun i hi => ?_
  · rw [show 32 * (0 : BitVec 3).toNat + i = i by simp; try omega]
    exact cat_low (n := 224) _ _ _ hi
  · rw [show 32 * (1 : BitVec 3).toNat + i = 32 + i by simp; try omega]
    exact (cat_high (n := 224) _ _ _).trans (cat_low (n := 192) _ _ _ hi)
  · rw [show 32 * (2 : BitVec 3).toNat + i = 32 + (32 + i) by simp; try omega]
    exact (cat_high (n := 224) _ _ _).trans ((cat_high (n := 192) _ _ _).trans (cat_low (n := 160) _ _ _ hi))
  · rw [show 32 * (3 : BitVec 3).toNat + i = 32 + (32 + (32 + i)) by simp; try omega]
    exact (cat_high (n := 224) _ _ _).trans ((cat_high (n := 192) _ _ _).trans ((cat_high (n := 160) _ _ _).trans (cat_low (n := 128) _ _ _ hi)))
  · rw [show 32 * (4 : BitVec 3).toNat + i = 32 + (32 + (32 + (32 + i))) by simp; try omega]
    exact (cat_high (n := 224) _ _ _).trans ((cat_high (n := 192) _ _ _).trans ((cat_high (n := 160) _ _ _).trans ((cat_high (n := 128) _ _ _).trans (cat_low (n := 96) _ _ _ hi))))
  · rw [show 32 * (5 : BitVec 3).toNat + i = 32 + (32 + (32 + (32 + (32 + i)))) by simp; try omega]
    exact (cat_high (n := 224) _ _ _).trans ((cat_high (n := 192) _ _ _).trans ((cat_high (n := 160) _ _ _).trans ((cat_high (n := 128) _ _ _).trans ((cat_high (n := 96) _ _ _).trans (cat_low (n := 64) _ _ _ hi)))))
  · rw [show 32 * (6 : BitVec 3).toNat + i = 32 + (32 + (32 + (32 + (32 + (32 + i))))) by simp; try omega]
    exact (cat_high (n := 224) _ _ _).trans ((cat_high (n := 192) _ _ _).trans ((cat_high (n := 160) _ _ _).trans ((cat_high (n := 128) _ _ _).trans ((cat_high (n := 96) _ _ _).trans ((cat_high (n := 64) _ _ _).trans (cat_low (n := 32) _ _ _ hi))))))
  · rw [show 32 * (7 : BitVec 3).toNat + i = 32 + (32 + (32 + (32 + (32 + (32 + (32 + i)))))) by simp; try omega]
    exact (cat_high (n := 224) _ _ _).trans ((cat_high (n := 192) _ _ _).trans ((cat_high (n := 160) _ _ _).trans ((cat_high (n := 128) _ _ _).trans ((cat_high (n := 96) _ _ _).trans ((cat_high (n := 64) _ _ _).trans (cat_high (n := 32) _ _ _))))))

theorem line_word (a : Word) (h : a.toNat % 4 = 0) :
    (blockOf (a.setWidth 36)).toNat * 32 + 4 * (a.extractLsb' 2 3).toNat = a.toNat := by
  have := a.isLt
  simp only [blockOf, BitVec.extractLsb'_toNat, BitVec.toNat_setWidth, Nat.shiftRight_eq_div_pow]
  omega

theorem aligned_toNat (a : Word) : (a &&& ~~~3).toNat = a.toNat / 4 * 4 := by
  have h : a &&& (~~~3 : Word) = (a >>> 2) <<< 2 := by
    apply BitVec.eq_of_getLsbD_eq
    intro i hi
    have : ∀ i, i < 32 → (~~~3 : Word).getLsbD i = decide (2 ≤ i) := by decide
    rw [BitVec.getLsbD_and, this i hi, BitVec.getLsbD_shiftLeft, BitVec.getLsbD_ushiftRight]
    by_cases h2 : 2 ≤ i
    · simp [hi, h2, show 2 + (i - 2) = i by omega, show ¬ i ≤ 1 by omega]
    · simp [h2]; omega
  have := a.isLt
  rw [h, BitVec.toNat_shiftLeft, BitVec.toNat_ushiftRight, Nat.shiftRight_eq_div_pow, Nat.shiftLeft_eq]
  omega

/-- A byte of a word in memory. -/
theorem memWord_byte (m : List Host.Cell) (a k : Nat) (h : k < 4) :
    (memWord m a).extractLsb' (8 * k) 8 = memByte m (a + k) := by
  obtain rfl | rfl | rfl | rfl : k = 0 ∨ k = 1 ∨ k = 2 ∨ k = 3 := by omega
  all_goals
    apply BitVec.eq_of_getLsbD_eq
    intro i hi
    rw [BitVec.getLsbD_extractLsb', memWord]
    iterate 3 rw [BitVec.getLsbD_append]
  · simp [hi]
  · simp [hi]
  · simp [hi, show ¬ 16 + i < 8 by omega, show ¬ 16 + i - 8 < 8 by omega, show 16 + i - 8 - 8 = i by omega]
  · simp [hi, show ¬ 24 + i < 8 by omega, show ¬ 24 + i - 8 < 8 by omega, show ¬ 24 + i - 8 - 8 < 8 by omega,
      show 24 + i - 8 - 8 - 8 = i by omega]

/-- A load of an aligned word reads that word of memory. -/
theorem loadAligned_direct {s : State} (va : Word) (user : Bool) (h : s.Direct) :
    loadAligned va user s = .ok (memWord s.mem (s.pidRemap va &&& ~~~3).toNat) s.noteAccess := by
  have hs : s.accessed 4 = s := by simp [State.accessed]
  have ha : (s.pidRemap va &&& ~~~3).toNat % 4 = 0 := by rw [aligned_toNat]; omega
  unfold loadAligned
  rw [bind_ok (get_ok s), bind_ok (translate_off _ _ _ h.mmu), bind_ok (modify_ok _ _), watch_off _ _ _ h.debug, hs]
  refine (bind_ok (loadLine_direct _ _ _ _ h)).trans ?_
  rw [lineWord_memLine, line_word _ ha]
  rfl

/-- What a store of `n` bytes of `v` at byte `k` of a block leaves in each byte of memory. -/
theorem memByte_memWriteLine_placeAt {m : List Host.Cell} {line : BitVec 31} {k n : Nat} (v : Word) (b : Nat) (hn : n ≤ 4)
    (hk : k + n ≤ 32) :
    memByte (memWriteLine m line (byteMask k n) (placeAt k v)) b =
      if line.toNat * 32 + k ≤ b ∧ b < line.toNat * 32 + k + n then v.extractLsb' (8 * (b - (line.toNat * 32 + k))) 8
      else memByte m b := by
  have hm : ∀ j, j < 32 → (byteMask k n).getLsbD j = decide (k ≤ j ∧ j < k + n) := by
    intro j hj
    rw [byteMask, BitVec.getLsbD_ofNat, ← Nat.shiftLeft_eq, Nat.testBit_shiftLeft, Nat.testBit_two_pow_sub_one]
    by_cases h1 : k ≤ j
    · simp [hj, h1]; omega
    · simp [h1]
  rw [memByte_memWriteLine]
  by_cases hb : line.toNat * 32 ≤ b ∧ b < line.toNat * 32 + 32
  · rw [hm _ (by omega)]
    by_cases h2 : line.toNat * 32 + k ≤ b ∧ b < line.toNat * 32 + k + n
    · rw [if_pos (by simp; omega), if_pos h2]
      apply BitVec.eq_of_getLsbD_eq
      intro i hi
      rw [BitVec.getLsbD_extractLsb', BitVec.getLsbD_extractLsb', placeAt, BitVec.getLsbD_shiftLeft, BitVec.getLsbD_setWidth]
      have e : 8 * (b - line.toNat * 32) + i - 8 * k = 8 * (b - (line.toNat * 32 + k)) + i := by omega
      rw [e]
      simp [hi, show 8 * (b - line.toNat * 32) + i < 256 by omega, show ¬ 8 * (b - line.toNat * 32) + i < 8 * k by omega]
      omega
    · rw [if_neg (by simp; omega), if_neg h2]
  · rw [if_neg (by omega), if_neg (by omega)]

/-- A store of an aligned word. -/
theorem storeAligned_direct {s : State} (va : Word) (user : Bool) (v : Word) (h : s.Direct) :
    ∃ mem, storeAligned va user v s = .ok () { s.noteAccess with mem := mem } ∧
      ∀ b, memByte mem b =
        let p := (s.pidRemap va &&& ~~~3).toNat
        if p ≤ b ∧ b < p + 4 then v.extractLsb' (8 * (b - p)) 8 else memByte s.mem b := by
  have e : storeAligned va user v s =
      .ok () { s.noteAccess with
        mem := memWriteLine s.mem (blockOf ((s.pidRemap va &&& ~~~3).setWidth 36))
          (byteMask (wordOffset (s.pidRemap va &&& ~~~3)) 4) (placeAt (wordOffset (s.pidRemap va &&& ~~~3)) v) } := by
    have hs : s.accessed 4 = s := by simp [State.accessed]
    unfold storeAligned
    rw [bind_ok (get_ok s), bind_ok (translate_off _ _ _ h.mmu), bind_ok (modify_ok _ _), watch_off _ _ _ h.debug, hs]
    exact storeLine_direct _ _ _ _ _ h
  refine ⟨_, e, fun b => ?_⟩
  have ha : (s.pidRemap va &&& ~~~3).toNat % 4 = 0 := by rw [aligned_toNat]; omega
  have hl := line_word _ ha
  have hk : wordOffset (s.pidRemap va &&& ~~~3) = 4 * ((s.pidRemap va &&& ~~~3).extractLsb' 2 3).toNat := by
    have e2 : (s.pidRemap va &&& ~~~3 : Word) &&& ~~~3 = s.pidRemap va &&& ~~~3 := by rw [BitVec.and_assoc, BitVec.and_self]
    rw [wordOffset, e2]
    simp only [BitVec.extractLsb'_toNat, Nat.shiftRight_eq_div_pow]; omega
  rw [memByte_memWriteLine_placeAt _ _ (by omega) (by rw [hk]; omega), hk, hl]

end Sys2Proof.Machine
end

