-- ==== Sys2Proof/Tests/Slice0.lean ====
section
/-!
SUPPORT. Tests: the checks of WellFormed, a word for every constructor, the worked examples of the spec (one step each, on
the state after reset or a small change of it), and a witness for every statement that has hypotheses.
-/
namespace Sys2Proof.Tests

open Sys2Proof Sys2Proof.Machine Sys2Proof.Spec

set_option maxRecDepth 4000
set_option Elab.async false

noncomputable section

/-- The outcome is a next state with a property. -/
def ends (r : Host.Outcome State Fault Refusal) (p : State → Bool) : Bool :=
  match r with
  | .next s => p s
  | _ => false

/-- The outcome is this refusal. -/
def refuses (r : Host.Outcome State Fault Refusal) (e : Refusal) : Bool :=
  match r with
  | .refused x => x == e
  | _ => false

/-- A step on an ARM word. -/
def run32 (w : Nat) (s : State) : Host.Outcome State Fault Refusal := step (s.withFetchWord 32 w)

/-- A step on a Thumb halfword. -/
def run16 (w : Nat) (s : State) : Host.Outcome State Fault Refusal := step (s.withFetchWord 16 w)

def withCpsr (v : Word) (s : State) : State := { s with cpsr := v }
def withPc (v : Word) (s : State) : State := { s with pc := v }
def withCtrl (v : Word) (s : State) : State := { s with cp15 := { s.cp15 with ctrl := v } }
def withSpsr (v : Word) (s : State) : State := s.setSpsrOf (bankOf s.mode) v
def withCpar (s : State) : State := { s with cp15 := { s.cp15 with cpar := 0x3FFF } }
def withAcc (v : BitVec 40) (s : State) : State := { withCpar s with acc0 := v }
def withRx (v : Word) (s : State) : State := { s with dbg := { s.dbg with rx := v, rr := true } }
def withRegs (l : List (Reg × Word)) (s : State) : State := l.foldl (fun s p => s.setReg p.1 p.2) s
def withWords (l : List (Nat × Word)) (s : State) : State :=
  { s with mem := l.foldl (fun m p => memSetWord m p.1 p.2) s.mem }

/-- Three words at 0x1000. -/
def withData (s : State) : State := withWords [(0x1000, 0x11223344), (0x1004, 0xAABBCCDD), (0x1008, 0x80018081)] s

/-! WellFormed: a term that each check refuses -/

/-- The spaces of the undefined encodings hold instructions. -/
theorem test_wf_undefined :
    [Instr.undefUncond 0xA000000, .undefExt .al 0x00000 0, .undefMisc .al 0 0, .tUndef1011 0x000].map Instr.wellFormed =
      [false, false, false, false] := rfl

/-- P = 0 with W = 1 is a T form. -/
theorem test_wf_user_forms :
    [Instr.ldrImm .al false true true 1 0 4, .ldrbImm .al false true true 1 0 4, .strImm .al false true true 1 0 4,
     .strbImm .al false true true 1 0 4, .ldrReg .al false true true 1 0 0 0 2, .ldrbReg .al false true true 1 0 0 0 2,
     .strReg .al false true true 1 0 0 0 2, .strbReg .al false true true 1 0 0 0 2].map Instr.wellFormed =
      [false, false, false, false, false, false, false, false] := rfl

/-- The spaces of other coprocessor rows. -/
theorem test_wf_coprocessor :
    [Instr.mcrr .al 1 0 0 0 2, .mrrc .al 1 0 0 0 2, .ldcP14 .al false false true false 0 8 0, .stcP14 .al false false true false 0 9 0,
     .ldc .al false false true false 0 8 2 0, .ldc .al true true false false 0 8 14 0, .stc .al false false true false 0 8 2 0,
     .stc .al true true false false 0 8 14 0, .mcr .al 0 0 0 15 0 0, .mcr .al 0 0 0 14 0 0, .mcr .al 0 0 0 0 0 0,
     .mcr .al 0 0 0 7 0 2, .mrc .al 0 0 0 15 0 0, .mrc .al 0 0 0 14 0 0, .mrc .al 0 0 0 0 0 0, .mrc .al 0 0 0 7 0 2].any
      Instr.wellFormed = false := rfl

/-- A coprocessor register or function that has a row of its own; a Thumb branch on AL. -/
theorem test_wf_other :
    [Instr.mcrP15Other .al 0 1 0 0 0, .mrcP15Other .al 0 1 0 0 0, .mcrP14Other .al 0 8 0 0 0, .mrcP14Other .al 0 9 0 0 0,
     .mcrP7Other .al 0 0 0 0, .mrcP7Other .al 0 1 0 0, .mcrP0Other .al 1 8 0 0 0, .tBCond .al 0].any Instr.wellFormed = false := rfl

/-! Decoding: a word of every row of the opcode table, its pattern filled with values for its fields -/

/-- `45_arm_loadstore`, the patterns of `opcode_table.json` -/
theorem test_decode_arm_arm_loadstore_1 :
    [0xF55EF8F4, 0xF7DDF749, 0xE10EA493, 0xE14D989B, 0xE18853B2, 0xE1EB1AD7, 0xE16AB3FA, 0xE0D114B4, 0xE1568ADE,
     0xE0B581FB, 0xE438B473, 0xE479E154, 0xE4A56C20, 0xE4695079].map (fun w => decode (.arm w)) =
      [.pldImm false 14 0x8f4, .pldReg true 13 14 2 9, .swp .al 14 10 4 3, .swpb .al 13 9 8 11,
       .strh .al true true false false 8 5 3 2, .ldrd .al true true true true 11 1 10 7,
       .strd .al true false true true 10 11 3 10, .ldrh .al false true true false 1 1 4 4,
       .ldrsb .al true false true false 6 8 10 14, .ldrsh .al false true false true 5 8 1 11,
       .ldrtImm .al false 8 11 0x473, .ldrbtImm .al false 9 14 0x154, .strtImm .al true 5 6 0xc20,
       .strbtImm .al false 9 5 0x79] := rfl

/-- `45_arm_loadstore`, the patterns of `opcode_table.json` -/
theorem test_decode_arm_arm_loadstore_2 :
    [0xE5121D8E, 0xE5541785, 0xE58DB451, 0xE4461F6C, 0xE63D222C, 0xE6711743, 0xE6A94764, 0xE6ECD24B, 0xE617404E,
     0xE7FA5FA4, 0xE684842D, 0xE7657122, 0xE8B403F8, 0xE95A3A02].map (fun w => decode (.arm w)) =
      [.ldrImm .al true false false 2 1 0xd8e, .ldrbImm .al true false false 4 1 0x785,
       .strImm .al true true false 13 11 0x451, .strbImm .al false false false 6 1 0xf6c,
       .ldrtReg .al false 13 2 4 1 12, .ldrbtReg .al false 1 1 14 2 3, .strtReg .al true 9 4 14 3 4,
       .strbtReg .al true 12 13 4 2 11, .ldrReg .al false false false 7 4 0 2 14,
       .ldrbReg .al true true true 10 5 0x1f 1 4, .strReg .al false true false 4 8 8 1 13,
       .strbReg .al true false true 5 7 2 1 2, .ldm .al false true true 4 0x3f8,
       .ldmUser .al true false false 10 0x3a02] := rfl

/-- `45_arm_loadstore`, the patterns of `opcode_table.json` -/
theorem test_decode_arm_arm_loadstore_3 :
    [0xE8F8EA8A, 0xE9272ECD, 0xE944D15B].map (fun w => decode (.arm w)) =
      [.ldmReturn .al false true true 8 0x6a8a, .stm .al true false true 7 0x2ecd,
       .stmUser .al true false false 4 0xd15b] := rfl

/-- `40_arm_base`, the patterns of `opcode_table.json` -/
theorem test_decode_arm_arm_base_1 :
    [0xFB3FDF23, 0xE0143C9B, 0xE0394B97, 0xE098A297, 0xE0A22199, 0xE0D54C9C, 0xE0E57E9A, 0xE105930C, 0xE1622004,
     0xE127AB19, 0xE12A743E, 0xE16AA215, 0xE004C025, 0xE02840A3].map (fun w => decode (.arm w)) =
      [.blxImm true 0x3fdf23, .mul .al true 4 3 12 11, .mla .al true 9 4 11 7, .umull .al true 8 10 2 7,
       .umlal .al false 2 2 1 9, .smull .al true 5 4 12 12, .smlal .al false 5 7 14 10, .mrs .al false 5 9 3 12,
       .msrReg .al true 2 0x20 4, .bx .al 0x7ab 9, .blxReg .al 0xa74 14, .clz .al 10 10 2 5,
       .andShImm .al false 4 12 0 1 5, .eorShImm .al false 8 4 1 1 3] := rfl

/-- `40_arm_base`, the patterns of `opcode_table.json` -/
theorem test_decode_arm_arm_base_2 :
    [0xE0469922, 0xE0638FCB, 0xE09C992A, 0xE0A18ECC, 0xE0C119E2, 0xE0E2C4C3, 0xE1122766, 0xE13C1E6C, 0xE15C3CC6,
     0xE172B7AE, 0xE197D04A, 0xE1AAB64A, 0xE1CA212B, 0xE1E57BC7].map (fun w => decode (.arm w)) =
      [.subShImm .al false 6 9 0x12 1 2, .rsbShImm .al false 3 8 0x1f 2 11, .addShImm .al true 12 9 0x12 1 10,
       .adcShImm .al false 1 8 0x1d 2 12, .sbcShImm .al false 1 1 0x13 3 2, .rscShImm .al false 2 12 9 2 3,
       .tstShImm .al 2 2 14 3 6, .teqShImm .al 12 1 0x1c 3 12, .cmpShImm .al 12 3 0x19 2 6,
       .cmnShImm .al 2 11 15 1 14, .orrShImm .al true 7 13 0 2 10, .movShImm .al false 10 11 12 2 10,
       .bicShImm .al false 10 2 2 1 11, .mvnShImm .al false 5 7 0x17 2 7] := rfl

/-- `40_arm_base`, the patterns of `opcode_table.json` -/
theorem test_decode_arm_arm_base_3 :
    [0xE01CCA58, 0xE02E927D, 0xE0515A38, 0xE064C25D, 0xE09B8536, 0xE0A3BA39, 0xE0CD6B58, 0xE0F46775, 0xE114B734,
     0xE1374A54, 0xE153385E, 0xE17E1C35, 0xE1932855, 0xE1B4E75B].map (fun w => decode (.arm w)) =
      [.andShReg .al true 12 12 10 2 8, .eorShReg .al false 14 9 2 3 13, .subShReg .al true 1 5 10 1 8,
       .rsbShReg .al false 4 12 2 2 13, .addShReg .al true 11 8 5 1 6, .adcShReg .al false 3 11 10 1 9,
       .sbcShReg .al false 13 6 11 2 8, .rscShReg .al true 4 6 7 3 5, .tstShReg .al 4 11 7 1 4,
       .teqShReg .al 7 4 10 2 4, .cmpShReg .al 3 3 8 2 14, .cmnShReg .al 14 1 12 1 5, .orrShReg .al true 3 2 8 2 5,
       .movShReg .al true 4 14 7 2 11] := rfl

/-- `40_arm_base`, the patterns of `opcode_table.json` -/
theorem test_decode_arm_arm_base_4 :
    [0xE1D8B67E, 0xE1FA863E, 0xE325EA0A, 0xE21C5A5A, 0xE22BDA04, 0xE2537830, 0xE26DE53C, 0xE293D1FB, 0xE2B282A1,
     0xE2DBBD5E, 0xE2F2B433, 0xE31E852D, 0xE33C1D78, 0xE359C12D].map (fun w => decode (.arm w)) =
      [.bicShReg .al true 8 11 6 3 14, .mvnShReg .al true 10 8 6 1 14, .msrImm .al false 5 14 10 10,
       .andImm .al true 12 5 10 0x5a, .eorImm .al false 11 13 10 4, .subImm .al true 3 7 8 0x30,
       .rsbImm .al false 13 14 5 0x3c, .addImm .al true 3 13 1 0xfb, .adcImm .al true 2 8 2 0xa1,
       .sbcImm .al true 11 11 13 0x5e, .rscImm .al true 2 11 4 0x33, .tstImm .al 14 8 5 0x2d,
       .teqImm .al 12 1 13 0x78, .cmpImm .al 9 12 1 0x2d] := rfl

/-- `40_arm_base`, the patterns of `opcode_table.json` -/
theorem test_decode_arm_arm_base_5 :
    [0xE3745D58, 0xE39C999D, 0xE3BD37D9, 0xE3DC4269, 0xE3FC7373, 0xEA741AF2, 0xEB326683].map (fun w => decode (.arm w)) =
      [.cmnImm .al 4 5 13 0x58, .orrImm .al true 12 9 9 0x9d, .movImm .al true 13 3 7 0xd9,
       .bicImm .al true 12 4 2 0x69, .mvnImm .al true 12 7 3 0x73, .b .al 0x741af2, .bl .al 0x326683] := rfl

/-- `30_encoding`, the patterns of `opcode_table.json` -/
theorem test_decode_arm_encoding_1 :
    [0xFDD79AA7, 0xFDE686A6, 0xFE42CEED, 0xFECC2457, 0xFE359D75, 0xF040182F, 0xE119C197, 0xE1237E22, 0xE34DE17B,
     0xE620CC17].map (fun w => decode (.arm w)) =
      [.ldc2 true true true false 7 9 10 0xa7, .stc2 true true true true 6 8 6 0xa6, .cdp2 4 2 12 14 7 13,
       .mcr2 6 12 2 4 2 7, .mrc2 1 5 9 13 3 5, .undefUncond 0x40182f, .undefExt .al 0x119c1 7,
       .undefMisc .al 1 0x37e22, .undefImm .al true 0xde17b, .undefMedia .al 0x10660 7] := rfl

/-- `41_dsp_thumb`, the patterns of `opcode_table.json` -/
theorem test_decode_arm_dsp_thumb_1 :
    [0xE10D1359, 0xE126BD53, 0xE148395C, 0xE169EB5C, 0xE1088AE2, 0xE12D48C9, 0xE125ECEB, 0xE14399E9, 0xE1655BAE].map (fun w => decode (.arm w)) =
      [.qadd .al 13 1 3 9, .qsub .al 6 11 13 3, .qdadd .al 8 3 9 12, .qdsub .al 9 14 11 12,
       .smlaXY .al 8 8 10 true true 2, .smlawY .al 13 4 8 true 9, .smulwY .al 5 14 12 true 11,
       .smlalXY .al 3 9 9 true true 9, .smulXY .al 5 5 11 false true 14] := rfl

/-- `60_exceptions`, the patterns of `opcode_table.json` -/
theorem test_decode_arm_exceptions_1 :
    [0xE12DEB7A, 0xEF354F30].map (fun w => decode (.arm w)) =
      [.bkpt .al 0xdeb 10, .swi .al 0x354f30] := rfl

/-- `42_cp0_accumulator`, the patterns of `opcode_table.json` -/
theorem test_decode_arm_cp0_accumulator_1 :
    [0xEC45E025, 0xEC595094, 0xEE204099, 0xEE2820B1, 0xEE2CA091, 0xEE2D9039, 0xEE2E70BD, 0xEE2FA038, 0xEE87D095,
     0xEE588056].map (fun w => decode (.arm w)) =
      [.mar .al 5 14 4 5, .mra .al 9 5 0x12 4, .mia .al 4 4 9, .miaph .al 2 5 1, .miabb .al 10 4 1,
       .miabt .al 9 1 9, .miatb .al 7 5 13, .miatt .al 10 1 8, .mcrP0Other .al 4 7 13 4 5, .mrcP0Other .al 2 8 8 2 6] := rfl

/-- `44_cp14_cp7`, the patterns of `opcode_table.json` -/
theorem test_decode_arm_cp14_cp7_1 :
    [0xEC47E896, 0xEC5247A1, 0xED3D1E09, 0xEC0B5E52, 0xED3828BB, 0xED6A5C32, 0xEEC9718B, 0xEE107E11, 0xEE00EE11,
     0xEE119E11, 0xEE01AE11, 0xEE143E11, 0xEE049E11, 0xEE154E11].map (fun w => decode (.arm w)) =
      [.mcrr .al 7 14 8 9 6, .mrrc .al 2 4 7 10 1, .ldcP14 .al true false false true 13 1 9,
       .stcP14 .al false false false false 11 5 0x52, .ldc .al true false false true 8 2 8 0xbb,
       .stc .al true false true true 10 5 12 0x32, .cdp .al 12 9 7 1 4 11, .mrcPmnc .al 7, .mcrPmnc .al 14,
       .mrcCcnt .al 9, .mcrCcnt .al 10, .mrcInten .al 3, .mcrInten .al 9, .mrcFlag .al 4] := rfl

/-- `44_cp14_cp7`, the patterns of `opcode_table.json` -/
theorem test_decode_arm_cp14_cp7_2 :
    [0xEE05EE11, 0xEE18BE11, 0xEE089E11, 0xEE10BE12, 0xEE004E12, 0xEE119E12, 0xEE014E12, 0xEE12EE12, 0xEE029E12,
     0xEE13AE12, 0xEE03AE12, 0xEE16EE10, 0xEE063E10, 0xEE174E10].map (fun w => decode (.arm w)) =
      [.mcrFlag .al 14, .mrcEvtsel .al 11, .mcrEvtsel .al 9, .mrcPmn0 .al 11, .mcrPmn0 .al 4, .mrcPmn1 .al 9,
       .mcrPmn1 .al 4, .mrcPmn2 .al 14, .mcrPmn2 .al 9, .mrcPmn3 .al 10, .mcrPmn3 .al 10, .mrcCclkcfg .al 14,
       .mcrCclkcfg .al 3, .mrcPwrmode .al 4] := rfl

/-- `44_cp14_cp7`, the patterns of `opcode_table.json` -/
theorem test_decode_arm_cp14_cp7_3 :
    [0xEE07CE10, 0xEE08BE10, 0xEE19DE10, 0xEE1A6E10, 0xEE0A3E10, 0xEE1B6E10, 0xEE1CAE10, 0xEE0C6E10, 0xEE1D4E10,
     0xEE0D4E10, 0xEE1EDE10, 0xEE0E4E10, 0xEE102712, 0xEE003712].map (fun w => decode (.arm w)) =
      [.mcrPwrmode .al 12, .mcrTx .al 11, .mrcRx .al 13, .mrcDcsr .al 6, .mcrDcsr .al 3, .mrcTbreg .al 6,
       .mrcChkpt0 .al 10, .mcrChkpt0 .al 6, .mrcChkpt1 .al 4, .mcrChkpt1 .al 4, .mrcTxrxctrl .al 13,
       .mcrTxrxctrl .al 4, .mrcErrlog .al 2, .mcrErrlog .al 3] := rfl

/-- `44_cp14_cp7`, the patterns of `opcode_table.json` -/
theorem test_decode_arm_cp14_cp7_4 :
    [0xEE114712, 0xEE013712, 0xEE12C712, 0xEE022712, 0xEE672E9E, 0xEE89D7D2, 0xEE447BDD, 0xEE324EBB, 0xEE7E6732,
     0xEED9BD79].map (fun w => decode (.arm w)) =
      [.mrcErradrl .al 4, .mcrErradrl .al 3, .mrcErradru .al 12, .mcrErradru .al 2, .mcrP14Other .al 3 7 2 4 14,
       .mcrP7Other .al 4 9 13 6, .mcr .al 2 4 7 11 6 13, .mrcP14Other .al 1 2 4 5 11, .mrcP7Other .al 3 14 6 1,
       .mrc .al 6 9 11 13 3 9] := rfl

/-- `43_cp15_functions`, the patterns of `opcode_table.json` -/
theorem test_decode_arm_cp15_functions_1 :
    [0xEE07BF15, 0xEE07EF35, 0xEE074FD5, 0xEE07DF16, 0xEE072F36, 0xEE078F17, 0xEE072F3A, 0xEE071F5A, 0xEE071F3E,
     0xEE07DF5E, 0xEE279F37, 0xEE27AF3B, 0xEE279F5B, 0xEE27AF5F].map (fun w => decode (.arm w)) =
      [.mcrInvICacheBtb .al 11, .mcrInvICacheLine .al 14, .mcrInvBtb .al 4, .mcrInvDCache .al 13,
       .mcrInvDCacheLine .al 2, .mcrInvCachesBtb .al 8, .mcrCleanDLineMva .al 2, .mcrCleanDLineSetWay .al 1,
       .mcrCleanInvDLineMva .al 1, .mcrCleanInvDLineSetWay .al 13, .mcrInvL2Line .al 9, .mcrCleanL2LineMva .al 10,
       .mcrCleanL2LineSetWay .al 9, .mcrCleanInvL2LineSetWay .al 10] := rfl

/-- `43_cp15_functions`, the patterns of `opcode_table.json` -/
theorem test_decode_arm_cp15_functions_2 :
    [0xEE078F95, 0xEE073F9A, 0xEE074FBA, 0xEE073FB2, 0xEE082F17, 0xEE084F15, 0xEE083F35, 0xEE08EF16, 0xEE083F36,
     0xEE095F15, 0xEE29BF15, 0xEE092F35, 0xEE29AF35, 0xEE291F55].map (fun w => decode (.arm w)) =
      [.mcrPrefetchFlush .al 8, .mcrDataWriteBarrier .al 3, .mcrDataMemoryBarrier .al 4, .mcrDLineAllocate .al 3,
       .mcrInvTlbs .al 2, .mcrInvITlb .al 4, .mcrInvITlbEntry .al 3, .mcrInvDTlb .al 14, .mcrInvDTlbEntry .al 3,
       .mcrLockILine .al 5, .mcrLockL2Line .al 11, .mcrUnlockICache .al 2, .mcrUnlockL2 .al 10,
       .mcrAllocLockL2Line .al 1] := rfl

/-- `43_cp15_functions`, the patterns of `opcode_table.json` -/
theorem test_decode_arm_cp15_functions_3 :
    [0xEE193F16, 0xEE09BF16, 0xEE098F36, 0xEE092F11, 0xEE09DF31, 0xEE192F12, 0xEE096F12, 0xEE097F32, 0xEE0A8F14,
     0xEE0A7F34, 0xEE0A9F18, 0xEE0A6F38, 0xEE84AF71, 0xEEDC1FF4].map (fun w => decode (.arm w)) =
      [.mrcDLock .al 3, .mcrDLock .al 11, .mcrUnlockDCache .al 8, .mcrLockILineLegacy .al 2,
       .mcrUnlockICacheLegacy .al 13, .mrcDLockLegacy .al 2, .mcrDLockLegacy .al 6, .mcrUnlockDCacheLegacy .al 7,
       .mcrLockITlbEntry .al 8, .mcrUnlockITlb .al 7, .mcrLockDTlbEntry .al 9, .mcrUnlockDTlb .al 6,
       .mcrP15Other .al 4 4 10 3 1, .mrcP15Other .al 6 12 1 7 4] := rfl

/-- `10_state`, the patterns of `opcode_table.json` -/
theorem test_decode_arm_state_1 :
    [0xEE103F10, 0xEE007F10, 0xEE108F30, 0xEE006F30, 0xEE30CF10, 0xEE206F10, 0xEE307F30, 0xEE204F30, 0xEE11AF10,
     0xEE013F10, 0xEE112F30, 0xEE019F30, 0xEE12DF10, 0xEE021F10].map (fun w => decode (.arm w)) =
      [.mrcMainId .al 3, .mcrMainId .al 7, .mrcCacheType .al 8, .mcrCacheType .al 6, .mrcL2SystemId .al 12,
       .mcrL2SystemId .al 6, .mrcL2CacheType .al 7, .mcrL2CacheType .al 4, .mrcControl .al 10, .mcrControl .al 3,
       .mrcAuxControl .al 2, .mcrAuxControl .al 9, .mrcTtBase .al 13, .mcrTtBase .al 1] := rfl

/-- `10_state`, the patterns of `opcode_table.json` -/
theorem test_decode_arm_state_2 :
    [0xEE136F10, 0xEE032F10, 0xEE15DF10, 0xEE05EF10, 0xEE16CF10, 0xEE06EF10, 0xEE1DBF10, 0xEE0D7F10, 0xEE1EAF18,
     0xEE0EAF18, 0xEE1E4F19, 0xEE0E9F19, 0xEE1EAF10, 0xEE0E6F10].map (fun w => decode (.arm w)) =
      [.mrcDacr .al 6, .mcrDacr .al 2, .mrcFsr .al 13, .mcrFsr .al 14, .mrcFar .al 12, .mcrFar .al 14,
       .mrcProcessId .al 11, .mcrProcessId .al 7, .mrcIbr0 .al 10, .mcrIbr0 .al 10, .mrcIbr1 .al 4, .mcrIbr1 .al 9,
       .mrcDbr0 .al 10, .mcrDbr0 .al 6] := rfl

/-- `10_state`, the patterns of `opcode_table.json` -/
theorem test_decode_arm_state_3 :
    [0xEE1EDF13, 0xEE0EDF13, 0xEE1E5F14, 0xEE0E5F14, 0xEE1F2F11, 0xEE0FCF11].map (fun w => decode (.arm w)) =
      [.mrcDbr1 .al 13, .mcrDbr1 .al 13, .mrcDbcon .al 5, .mcrDbcon .al 5, .mrcCpar .al 2, .mcrCpar .al 12] := rfl

/-- `41_dsp_thumb`, the patterns of `opcode_table.json` -/
theorem test_decode_thumb_dsp_thumb_1 :
    [0x05FA, 0x0EA2, 0x171D, 0x199F, 0x1B3A, 0x1D16, 0x1E8F, 0x234D, 0x2C19, 0x31E3, 0x3BFD, 0x4035, 0x404A, 0x409E].map (fun w => decode (.thumb w)) =
      [.tLslImm 0x17 7 2, .tLsrImm 0x1a 4 2, .tAsrImm 0x1c 3 5, .tAddReg 6 3 7, .tSubReg 4 7 2, .tAddImm3 4 2 6,
       .tSubImm3 2 1 7, .tMovImm 3 0x4d, .tCmpImm 4 0x19, .tAddImm8 1 0xe3, .tSubImm8 3 0xfd, .tAnd 6 5, .tEor 1 2,
       .tLslReg 3 6] := rfl

/-- `41_dsp_thumb`, the patterns of `opcode_table.json` -/
theorem test_decode_thumb_dsp_thumb_2 :
    [0x40DB, 0x4116, 0x4165, 0x4195, 0x41CC, 0x422C, 0x4272, 0x42B1, 0x42FC, 0x4329, 0x434D, 0x438E, 0x43D3, 0x4429].map (fun w => decode (.thumb w)) =
      [.tLsrReg 3 3, .tAsrReg 2 6, .tAdc 4 5, .tSbc 2 5, .tRor 1 4, .tTst 5 4, .tNeg 6 2, .tCmpReg 6 1, .tCmn 7 4,
       .tOrr 5 1, .tMul 1 5, .tBic 1 6, .tMvn 2 3, .tAddHigh false false 5 1] := rfl

/-- `41_dsp_thumb`, the patterns of `opcode_table.json` -/
theorem test_decode_thumb_dsp_thumb_3 :
    [0x45B4, 0x461B, 0x471D, 0x47EC, 0x4D91, 0x51CE, 0x533E, 0x546D, 0x57B9, 0x5914, 0x5B17, 0x5D2D, 0x5F4C, 0x67A4].map (fun w => decode (.thumb w)) =
      [.tCmpHigh true false 6 4, .tMovHigh false false 3 3, .tBx false 3 5, .tBlxReg true 5 4, .tLdrPc 5 0x91,
       .tStrReg 7 1 6, .tStrhReg 4 7 6, .tStrbReg 1 5 5, .tLdrsbReg 6 7 1, .tLdrReg 4 2 4, .tLdrhReg 4 2 7,
       .tLdrbReg 4 5 5, .tLdrshReg 5 1 4, .tStrImm 0x1e 4 4] := rfl

/-- `41_dsp_thumb`, the patterns of `opcode_table.json` -/
theorem test_decode_thumb_dsp_thumb_4 :
    [0x6A6C, 0x74DB, 0x7C1C, 0x851D, 0x8F5E, 0x96BF, 0x9B06, 0xA1C5, 0xAA95, 0xB005, 0xB0D1, 0xB468, 0xBDAF, 0xBE63].map (fun w => decode (.thumb w)) =
      [.tLdrImm 9 5 4, .tStrbImm 0x13 3 3, .tLdrbImm 0x10 3 4, .tStrhImm 0x14 3 5, .tLdrhImm 0x1d 3 6,
       .tStrSp 6 0xbf, .tLdrSp 3 6, .tAddPcImm 1 0xc5, .tAddSpImm 2 0x95, .tIncSp 5, .tDecSp 0x51,
       .tPush false 0x68, .tPop true 0xaf, .tBkpt 0x63] := rfl

/-- `41_dsp_thumb`, the patterns of `opcode_table.json` -/
theorem test_decode_thumb_dsp_thumb_5 :
    [0xBBF9, 0xC40C, 0xCDFD, 0xDFB9, 0xDEF1, 0xD512, 0xE661, 0xEF3E, 0xE9CB, 0xF36F, 0xFDC0].map (fun w => decode (.thumb w)) =
      [.tUndef1011 0xbf9, .tStmia 4 12, .tLdmia 5 0xfd, .tSwi 0xb9, .tUndefCond 0xf1, .tBCond .pl 0x12, .tB 0x661,
       .tBlxSuffix 0x39f, .tUndefBlx 0xe5, .tBlPrefix 0x36f, .tBlSuffix 0x5c0] := rfl

/-! The worked examples of the spec: one step each -/

/-- `40_arm_base` R510 -/
theorem test_and :
    ends (run32 0xE0010002 (withRegs [(1, 0xF0F0F0F0), (2, 0x0FF00FF0)] State.reset))
      (fun s => s.reg 0 == 0x00F000F0) = true := by decide +kernel

/-- `40_arm_base` R511 -/
theorem test_eor :
    ends (run32 0xE22430FF (withRegs [(4, 0x12345678)] State.reset))
      (fun s => s.reg 3 == 0x12345687) = true := by decide +kernel

/-- `40_arm_base` R512 -/
theorem test_subs :
    ends (run32 0xE0510002 (withRegs [(1, 5), (2, 7)] State.reset))
      (fun s => s.reg 0 == 0xFFFFFFFE && s.cpsr >>> 28 == 8) = true := by decide +kernel

/-- `40_arm_base` R513 -/
theorem test_rsb :
    ends (run32 0xE2610000 (withRegs [(1, 1)] State.reset))
      (fun s => s.reg 0 == 0xFFFFFFFF) = true := by decide +kernel

/-- `40_arm_base` R514 -/
theorem test_add_shifted :
    ends (run32 0xE0810102 (withRegs [(1, 0x1000), (2, 3)] State.reset))
      (fun s => s.reg 0 == 0x100C) = true := by decide +kernel

/-- `40_arm_base` R514 -/
theorem test_adds_overflow :
    ends (run32 0xE0910002 (withRegs [(1, 0x7FFFFFFF), (2, 1)] State.reset))
      (fun s => s.reg 0 == 0x80000000 && s.cpsr >>> 28 == 9) = true := by decide +kernel

/-- `40_arm_base` R515 -/
theorem test_adcs :
    ends (run32 0xE0B10002 (withRegs [(1, 0xFFFFFFFF), (2, 0)] (withCpsr 0x200000D3 State.reset)))
      (fun s => s.reg 0 == 0 && s.cpsr >>> 28 == 6) = true := by decide +kernel

/-- `40_arm_base` R516 -/
theorem test_sbcs :
    ends (run32 0xE0D10002 (withRegs [(1, 5), (2, 5)] State.reset))
      (fun s => s.reg 0 == 0xFFFFFFFF && s.cpsr >>> 28 == 8) = true := by decide +kernel

/-- `40_arm_base` R517 -/
theorem test_rsc :
    ends (run32 0xE2E10000 (withRegs [(1, 0)] (withCpsr 0x200000D3 State.reset)))
      (fun s => s.reg 0 == 0) = true := by decide +kernel

/-- `40_arm_base` R518 -/
theorem test_tst :
    ends (run32 0xE3100001 (withRegs [(0, 2)] (withCpsr 0x200000D3 State.reset)))
      (fun s => s.cpsr >>> 28 == 6) = true := by decide +kernel

/-- `40_arm_base` R519 -/
theorem test_teq :
    ends (run32 0xE1300001 (withRegs [(0, 7), (1, 7)] State.reset))
      (fun s => s.cpsr >>> 28 == 4) = true := by decide +kernel

/-- `40_arm_base` R520 -/
theorem test_cmp_equal :
    ends (run32 0xE3500005 (withRegs [(0, 5)] State.reset))
      (fun s => s.cpsr >>> 28 == 6) = true := by decide +kernel

/-- `40_arm_base` R520 -/
theorem test_cmp_overflow :
    ends (run32 0xE3500005 (withRegs [(0, 0x80000000)] State.reset))
      (fun s => s.cpsr >>> 28 == 3) = true := by decide +kernel

/-- `40_arm_base` R521 -/
theorem test_cmn :
    ends (run32 0xE3700001 (withRegs [(0, 0xFFFFFFFF)] State.reset))
      (fun s => s.cpsr >>> 28 == 6) = true := by decide +kernel

/-- `40_arm_base` R522 -/
theorem test_orr :
    ends (run32 0xE3800080 (withRegs [(0, 0x13)] State.reset))
      (fun s => s.reg 0 == 0x93) = true := by decide +kernel

/-- `40_arm_base` R503 -/
theorem test_mov :
    ends (run32 0xE3A004FF State.reset)
      (fun s => s.reg 0 == 0xFF000000) = true := by decide +kernel

/-- `40_arm_base` R524 -/
theorem test_bic :
    ends (run32 0xE3C0001F (withRegs [(0, 0x600000D3)] State.reset))
      (fun s => s.reg 0 == 0x600000C0) = true := by decide +kernel

/-- `40_arm_base` R525 -/
theorem test_mvn :
    ends (run32 0xE3E00000 State.reset)
      (fun s => s.reg 0 == 0xFFFFFFFF) = true := by decide +kernel

/-- `40_arm_base` R531 -/
theorem test_mul :
    ends (run32 0xE0000291 (withRegs [(1, 0x10000), (2, 0x10001)] State.reset))
      (fun s => s.reg 0 == 0x00010000) = true := by decide +kernel

/-- `40_arm_base` R532 -/
theorem test_mla :
    ends (run32 0xE0203291 (withRegs [(1, 3), (2, 4), (3, 5)] State.reset))
      (fun s => s.reg 0 == 17) = true := by decide +kernel

/-- `40_arm_base` R533 -/
theorem test_umull :
    ends (run32 0xE0810392 (withRegs [(2, 0xFFFFFFFF), (3, 0xFFFFFFFF)] State.reset))
      (fun s => s.reg 1 == 0xFFFFFFFE && s.reg 0 == 1) = true := by decide +kernel

/-- `40_arm_base` R534 -/
theorem test_umlal :
    ends (run32 0xE0A10392 (withRegs [(2, 2), (3, 3), (1, 0), (0, 0xFFFFFFFF)] State.reset))
      (fun s => s.reg 1 == 1 && s.reg 0 == 5) = true := by decide +kernel

/-- `40_arm_base` R535 -/
theorem test_smull :
    ends (run32 0xE0C10392 (withRegs [(2, 0xFFFFFFFF), (3, 2)] State.reset))
      (fun s => s.reg 1 == 0xFFFFFFFF && s.reg 0 == 0xFFFFFFFE) = true := by decide +kernel

/-- `40_arm_base` R536 -/
theorem test_smlal :
    ends (run32 0xE0E10392 (withRegs [(2, 0xFFFFFFFF), (3, 1)] State.reset))
      (fun s => s.reg 1 == 0xFFFFFFFF && s.reg 0 == 0xFFFFFFFF) = true := by decide +kernel

/-- `40_arm_base` R555 -/
theorem test_clz :
    ends (run32 0xE16F2F13 (withRegs [(3, 0x00010000)] State.reset))
      (fun s => s.reg 2 == 15) = true := by decide +kernel

/-- `40_arm_base` R555 -/
theorem test_clz_zero :
    ends (run32 0xE16F2F13 (withRegs [(3, 0)] State.reset))
      (fun s => s.reg 2 == 32) = true := by decide +kernel

/-- `41_dsp_thumb` R650 -/
theorem test_smulbb :
    ends (run32 0xE1600281 (withRegs [(1, 0xFFFF0003), (2, 0x00020004)] State.reset))
      (fun s => s.reg 0 == 12) = true := by decide +kernel

/-- `41_dsp_thumb` R650 -/
theorem test_smultb :
    ends (run32 0xE16002A1 (withRegs [(1, 0xFFFF0003), (2, 0x00020004)] State.reset))
      (fun s => s.reg 0 == 0xFFFFFFFC) = true := by decide +kernel

/-- `41_dsp_thumb` R651 -/
theorem test_smlabt :
    ends (run32 0xE10032C1 (withRegs [(1, 2), (2, 0x00030000), (3, 0x7FFFFFFF)] State.reset))
      (fun s => s.reg 0 == 0x80000005 && s.cpsr.getLsbD 27) = true := by decide +kernel

/-- `41_dsp_thumb` R652 -/
theorem test_smulwb :
    ends (run32 0xE12002A1 (withRegs [(1, 0x00010000), (2, 3)] State.reset))
      (fun s => s.reg 0 == 3) = true := by decide +kernel

/-- `41_dsp_thumb` R653 -/
theorem test_smlawt :
    ends (run32 0xE12032C1 (withRegs [(1, 0x00010000), (2, 0x00030000), (3, 4)] State.reset))
      (fun s => s.reg 0 == 7) = true := by decide +kernel

/-- `41_dsp_thumb` R654 -/
theorem test_smlalbb :
    ends (run32 0xE1410382 (withRegs [(2, 0xFFFF), (3, 1)] State.reset))
      (fun s => s.reg 1 == 0xFFFFFFFF && s.reg 0 == 0xFFFFFFFF) = true := by decide +kernel

/-- `41_dsp_thumb` R655 -/
theorem test_qadd :
    ends (run32 0xE1020051 (withRegs [(1, 0x7FFFFFFF), (2, 1)] State.reset))
      (fun s => s.reg 0 == 0x7FFFFFFF && s.cpsr.getLsbD 27) = true := by decide +kernel

/-- `41_dsp_thumb` R656 -/
theorem test_qsub :
    ends (run32 0xE1220051 (withRegs [(1, 0x80000000), (2, 1)] State.reset))
      (fun s => s.reg 0 == 0x80000000 && s.cpsr.getLsbD 27) = true := by decide +kernel

/-- `41_dsp_thumb` R657 -/
theorem test_qdadd :
    ends (run32 0xE1420051 (withRegs [(1, 1), (2, 0x40000000)] State.reset))
      (fun s => s.reg 0 == 0x7FFFFFFF && s.cpsr.getLsbD 27) = true := by decide +kernel

/-- `41_dsp_thumb` R658 -/
theorem test_qdsub :
    ends (run32 0xE1620051 (withRegs [(1, 0), (2, 0xC0000000)] State.reset))
      (fun s => s.reg 0 == 0x7FFFFFFF && s.cpsr.getLsbD 27) = true := by decide +kernel

/-- `40_arm_base` R540 -/
theorem test_b_self :
    ends (run32 0xEAFFFFFE (withPc 0x8000 State.reset))
      (fun s => s.pc == 0x8000) = true := by decide +kernel

/-- `40_arm_base` R541 -/
theorem test_bl :
    ends (run32 0xEB000002 (withPc 0x8000 State.reset))
      (fun s => s.pc == 0x8010 && s.reg 14 == 0x8004) = true := by decide +kernel

/-- `40_arm_base` R542 -/
theorem test_bx :
    ends (run32 0xE12FFF10 (withRegs [(0, 0x8001)] State.reset))
      (fun s => s.pc == 0x8000 && s.thumb) = true := by decide +kernel

/-- `40_arm_base` R543 -/
theorem test_blx_imm :
    ends (run32 0xFB000002 (withPc 0x8000 State.reset))
      (fun s => s.pc == 0x8012 && s.thumb && s.reg 14 == 0x8004) = true := by decide +kernel

/-- `40_arm_base` R544 -/
theorem test_blx_reg :
    ends (run32 0xE12FFF31 (withRegs [(1, 0x9001)] (withPc 0x8000 State.reset)))
      (fun s => s.pc == 0x9000 && s.thumb && s.reg 14 == 0x8004) = true := by decide +kernel

/-- `40_arm_base` R550 -/
theorem test_mrs :
    ends (run32 0xE10F0000 State.reset)
      (fun s => s.reg 0 == 0xD3) = true := by decide +kernel

/-- `40_arm_base` R551 -/
theorem test_msr_imm :
    ends (run32 0xE321F0D3 (withCpsr 0x0000001F State.reset))
      (fun s => s.cpsr == 0xD3) = true := by decide +kernel

/-- `40_arm_base` R551 -/
theorem test_msr_flags :
    ends (run32 0xE128F000 (withRegs [(0, 0xF0000000)] State.reset))
      (fun s => s.cpsr == 0xF00000D3) = true := by decide +kernel

/-- `45_arm_loadstore` R585 -/
theorem test_ldr_reg :
    ends (run32 0xE7B10102 (withData (withRegs [(1, 0x1000), (2, 2)] State.reset)))
      (fun s => s.reg 0 == 0x80018081 && s.reg 1 == 0x1008) = true := by decide +kernel

/-- `45_arm_loadstore` R585 -/
theorem test_ldr_pc :
    ends (run32 0xE49DF004 (withWords [(0x1000, 0x8001)] (withRegs [(13, 0x1000)] State.reset)))
      (fun s => s.pc == 0x8000 && s.thumb && s.reg 13 == 0x1004) = true := by decide +kernel

/-- `20_memory` R222 -/
theorem test_ldr_misaligned :
    ends (run32 0xE5910000 (withData (withRegs [(1, 0x1001)] State.reset)))
      (fun s => s.reg 0 == 0x44112233) = true := by decide +kernel

/-- `45_arm_loadstore` R586 -/
theorem test_ldrb :
    ends (run32 0xE5D10001 (withData (withRegs [(1, 0x1000)] State.reset)))
      (fun s => s.reg 0 == 0x33) = true := by decide +kernel

/-- `45_arm_loadstore` R586 -/
theorem test_ldrb_big :
    ends (run32 0xE5D10001 (withData (withRegs [(1, 0x1000)] (withCtrl 0xF8 State.reset))))
      (fun s => s.reg 0 == 0x22) = true := by decide +kernel

/-- `45_arm_loadstore` R587 -/
theorem test_str :
    ends (run32 0xE5810004 (withData (withRegs [(1, 0x1000), (0, 0xCAFEBABE)] State.reset)))
      (fun s => memWord s.mem 0x1004 == 0xCAFEBABE) = true := by decide +kernel

/-- `45_arm_loadstore` R588 -/
theorem test_strb :
    ends (run32 0xE4C10001 (withData (withRegs [(1, 0x1001), (0, 0xCAFEBABE)] State.reset)))
      (fun s => memWord s.mem 0x1000 == 0x1122BE44 && s.reg 1 == 0x1002) = true := by decide +kernel

/-- `45_arm_loadstore` R589 -/
theorem test_ldrt :
    ends (run32 0xE4B10004 (withData (withRegs [(1, 0x1000)] State.reset)))
      (fun s => s.reg 0 == 0x11223344 && s.reg 1 == 0x1004) = true := by decide +kernel

/-- `45_arm_loadstore` R590 -/
theorem test_ldrbt :
    ends (run32 0xE4F10001 (withData (withRegs [(1, 0x1000)] State.reset)))
      (fun s => s.reg 0 == 0x44 && s.reg 1 == 0x1001) = true := by decide +kernel

/-- `45_arm_loadstore` R591 -/
theorem test_strt :
    ends (run32 0xE4A10004 (withData (withRegs [(1, 0x1000), (0, 7)] State.reset)))
      (fun s => memWord s.mem 0x1000 == 7 && s.reg 1 == 0x1004) = true := by decide +kernel

/-- `45_arm_loadstore` R592 -/
theorem test_strbt :
    ends (run32 0xE4E10001 (withData (withRegs [(1, 0x1000), (0, 7)] State.reset)))
      (fun s => memWord s.mem 0x1000 == 0x11223307 && s.reg 1 == 0x1001) = true := by decide +kernel

/-- `45_arm_loadstore` R593 -/
theorem test_ldrh :
    ends (run32 0xE1D100B2 (withData (withRegs [(1, 0x1000)] State.reset)))
      (fun s => s.reg 0 == 0x1122) = true := by decide +kernel

/-- `45_arm_loadstore` R594 -/
theorem test_ldrsb :
    ends (run32 0xE15100D1 (withData (withRegs [(1, 0x1009)] State.reset)))
      (fun s => s.reg 0 == 0xFFFFFF81) = true := by decide +kernel

/-- `45_arm_loadstore` R595 -/
theorem test_ldrsh :
    ends (run32 0xE19100F2 (withData (withRegs [(1, 0x1000), (2, 0xA)] State.reset)))
      (fun s => s.reg 0 == 0xFFFF8001) = true := by decide +kernel

/-- `45_arm_loadstore` R596 -/
theorem test_strh :
    ends (run32 0xE1E100B6 (withData (withRegs [(1, 0x1000), (0, 0xCAFEBABE)] State.reset)))
      (fun s => memWord s.mem 0x1004 == 0xBABECCDD && s.reg 1 == 0x1006) = true := by decide +kernel

/-- `45_arm_loadstore` R597 -/
theorem test_ldrd :
    ends (run32 0xE1C140D0 (withData (withRegs [(1, 0x1000)] State.reset)))
      (fun s => s.reg 4 == 0x11223344 && s.reg 5 == 0xAABBCCDD) = true := by decide +kernel

/-- `45_arm_loadstore` R598 -/
theorem test_strd :
    ends (run32 0xE1E140F8 (withData (withRegs [(1, 0x1000), (4, 1), (5, 2)] State.reset)))
      (fun s => memWord s.mem 0x1008 == 1 && memWord s.mem 0x100C == 2 && s.reg 1 == 0x1008) = true := by decide +kernel

/-- `45_arm_loadstore` R599 -/
theorem test_pld :
    ends (run32 0xF5D1F000 (withRegs [(1, 0x1000)] State.reset))
      (fun s => s.pc == 4) = true := by decide +kernel

/-- `45_arm_loadstore` R606 -/
theorem test_ldmia :
    ends (run32 0xE8B0000E (withData (withRegs [(0, 0x1000)] State.reset)))
      (fun s => s.reg 1 == 0x11223344 && s.reg 2 == 0xAABBCCDD && s.reg 3 == 0x80018081 &&
        s.reg 0 == 0x100C) = true := by decide +kernel

/-- `45_arm_loadstore` R606 -/
theorem test_ldmdb :
    ends (run32 0xE9100006 (withData (withRegs [(0, 0x1008)] State.reset)))
      (fun s => s.reg 1 == 0x11223344 && s.reg 2 == 0xAABBCCDD) = true := by decide +kernel

/-- `45_arm_loadstore` R607 -/
theorem test_ldm_user :
    ends (run32 0xE8D02002 (withData (withRegs [(0, 0x1000)] State.reset)))
      (fun s => s.reg 1 == 0x11223344 && s.regIn modeUser 13 == 0xAABBCCDD && s.reg 13 == 0) = true := by decide +kernel

/-- `45_arm_loadstore` R608 -/
theorem test_ldm_return :
    ends (run32 0xE8FD8001 (withWords [(0x1000, 0x11223344), (0x1004, 0x2002)]
        (withRegs [(13, 0x1000)] (withSpsr 0x60000010 State.reset))))
      (fun s => s.reg 0 == 0x11223344 && s.cpsr == 0x60000010 && s.pc == 0x2000 &&
        s.regIn modeSvc 13 == 0x1008) = true := by decide +kernel

/-- `45_arm_loadstore` R609 -/
theorem test_stmdb :
    ends (run32 0xE92D4030 (withRegs [(13, 0x2000), (4, 4), (5, 5), (14, 14)] State.reset))
      (fun s => memWord s.mem 0x1FF4 == 4 && memWord s.mem 0x1FF8 == 5 && memWord s.mem 0x1FFC == 14 &&
        s.reg 13 == 0x1FF4) = true := by decide +kernel

/-- `45_arm_loadstore` R610 -/
theorem test_stm_user :
    ends (run32 0xE8C06000 (withWords [(0x1000, 1)] (withRegs [(0, 0x1000), (13, 7), (14, 8)] State.reset)))
      (fun s => memWord s.mem 0x1000 == 0 && s.reg 13 == 7) = true := by decide +kernel

/-- `45_arm_loadstore` R615 -/
theorem test_swp :
    ends (run32 0xE1020091 (withWords [(0x1000, 0xAAAAAAAA)] (withRegs [(2, 0x1000), (1, 0x55555555)] State.reset)))
      (fun s => s.reg 0 == 0xAAAAAAAA && memWord s.mem 0x1000 == 0x55555555) = true := by decide +kernel

/-- `45_arm_loadstore` R616 -/
theorem test_swpb :
    ends (run32 0xE1420091 (withData (withRegs [(2, 0x1001), (1, 0x55)] State.reset)))
      (fun s => s.reg 0 == 0x33 && memWord s.mem 0x1000 == 0x11225544) = true := by decide +kernel

/-- `60_exceptions` R891 -/
theorem test_swi :
    ends (run32 0xEF123456 (withPc 0x8000 (withCpsr 0x60000010 State.reset)))
      (fun s => s.regIn modeSvc 14 == 0x8004 && s.spsrOf .svc == some 0x60000010 && s.cpsr == 0x60000093 &&
        s.pc == 8) = true := by decide +kernel

/-- `60_exceptions` R892 -/
theorem test_bkpt_disabled :
    ends (run32 0xE1200A7B (withPc 0x8000 State.reset))
      (fun s => s.pc == 0x8004 && s.cpsr == 0xD3) = true := by decide +kernel

/-- `60_exceptions` R890 -/
theorem test_undef :
    ends (run32 0xE7F000F0 (withPc 0x8000 (withCpsr 0x10 State.reset)))
      (fun s => s.regIn modeUndef 14 == 0x8004 && s.spsrOf .und == some 0x10 && s.cpsr == 0x9B &&
        s.pc == 4) = true := by decide +kernel

/-- `40_arm_base` R512 -/
theorem test_return_irq :
    ends (run32 0xE25EF004 (withRegs [(14, 0x8008)] (withSpsr 0x60000010 State.reset)))
      (fun s => s.pc == 0x8004 && s.cpsr == 0x60000010) = true := by decide +kernel

/-- `42_cp0_accumulator` R752 -/
theorem test_mia :
    ends (run32 0xEE202011 (withRegs [(1, 0x7FFFFFFF), (2, 0x7FFFFFFF)] (withCpar State.reset)))
      (fun s => s.acc0 == 0xFF00000001) = true := by decide +kernel

/-- `42_cp0_accumulator` R753 -/
theorem test_miaph :
    ends (run32 0xEE282011 (withRegs [(1, 0x00020003), (2, 0xFFFF0004)] (withCpar State.reset)))
      (fun s => s.acc0 == 0xA) = true := by decide +kernel

/-- `42_cp0_accumulator` R754 -/
theorem test_miabb :
    ends (run32 0xEE2C2011 (withRegs [(1, 0xFFFF), (2, 2)] (withCpar State.reset)))
      (fun s => s.acc0 == 0xFFFFFFFFFE) = true := by decide +kernel

/-- `42_cp0_accumulator` R755 -/
theorem test_miabt :
    ends (run32 0xEE2D2011 (withRegs [(1, 3), (2, 0x00040000)] (withCpar State.reset)))
      (fun s => s.acc0 == 12) = true := by decide +kernel

/-- `42_cp0_accumulator` R757 -/
theorem test_miatt :
    ends (run32 0xEE2F2011 (withRegs [(1, 0x80000000), (2, 0x80000000)] (withCpar State.reset)))
      (fun s => s.acc0 == 0x0040000000) = true := by decide +kernel

/-- `42_cp0_accumulator` R758 -/
theorem test_mar :
    ends (run32 0xEC421000 (withRegs [(1, 0x89ABCDEF), (2, 0x12345678)] (withCpar State.reset)))
      (fun s => s.acc0 == 0x7889ABCDEF) = true := by decide +kernel

/-- `42_cp0_accumulator` R759 -/
theorem test_mra :
    ends (run32 0xEC521000 (withAcc 0xFF00000001 State.reset))
      (fun s => s.reg 1 == 1 && s.reg 2 == 0xFFFFFFFF) = true := by decide +kernel

/-- `42_cp0_accumulator` R750 -/
theorem test_mia_denied :
    ends (run32 0xEE202011 State.reset)
      (fun s => s.pc == 4 && s.mode == modeUndef) = true := by decide +kernel

/-- `44_cp14_cp7` R869 -/
theorem test_cdp :
    ends (run32 0xEE2431C5 State.reset)
      (fun s => s.pc == 4 && s.mode == modeUndef) = true := by decide +kernel

/-- `44_cp14_cp7` R854 -/
theorem test_ldc_p14 :
    ends (run32 0xED908E00 (withData (withRegs [(0, 0x1000)] State.reset)))
      (fun s => s.dbg.tx == 0x11223344 && s.dbg.tr) = true := by decide +kernel

/-- `44_cp14_cp7` R855 -/
theorem test_stc_p14 :
    ends (run32 0xED819E00 (withRegs [(1, 0x1000)] (withRx 0x77 State.reset)))
      (fun s => memWord s.mem 0x1000 == 0x77 && !s.dbg.rr) = true := by decide +kernel

/-- `10_state` R103 -/
theorem test_mcr_cpar :
    ends (run32 0xEE0F0F11 (withRegs [(0, 0x3FFF)] State.reset))
      (fun s => s.cp15.cpar == 0x3FFF) = true := by decide +kernel

/-- `10_state` R72 -/
theorem test_mrc_cachetype :
    ends (run32 0xEE100F30 State.reset)
      (fun s => s.reg 0 == 0x0B192192) = true := by decide +kernel

/-- `43_cp15_functions` R770 -/
theorem test_mcr_user :
    ends (run32 0xEE0F0F11 (withRegs [(0, 1)] (withCpsr 0x10 State.reset)))
      (fun s => s.mode == modeUndef && s.cp15.cpar == 0) = true := by decide +kernel

/-- `43_cp15_functions` R790 -/
theorem test_dwb_user :
    ends (run32 0xEE070F9A (withCpsr 0x10 State.reset))
      (fun s => s.pc == 4 && s.mode == modeUser) = true := by decide +kernel

/-- `41_dsp_thumb` R671 -/
theorem test_t_lsl :
    ends (run16 0x0108 (withRegs [(1, 0x10000001)] State.reset))
      (fun s => s.reg 0 == 0x10 && s.cpsr >>> 28 == 2) = true := by decide +kernel

/-- `41_dsp_thumb` R673 -/
theorem test_t_asr :
    ends (run16 0x10C8 (withRegs [(1, 0x80000000)] State.reset))
      (fun s => s.reg 0 == 0xF0000000 && s.cpsr >>> 28 == 8) = true := by decide +kernel

/-- `41_dsp_thumb` R678 -/
theorem test_t_mov :
    ends (run16 0x202A State.reset)
      (fun s => s.reg 0 == 42 && s.pc == 2) = true := by decide +kernel

/-- `41_dsp_thumb` R684 -/
theorem test_t_lsl_reg :
    ends (run16 0x4088 (withRegs [(0, 1), (1, 32)] State.reset))
      (fun s => s.reg 0 == 0 && s.cpsr >>> 28 == 6) = true := by decide +kernel

/-- `41_dsp_thumb` R691 -/
theorem test_t_neg :
    ends (run16 0x4248 (withRegs [(1, 1)] State.reset))
      (fun s => s.reg 0 == 0xFFFFFFFF && s.cpsr >>> 28 == 8) = true := by decide +kernel

/-- `41_dsp_thumb` R700 -/
theorem test_t_mov_pc :
    ends (run16 0x46F7 (withRegs [(14, 0x9001)] State.reset))
      (fun s => s.pc == 0x9000 && s.thumb) = true := by decide +kernel

/-- `41_dsp_thumb` R701 -/
theorem test_t_bx :
    ends (run16 0x4770 (withRegs [(14, 0x9000)] State.reset))
      (fun s => s.pc == 0x9000 && !s.thumb) = true := by decide +kernel

/-- `41_dsp_thumb` R703 -/
theorem test_t_ldr_pc :
    ends (run16 0x4802 (withWords [(0x800C, 0x11223344)] (withPc 0x8002 State.reset)))
      (fun s => s.reg 0 == 0x11223344) = true := by decide +kernel

/-- `41_dsp_thumb` R712 -/
theorem test_t_str :
    ends (run16 0x6048 (withRegs [(1, 0x1000), (0, 9)] State.reset))
      (fun s => memWord s.mem 0x1004 == 9) = true := by decide +kernel

/-- `41_dsp_thumb` R724 -/
theorem test_t_push :
    ends (run16 0xB510 (withRegs [(13, 0x2000), (4, 4), (14, 14)] State.reset))
      (fun s => memWord s.mem 0x1FF8 == 4 && memWord s.mem 0x1FFC == 14 && s.reg 13 == 0x1FF8) = true := by decide +kernel

/-- `41_dsp_thumb` R725 -/
theorem test_t_pop :
    ends (run16 0xBD03 (withData (withRegs [(13, 0x1000)] State.reset)))
      (fun s => s.reg 0 == 0x11223344 && s.reg 1 == 0xAABBCCDD && s.pc == 0x80018080 &&
        s.reg 13 == 0x100C) = true := by decide +kernel

/-- `41_dsp_thumb` R726 -/
theorem test_t_stmia :
    ends (run16 0xC006 (withRegs [(0, 0x1000), (1, 1), (2, 2)] State.reset))
      (fun s => memWord s.mem 0x1000 == 1 && memWord s.mem 0x1004 == 2 && s.reg 0 == 0x1008) = true := by decide +kernel

/-- `41_dsp_thumb` R727 -/
theorem test_t_ldmia :
    ends (run16 0xC806 (withData (withRegs [(0, 0x1000)] State.reset)))
      (fun s => s.reg 1 == 0x11223344 && s.reg 2 == 0xAABBCCDD && s.reg 0 == 0x1008) = true := by decide +kernel

/-- `41_dsp_thumb` R728 -/
theorem test_t_beq :
    ends (run16 0xD004 (withPc 0x8000 (withCpsr 0x400000F3 State.reset)))
      (fun s => s.pc == 0x800C) = true := by decide +kernel

/-- `41_dsp_thumb` R728 -/
theorem test_t_bne_not :
    ends (run16 0xD1FE (withPc 0x8000 (withCpsr 0x400000F3 State.reset)))
      (fun s => s.pc == 0x8002) = true := by decide +kernel

/-- `41_dsp_thumb` R729 -/
theorem test_t_b :
    ends (run16 0xE030 (withPc 0x8000 State.reset))
      (fun s => s.pc == 0x8064) = true := by decide +kernel

/-- `41_dsp_thumb` R730 -/
theorem test_t_bl_prefix :
    ends (run16 0xF000 (withPc 0x8000 State.reset))
      (fun s => s.reg 14 == 0x8004) = true := by decide +kernel

/-- `41_dsp_thumb` R730 -/
theorem test_t_bl_suffix :
    ends (run16 0xF804 (withRegs [(14, 0x8004)] (withPc 0x8002 State.reset)))
      (fun s => s.pc == 0x800C && s.reg 14 == 0x8005) = true := by decide +kernel

/-- `41_dsp_thumb` R731 -/
theorem test_t_swi :
    ends (run16 0xDF12 (withPc 0x8000 State.reset))
      (fun s => s.regIn modeSvc 14 == 0x8002 && s.pc == 8 && !s.thumb) = true := by decide +kernel

/-- Supervisor mode after reset, with registers. -/
def asSvc (l : List (Reg × Word)) : State := withRegs l State.reset

/-! Translation, aborts, interrupts, debug: the worked examples of the spec -/

/-- An instruction at 0x12340000, mapped to 0x80040000; a descriptor for MVA 0x001xxxxx; a word at 0x80000004; R1 = 0x00100004. -/
def virtual (cpsr descriptor : Word) (w : Word) : State :=
  { withWords [(0xA000448C, 0x80000C0E), (0xA0004004, descriptor), (0x80040000, w), (0x80000004, 0xFACEB00C)]
      (withRegs [(1, 0x00100004)] (withPc 0x12340000 (withCpsr cpsr State.reset))) with
    cp15 := { State.reset.cp15 with ctrl := 0x79, ttbase := 0xA0004000, dacr := 1 } }

/-- `60_exceptions` R901: a translation fault of a load. -/
theorem test_translation_fault :
    ends (step (virtual 0x60000010 0 0xE5910000)) (fun s =>
      s.regIn modeAbort 14 == 0x12340008 && s.spsrOf .abt == some 0x60000010 && s.cpsr == 0x60000097 && s.pc == 0x10 &&
        s.cp15.far == 0x00100004 && s.reg 1 == 0x00100004) = true := by
  decide +kernel

/-- `60_exceptions` R895: a fetch that the MMU does not map. -/
theorem test_prefetch_abort :
    ends (step (withPc 0x00200000 (virtual 0x60000010 0 0xE5910000))) (fun s =>
      s.regIn modeAbort 14 == 0x00200004 && s.spsrOf .abt == some 0x60000010 && s.cpsr == 0x60000097 && s.pc == 0xC) = true := by
  decide +kernel

/-- `21_mmu` R294, R296: the same section denies User mode and serves Supervisor mode. -/
theorem test_permission_fault :
    ends (step (virtual 0x60000010 0x80000402 0xE5910000)) (fun s =>
      s.pc == 0x10 && s.cp15.fsr &&& 0x6FF == 0xD && s.cp15.far == 0x00100004) = true := by
  decide +kernel

theorem test_permission_given :
    ends (step (virtual 0x600000D3 0x80000402 0xE5910000)) (fun s => s.reg 0 == 0xFACEB00C && s.pc == 0x12340004) = true := by
  decide +kernel

/-- `20_memory` R221: alignment, with a process id. -/
theorem test_alignment_abort :
    ends (step { withWords [(0x0A008000, 0xE5910000)] (withRegs [(1, 0x1002)] (withPc 0x8000 (withCpsr 0x10 State.reset))) with
      cp15 := { State.reset.cp15 with ctrl := 0x7A, pid := 5 } }) (fun s => s.pc == 0x10 && s.cp15.far == 0x0A001002) = true := by
  decide +kernel

/-- `21_mmu` R340: a section, a small page of a coarse table. -/
theorem test_coarse_page :
    (match translate 0x00103ABC .read false { withWords [(0xA0004004, 0x80010001), (0x8001000C, 0x90007FFE)] State.reset with
        cp15 := { State.reset.cp15 with ctrl := 0x79, ttbase := 0xA0004000, dacr := 1 } } with
      | .ok m _ => m.pa == 0x090007ABC && m.attrs.dc
      | _ => false) = true := by
  decide +kernel

/-- `60_exceptions` R885: an IRQ, and both at once. -/
theorem test_irq :
    ends (step { withPc 0x8010 (withCpsr 0x60000010 State.reset) with pins := { State.reset.pins with irq := true } }) (fun s =>
      s.regIn modeIrq 14 == 0x8014 && s.spsrOf .irq == some 0x60000010 && s.cpsr == 0x60000092 && s.pc == 0x18) = true := by
  decide +kernel

theorem test_fiq_first :
    ends (step { withPc 0x8010 (withCpsr 0x60000010 State.reset) with
      pins := { State.reset.pins with irq := true, fiq := true } }) (fun s => s.cpsr == 0x600000D1 && s.pc == 0x1C) = true := by
  decide +kernel

/-- `61_debug_pmu_power` R1025: BKPT in Halt Mode. -/
theorem test_bkpt_halt :
    ends (run32 0xE1200A7B (withPc 0x8000 (withCpsr 0x60000010
        { State.reset with dbg := { State.reset.dbg with dcsr := 0xC0000001 } }))) (fun s =>
      s.regIn modeDebug 14 == 0x8004 && s.spsrOf .dbg == some 0x60000010 && s.cpsr == 0x600000D5 && s.pc == 0 && s.dbg.sds &&
        s.dbg.dcsr == 0xC000000C && s.cp15.fsr == 0) = true := by
  decide +kernel

/-- `10_state` R45: MRC into R15 writes the flags. -/
theorem test_mrc_flags :
    ends (run32 0xEE19FE10 (withRx 0x90000000 State.reset)) (fun s =>
      s.cpsr == 0x900000D3 && s.pc == 4 && !s.dbg.rr) = true := by
  decide +kernel

/-- `10_state` R113: FLAG is cleared by ones. -/
theorem test_mcr_flag :
    ends (run32 0xEE050E11 (withRegs [(0, 2)] { State.reset with pmu := { State.reset.pmu with flag := 3 } })) (fun s =>
      s.pmu.flag == 1) = true := by
  decide +kernel

/-- The host's two functions on one word. -/
theorem test_decodeTableWord : decodeTableWord 32 0xE0812003 = some (.addShImm .al false 1 2 0 0 3) := rfl

/-- `93_implementation_defined` section 2: a 1 written to a reserved bit of CPAR, MRA into one register, POP of nothing. -/
theorem test_refused_forms :
    refuses (run32 0xEE0F0F11 (asSvc [(0, 0x4001)])) .reservedBits = true ∧
    refuses (run32 0xEC511000 (withCpar State.reset)) .registerOverlap = true ∧
    refuses (run16 0xBC00 (withCpsr 0xF3 State.reset)) .emptyRegisterList = true := by
  decide +kernel

/-- `70_reset_and_hazards` R1131: after a write of PID an instruction may still be fetched under the old one, until a Prefetch
Flush. -/
theorem test_stale_view :
    ends (run32 0xEE0D0F10 (asSvc [(0, 0x0A000000)])) (fun s => s.cp15.pid == 5 && s.stale.map (·.cp15.pid) == [0]) = true ∧
    ends (exec (.mcrPrefetchFlush .al 0) State.reset.keepView) (fun s => s.stale.isEmpty) = true := by
  decide +kernel

/-- `22_caches` R360: one parity bit a word: a word of the line that is good is fetched. -/
theorem test_parity_word :
    let s : State := { State.reset with icache := { State.reset.icache with
      lines := [(0, { tag := 0, locked := false, bad := 0x02, data := 0xE3A00001 })] } }
    ends (step s) (fun s => s.reg 0 == 1 && s.pc == 4) = true ∧ ends (step (withPc 4 s)) (fun s => s.pc == 0xC) = true := by
  decide +kernel

/-- `22_caches` R410, R423: errors that occur together are logged together. -/
theorem test_errors_together :
    let r := State.reset.l2Error 0 { filledLine 0 0 with err := { single := false, double := true, tag := true, state := false } }
    r.2 = false ∧ r.1.err.errlog = 0x05 := by
  decide +kernel

/-- `61_debug_pmu_power` R1077: nine packets load line 2 of the Debug SRAM; a wrong parity bit is refused; R1078: the request. -/
theorem test_ldsram :
    let go (l : List (BitVec 33)) : Host.Outcome State Fault Refusal :=
      l.foldl (fun r p => match r with | .next s => s.agentMove (.ldSram p) | r => r) (.next State.reset)
    ends (go [0x083, 0x0E3A00001, 0, 0, 0, 0, 0, 0, 0x100000001]) (fun s =>
      s.dbg.sram == [(16, 0xE3A00001), (23, 1)] && s.dbg.ldLeft == 0 && s.dbg.jtagIr == 0b0000111) = true ∧
    refuses (go [0x083, 0x1E3A00001]) .debuggerAction = true ∧ refuses (go [0x006]) .debuggerAction = true ∧
    ends (go [0x004]) (fun s => s.dbg.ldReq && !s.dbg.ready) = true := by
  decide +kernel

/-- `20_memory` R255: the clean of an L2 line by set/way reaches memory by the barrier that follows. -/
theorem test_set_way_clean :
    let s : State := { State.reset with
      cp15 := { State.reset.cp15 with ctrl := 0x04000078 }
      cfg := { State.reset.cfg with l2Size := .kb256 }
      l2 := { State.reset.l2 with lines := [(0, { filledLine 2 0x11 with st := .modified })] } }
    ends (exec (.mcrCleanL2LineSetWay .al 0) s) (fun t =>
      memByte t.mem 0x40 == 0 && ends (exec (.mcrDataWriteBarrier .al 0) t) fun u => memByte u.mem 0x40 == 0x11) = true := by
  decide +kernel

/-- `61_debug_pmu_power` R1004: a load of the pc whose condition fails is a branch that is counted. -/
theorem test_branch_not_taken :
    ends (exec (.ldrImm .eq true true false 1 15 0) State.reset) (fun s => s.note.isBranch && s.pc == 4) = true := by
  decide +kernel

/-- `61_debug_pmu_power` R1001: a counter that PMNC.M disables is written. -/
theorem test_pmn_disabled :
    ends (exec (.mcrPmn1 .al 0) { asSvc [(0, 7)] with pmu := { State.reset.pmu with e := true, m := true } }) (fun s =>
      s.pmu.pmn.get 1 == 7 && s.pmu.pmn.get 0 == 0) = true := by
  decide +kernel

/-- `20_memory` R256, R257: a fetch does not see a store that waits, and fills a line with the old code; one made after an
invalidation of the instruction cache fills it with the new. -/
theorem test_old_code :
    let s : State := withCtrl 0x1078 State.reset
    let waits : State := { s with buffers :=
      [{ line := 0, mask := 0xF, unk := 0, data := 1, coal := true, unc := false, l2 := false, shared := false }] }
    let code (t : State) : List (BitVec 256) := t.icache.lines.map (·.2.data)
    (code (waits.fetchAhead 0) = [0] ∧ (waits.fetchAhead 0).buffers.length = 1) ∧
    ends (exec (.mcrInvICacheBtb .al 0) waits) (fun t => code (t.fetchAhead 0) == [1] && (t.fetchAhead 0).buffers.isEmpty) = true ∧
    ends (exec (.mcrInvICacheLine .al 0) waits) (fun t => code (t.fetchAhead 0) == [1]) = true := by
  decide +kernel

/-- `43_cp15_functions` section 3: an L2 function that aborts leaves the L2 without the lines of its cached walk. -/
theorem test_l2_abort :
    let s : State := { withCtrl 0x04000079 State.reset with cfg := { State.reset.cfg with l2Size := .kb256 } }
    let t : State := { s with cp15 := { s.cp15 with ttbase := 0x18 } }
    ends (exec (.mcrInvL2Line .al 0) t) (fun t => t.pc == 0x10 && t.l2.lines.isEmpty && t.l2.used.isEmpty) = true := by
  decide +kernel

/-- `70_reset_and_hazards` R1100: a store that waits does not leave in reset. -/
theorem test_reset_quiet :
    let s : State := { State.reset with
      pins := { State.reset.pins with resetPin := true }
      buffers := [{ line := 2, mask := 0xF, unk := 0, data := 1, coal := true, unc := false, l2 := false, shared := false }] }
    ends (s.agentMove (.drain 0)) (fun t => t.buffers.length == 1 && memByte t.mem 0x40 == 0) = true ∧
    ends ({ s with pins := State.reset.pins }.agentMove (.drain 0)) (fun t => memByte t.mem 0x40 == 1) = true := by
  decide +kernel

/-- `10_state` R36, `44_cp14_cp7` R860: MCR of R15 to ERRLOG writes the pc plus eight. -/
theorem test_mcr_p7_pc : ends (run32 0xEE00F712 State.reset) (fun s => s.err.errlog == 8) = true := by
  decide +kernel

/-- `10_state` R36, `45_arm_loadstore` R592: STRBT of R15 stores the low byte of the pc plus eight. -/
theorem test_strbt_pc :
    ends (run32 0xE4E1F001 (withData (withRegs [(1, 0x1000)] State.reset))) (fun s =>
      memWord s.mem 0x1000 == 0x11223308 && s.reg 1 == 0x1001) = true := by
  decide +kernel

/-- `60_exceptions` R920: a bus error on the write-back that a snoop forces is refused. -/
theorem test_snoop_error :
    let s : State := { State.reset with
      cp15 := { State.reset.cp15 with ctrl := 0x04000079 }
      cfg := { State.reset.cfg with l2Size := .kb256, coherent := true, busErrors := [(2, 0x20)] }
      l2 := { State.reset.l2 with lines := [(16, { filledLine 2 0x11 with st := .modified })] } }
    refuses (s.agentMove (.busWrite 2 1 0 true)) .maintenance = true := by
  decide +kernel

/-! Witnesses: for each statement a state and operands that meet its hypotheses, clause by clause -/

/-- A value that an operation gives, with a property. -/
def okWith {α : Type} (r : EStateM.Result Stop State α) (p : α → State → Bool) : Bool :=
  match r with
  | .ok a s => p a s
  | _ => false

theorem okWith_spec {α : Type} {r : EStateM.Result Stop State α} {p : α → State → Bool} (h : okWith r p = true) :
    ∃ a s, r = .ok a s ∧ p a s = true := by
  cases r with
  | ok a s => exact ⟨a, s, rfl, h⟩
  | error e s => cases h

theorem ends_spec {r : Host.Outcome State Fault Refusal} {p : State → Bool} (h : ends r p = true) :
    ∃ t, r = .next t ∧ p t = true := by
  cases r with
  | next t => exact ⟨t, rfl, h⟩
  | fault f => cases h
  | refused f => cases h

/-- The same with the alignment check on. -/
def checked (l : List (Reg × Word)) : State := withCtrl 0x7A (asSvc l)

/-- The same in Thumb state. -/
def thumbed (l : List (Reg × Word)) : State := withCpsr 0xF3 (asSvc l)

/-- User mode. -/
def user : State := withCpsr 0x10 State.reset

/-- The debug functionality enabled: Monitor Mode. -/
def monitor : State := { State.reset with dbg := { State.reset.dbg with dcsr := 0x80000000 } }

/-- The debug functionality enabled: Halt Mode. -/
def halting : State := { State.reset with dbg := { State.reset.dbg with dcsr := 0xC0000000 } }

/-- Special Debug State. -/
def special : State := { halting with dbg := { halting.dbg with sds := true } }

theorem plain_base : PlainMemory State.reset := ⟨rfl, rfl, rfl, rfl, rfl, rfl⟩
theorem witness_DecodeEncodeRoundTrip :
    (Instr.ldrImm .al true true false 15 14 0xFFF).wellFormed = true ∧ (Instr.tBCond .le 0xFF).wellFormed = true := by decide

/-- MOV R0, #1 at the reset vector, with ADD SP, #508 in Thumb state, and after a CP15 write that is not synchronised. -/
theorem witness_StepRunsInstruction :
    (∀ s ∈ [State.reset.withFetchWord 32 0xE3A00001, (withCpsr 0xF3 State.reset).withFetchWord 16 0xB07F],
      s.schedule = [] ∧ s.inReset = false ∧ s.asleep = false ∧
      ({ s with note := Note.empty } : State).awake.takeEvent false = none ∧
      ({ s with note := Note.empty } : State).awake.settleView.takeInstrBreak = none ∧ s.stale = [] ∧
      okWith (fetchNext ({ s with note := Note.empty } : State).awake.settleView)
        (fun c s1 => ends (exec (decode c) s1) fun _ => true) = true) ∧
    (let s := State.reset.keepView
     s.schedule = [] ∧ s.inReset = false ∧ s.asleep = false ∧
      ({ s with note := Note.empty } : State).awake.takeEvent false = none ∧ s.stale = [State.reset.fetchView]) := by
  refine ⟨fun s h => ?_, rfl, rfl, rfl, rfl, rfl⟩
  simp only [List.mem_cons, List.not_mem_nil, or_false] at h
  rcases h with rfl | rfl <;> exact ⟨rfl, rfl, rfl, rfl, rfl, rfl, by decide⟩

theorem witness_FetchReadsMemory :
    ∀ s ∈ [withPc 0xFFFFFFFC State.reset, withPc 0xFFFFFFFE (withCpsr 0xF3 (withCtrl 0xF8 State.reset))],
      s.mmuOn = false ∧ s.icache.lines = [] ∧ s.icache.buffers = [] ∧ s.buffers = [] ∧ s.l2Out = [] ∧
        s.cfg.busErrors = [] ∧ s.inDebugSram = false ∧ s.pcAligned = true ∧ s.stale = [] := by
  decide

theorem witness_StepKeepsInvariant :
    (withPc 0x8000 State.reset).Inv ∧ ends (step (withPc 0x8000 State.reset)) (fun _ => true) = true :=
  ⟨⟨by decide, by decide, by decide, by decide⟩, by decide⟩

theorem witness_ConditionalExecution :
    (encode (.b .eq 0) = .arm 0x0A000000 ∧ Cond.ofBits ((0x0A000000 : Word).extractLsb' 28 4) = some .eq ∧
      (∀ c' hi lo, Instr.b .eq 0 ≠ .bkpt c' hi lo) ∧ condPassed .eq State.reset = false) ∧
    condPassed .ne (withCpsr 0x40000010 State.reset) = false :=
  ⟨⟨rfl, rfl, nofun, rfl⟩, rfl⟩

theorem witness_DataProcessingResult :
    condPassed .al State.reset = true ∧ (14 : Reg) ≠ 15 ∧ (Operand.shReg 14 3 14).ok = true ∧
      (Operand.shReg 14 3 14).okFirst 14 = true ∧ (Operand.shImm 31 3 15).ok = true ∧
      (Operand.shImm 31 3 15).okFirst 15 = true ∧ (Operand.imm 15 255).ok = true ∧ (Operand.imm 15 255).okFirst 15 = true := by
  decide

theorem witness_CompareResult :
    condPassed .le (withCpsr 0x400000D3 State.reset) = true ∧ (Operand.shReg 14 1 14).ok = true ∧
      (Operand.shReg 14 1 14).okFirst 14 = true := by
  decide

theorem witness_DataProcessingToPc :
    condPassed .al State.reset = true ∧ (∀ n k m, Operand.imm 0 4 ≠ .shReg n k m) ∧
    (State.reset.thumb = false ∧
      (DpOp.result State.reset (State.reset.reg 15) (Operand.eval State.reset (.imm 0 4)) .sub).value.extractLsb' 0 2 = 0) ∧
    State.reset.spsr = some 0 ∧ (withSpsr 0x30 State.reset).spsr = some 0x30 ∧
    isSoftwareMode ((0x30 : Word).extractLsb' 0 5) = true :=
  ⟨rfl, nofun, ⟨rfl, by decide⟩, rfl, rfl, rfl⟩

theorem witness_MultiplyResult :
    condPassed .al State.reset = true ∧ (14 : Reg) ≠ 15 ∧ (13 : Reg) ≠ 15 ∧ (14 : Reg) ≠ 13 := by decide

theorem witness_HalfwordMultiplyResult :
    condPassed .vs (withCpsr 0x10000010 State.reset) = true ∧ (14 : Reg) ≠ 15 ∧ (13 : Reg) ≠ 15 ∧ (14 : Reg) ≠ 13 := by
  decide

theorem witness_SaturatingResult : condPassed .pl State.reset = true ∧ (14 : Reg) ≠ 15 ∧ (0 : Reg) ≠ 15 := by decide

/-- No leading zero, 31 of them, 32 of them. -/
theorem witness_CountLeadingZeros :
    condPassed .al State.reset = true ∧ (14 : Reg) ≠ 15 ∧
    ∀ p ∈ [(0, (0xFFFFFFFF : Word)), (31, 1), (32, 0)], p.1 ≤ 32 ∧
      (∀ k, k < p.1 → ((asSvc [(14, p.2)]).reg 14).getLsbD (31 - k) = false) ∧
      (p.1 < 32 → ((asSvc [(14, p.2)]).reg 14).getLsbD (31 - p.1) = true) := by
  decide

theorem witness_BranchImmediate : State.reset.thumb = false ∧ condPassed .al State.reset = true := by decide

theorem witness_BranchExchange :
    condPassed .al State.reset = true ∧ (14 : Reg) ≠ 15 ∧
    ((asSvc [(14, 0xFFFFFFFF)]).reg 14).getLsbD 0 = true ∧ ((asSvc [(14, 0xFFFFFFFC)]).reg 14).getLsbD 1 = false ∧
    ((thumbed [(3, 3)]).reg 3).getLsbD 0 = true ∧ (State.reset.reg 15).getLsbD 1 = false := by
  decide

/-- A load of the last word, with the alignment check, and a rotated load from the last byte, without. -/
theorem witness_LoadWordResult :
    PlainMemory (checked [(1, 0xFFFFF000)]) ∧ condPassed .al (checked [(1, 0xFFFFF000)]) = true ∧ (14 : Reg) ≠ 15 ∧
    am2Imm true true 1 ∧ alignedFor (checked [(1, 0xFFFFF000)]) ((checked [(1, 0xFFFFF000)]).am2Imm true true true 1 0xFFC).addr 4 = true ∧
    am2Reg true true 1 2 ∧
    alignedFor (checked [(1, 0xFFFFFFFC)]) ((checked [(1, 0xFFFFFFFC)]).am2Reg true true true 1 0 0 2).addr 4 = true ∧
    am2Imm false true 1 ∧ am2Reg false true 1 2 ∧
    alignedFor (asSvc [(1, 0xFFFFFFFF)]) ((asSvc [(1, 0xFFFFFFFF)]).am2Imm false false true 1 0).addr 4 = true ∧
    alignedFor (checked [(1, 0xFFFFFFFC)]) ((checked [(1, 0xFFFFFFFC)]).am2Reg false false true 1 0 0 2).addr 4 = true ∧
    PlainMemory (thumbed [(1, 0xFFFFFFFC), (13, 0xFFFFFC00)]) ∧
    alignedFor (thumbed []) ((thumbed []).pcRead &&& ~~~3) 4 = true ∧
    alignedFor (thumbed [(1, 0xFFFFFFFC)]) ((thumbed [(1, 0xFFFFFFFC)]).reg 1 + (thumbed []).reg 2) 4 = true :=
  ⟨⟨rfl, rfl, rfl, rfl, rfl, rfl⟩, rfl, by decide, .inr (by decide), by decide, ⟨by decide, .inr (by decide)⟩, by decide,
    .inr (by decide), ⟨by decide, .inr (by decide)⟩, by decide, by decide, ⟨rfl, rfl, rfl, rfl, rfl, rfl⟩, by decide, by decide⟩

theorem witness_LoadNarrowResult :
    PlainMemory State.reset ∧ condPassed .al State.reset = true ∧ (14 : Reg) ≠ 15 ∧ am2Imm true false 15 ∧
    am2Reg true false 15 14 ∧ am2Imm false true 14 ∧ am2Reg false true 14 13 ∧ am3 true true true 14 15 15 ∧
    am3 false false false 14 0 14 ∧
    ((asSvc [(14, 0xFFFFFF00)]).am3 true true true true 14 15 14).addr.getLsbD 0 = false ∧
    ((thumbed [(7, 0xFFFFFFFF)]).reg 7 + (thumbed [(7, 0xFFFFFFFF)]).reg 7).getLsbD 0 = false ∧
    ((thumbed [(7, 0xFFFFFFFE)]).reg 7).getLsbD 0 = false :=
  ⟨⟨rfl, rfl, rfl, rfl, rfl, rfl⟩, rfl, by decide, .inl ⟨rfl, rfl⟩, ⟨by decide, .inl ⟨rfl, rfl⟩⟩, .inr (by decide),
    ⟨by decide, .inr (by decide)⟩, ⟨.inl rfl, .inl rfl, .inr (by decide)⟩,
    ⟨.inr (by decide), .inr rfl, .inr (by decide)⟩, by decide, by decide, by decide⟩

theorem witness_StoreWordResult :
    PlainMemory (checked [(1, 0xFFFFF000)]) ∧ condPassed .al (checked [(1, 0xFFFFF000)]) = true ∧ (14 : Reg) ≠ 15 ∧
    am2Imm true false 15 ∧ alignedFor (checked []) ((checked []).am2Imm true true false 15 0xFFC).addr 4 = true ∧
    am2Reg true true 1 2 ∧
    alignedFor (checked [(1, 0xFFFFFFFC)]) ((checked [(1, 0xFFFFFFFC)]).am2Reg true true true 1 0 0 2).addr 4 = true ∧
    am2Imm false true 1 ∧ am2Reg false true 1 2 ∧
    alignedFor (asSvc [(1, 0xFFFFFFFF)]) ((asSvc [(1, 0xFFFFFFFF)]).am2Imm false false true 1 0xFFF).addr 4 = true ∧
    alignedFor (checked [(1, 0xFFFFFFFC)]) ((checked [(1, 0xFFFFFFFC)]).am2Reg false false true 1 0 0 2).addr 4 = true ∧
    PlainMemory (thumbed [(1, 0xFFFFFFFC)]) ∧ alignedFor (thumbed [(1, 0xFFFFFFFC)]) 0xFFFFFFFC 4 = true :=
  ⟨⟨rfl, rfl, rfl, rfl, rfl, rfl⟩, rfl, by decide, .inl ⟨rfl, rfl⟩, by decide, ⟨by decide, .inr (by decide)⟩, by decide,
    .inr (by decide), ⟨by decide, .inr (by decide)⟩, by decide, by decide, ⟨rfl, rfl, rfl, rfl, rfl, rfl⟩, by decide⟩

theorem witness_StoreNarrowResult :
    PlainMemory State.reset ∧ condPassed .al State.reset = true ∧ (14 : Reg) ≠ 15 ∧ am2Imm true false 15 ∧
    am2Reg true false 15 14 ∧ am2Imm false true 14 ∧ am2Reg false true 14 13 ∧ am3 true true true 14 15 15 ∧
    ((asSvc [(14, 0xFFFFFF00)]).am3 true true true true 14 15 14).addr.getLsbD 0 = false ∧
    ((thumbed [(7, 0xFFFFFFFF)]).reg 7 + (thumbed [(7, 0xFFFFFFFF)]).reg 7).getLsbD 0 = false ∧
    ((thumbed [(7, 0xFFFFFFFE)]).reg 7).getLsbD 0 = false :=
  ⟨⟨rfl, rfl, rfl, rfl, rfl, rfl⟩, rfl, by decide, .inl ⟨rfl, rfl⟩, ⟨by decide, .inl ⟨rfl, rfl⟩⟩, .inr (by decide),
    ⟨by decide, .inr (by decide)⟩, ⟨.inl rfl, .inl rfl, .inr (by decide)⟩, by decide, by decide, by decide⟩

/-- The last doubleword of the address space. -/
theorem witness_DoublewordResult :
    PlainMemory (asSvc [(1, 0xFFFFFFF0)]) ∧ condPassed .al (asSvc [(1, 0xFFFFFFF0)]) = true ∧ am3 true true true 1 0 8 ∧
    doubleRegs true true true 1 12 8 ∧ ((asSvc [(1, 0xFFFFFFF0)]).am3 true true true true 1 0 8).addr.toNat % 8 = 0 :=
  ⟨⟨rfl, rfl, rfl, rfl, rfl, rfl⟩, rfl, ⟨.inl rfl, .inl rfl, .inr (by decide)⟩,
    ⟨by decide, by decide, .inr ⟨by decide, by decide⟩, .inl rfl⟩, by decide⟩

theorem witness_LoadMultipleResult :
    PlainMemory (checked [(14, 0xFFFFFFFC)]) ∧ (checked [(14, 0xFFFFFFFC)]).cp15.pid = 0 ∧
    condPassed .al (checked [(14, 0xFFFFFFFC)]) = true ∧ (14 : Reg) ≠ 15 ∧ (0x7FFF : BitVec 16) ≠ 0 ∧
    (0x7FFF : BitVec 16).getLsbD 15 = false ∧
    alignedFor (checked [(14, 0xFFFFFFFC)]) (listAt (checked [(14, 0xFFFFFFFC)]) true true 14 0x7FFF).1 4 = true ∧
    PlainMemory (thumbed [(13, 0xFFFFFFFC)]) ∧ (0xFF : BitVec 8) ≠ 0 ∧
    alignedFor (thumbed [(13, 0xFFFFFFFC)]) ((thumbed [(13, 0xFFFFFFFC)]).reg 13) 4 = true ∧
    alignedFor (thumbed [(7, 0xFFFFFFFC)]) ((thumbed [(7, 0xFFFFFFFC)]).reg 7) 4 = true :=
  ⟨⟨rfl, rfl, rfl, rfl, rfl, rfl⟩, rfl, rfl, by decide, by decide, by decide, by decide, ⟨rfl, rfl, rfl, rfl, rfl, rfl⟩, by decide,
    by decide, by decide⟩

/-- The words loaded are 0x8001 and 0x8000. -/
def pcWords : State := withWords [(0x1000, 0x8001), (0x1004, 0x8000)] (asSvc [(1, 0x1000), (13, 0x1000)])

theorem witness_LoadToPc :
    PlainMemory pcWords ∧ condPassed .al pcWords = true ∧ am2Imm false false 1 ∧
    (pcWords.am2Imm false true false 1 4).addr.toNat % 4 = 0 ∧
    (memWord pcWords.mem (wordAt pcWords 0x1000)).getLsbD 0 = true ∧ am2Reg true false 1 2 ∧
    (pcWords.am2Reg true true false 1 0 0 2).addr.toNat % 4 = 0 ∧ pcWords.cp15.pid = 0 ∧ (1 : Reg) ≠ 15 ∧
    alignedFor pcWords (listAt pcWords false true 1 0x8001).1 4 = true ∧
    (memWord pcWords.mem (blockWord (listAt pcWords false true 1 0x8001).1 (listCount 15 (1 : BitVec 15)))).getLsbD 1 = false ∧
    alignedFor pcWords (pcWords.reg 13) 4 = true ∧
    (memWord pcWords.mem (blockWord (pcWords.reg 13) (listCount 8 (0 : BitVec 8)))).getLsbD 0 = true :=
  ⟨⟨by decide, by decide, by decide, by decide, by decide, by decide⟩, by decide, .inr (by decide), by decide, by decide,
    ⟨by decide, .inl ⟨rfl, rfl⟩⟩, by decide, by decide, by decide, by decide, by decide, by decide, by decide⟩

theorem witness_StoreMultipleResult :
    PlainMemory (checked [(14, 4)]) ∧ (checked [(14, 4)]).cp15.pid = 0 ∧ condPassed .al (checked [(14, 4)]) = true ∧
    (14 : Reg) ≠ 15 ∧ (0xFFFF : BitVec 16) ≠ 0 ∧
    alignedFor (checked [(14, 4)]) (listAt (checked [(14, 4)]) true false 14 0xFFFF).1 4 = true ∧
    PlainMemory (thumbed [(13, 4)]) ∧ (lowList 0xFF ||| 0x4000) ≠ 0 ∧
    alignedFor (thumbed [(13, 4)]) ((thumbed [(13, 4)]).reg 13 - BitVec.ofNat 32 (4 * listCount 16 (lowList 0xFF ||| 0x4000))) 4 = true ∧
    (0x80 : BitVec 8) ≠ 0 ∧ alignedFor (thumbed [(7, 0xFFFFFFFC)]) ((thumbed [(7, 0xFFFFFFFC)]).reg 7) 4 = true :=
  ⟨⟨rfl, rfl, rfl, rfl, rfl, rfl⟩, rfl, rfl, by decide, by decide, by decide, ⟨rfl, rfl, rfl, rfl, rfl, rfl⟩, by decide, by decide,
    by decide, by decide⟩

theorem witness_ExceptionMultiple :
    PlainMemory (withSpsr 0x30 (checked [(13, 0x1000)])) ∧ (withSpsr 0x30 (checked [(13, 0x1000)])).cp15.pid = 0 ∧
    condPassed .al (withSpsr 0x30 (checked [(13, 0x1000)])) = true ∧ (13 : Reg) ≠ 15 ∧
    (withSpsr 0x30 (checked [(13, 0x1000)])).spsr = some 0x30 ∧ (0x7FFF : BitVec 15) ≠ 0 ∧
    alignedFor (withSpsr 0x30 (checked [(13, 0x1000)])) (listAt (withSpsr 0x30 (checked [(13, 0x1000)])) true false 13 0x7FFF).1 4 = true ∧
    (0xFFFF : BitVec 16) ≠ 0 ∧
    alignedFor (withSpsr 0x30 (checked [(13, 0x1000)])) (listAt (withSpsr 0x30 (checked [(13, 0x1000)])) false true 13 0xFFFF).1 4 = true ∧
    isSoftwareMode ((0x30 : Word).extractLsb' 0 5) = true :=
  ⟨⟨rfl, rfl, rfl, rfl, rfl, rfl⟩, rfl, rfl, by decide, by decide, by decide, by decide, by decide, by decide, by decide⟩

theorem witness_SwapResult :
    PlainMemory (checked [(14, 0xFFFFFFFC)]) ∧ condPassed .al (checked [(14, 0xFFFFFFFC)]) = true ∧ (14 : Reg) ≠ 15 ∧
    (0 : Reg) ≠ 15 ∧ (14 : Reg) ≠ 0 ∧
    alignedFor (checked [(14, 0xFFFFFFFC)]) ((checked [(14, 0xFFFFFFFC)]).reg 14) 4 = true :=
  ⟨⟨rfl, rfl, rfl, rfl, rfl, rfl⟩, rfl, by decide, by decide, by decide, by decide⟩

/-- The MMU on, one first-level descriptor for MVA 0x001xxxxx, a domain access. -/
def sectioned (d dacr : Word) : State :=
  { withWords [(0xA0004004, d)] (withRegs [(1, 0x00100004)] State.reset) with
    cp15 := { (withCtrl 0x7D State.reset).cp15 with ttbase := 0xA0004000, dacr := dacr } }

/-- The same while the lines that are filled get locked. -/
def locking (d : Word) : State := { sectioned d 3 with cp15 := { (sectioned d 3).cp15 with dclock := true } }

/-- A stop of a translation, with a property. -/
def stopWith {α : Type} (r : EStateM.Result Stop State α) (p : Stop → Bool) : Bool :=
  match r with
  | .error e _ => p e
  | _ => false

/-- Cacheable memory, the same while lines get locked, low-locality memory then; a fault descriptor; a reserved attribute. -/
theorem witness_PreloadHasNoResult :
    (Instr.pldImm true 1 0 = .pldImm true 1 0 ∨ ((14 : Reg) ≠ 15 ∧ Instr.pldImm true 1 0 = .pldReg true 15 31 3 14)) ∧
    ((14 : Reg) ≠ 15 ∧ Instr.pldReg true 15 31 3 14 = .pldReg true 15 31 3 14) ∧ PlainMemory State.reset ∧
    (let s := sectioned 0x80000C0E 3
     okWith (translate (s.pidRemap (s.am2Imm true true false 1 0).addr) .read s.privileged s)
       (fun m s1 => s1.fills m && s1.lockable m) = true) ∧
    (let s := sectioned 0x80000C02 3
     okWith (translate (s.pidRemap (s.am2Imm true true false 1 0).addr) .read s.privileged s) (fun m s1 => !s1.fills m) = true) ∧
    (let s := locking 0x80001C0A
     okWith (translate (s.pidRemap (s.am2Imm true true false 1 0).addr) .read s.privileged s)
       (fun m s1 => s1.fills m && !s1.lockable m && (s1.dFind 0x00100004).isNone) = true) ∧
    stopWith (translate 0x00100004 .read true (sectioned 0 3)) (fun e => match e with | .abort .. => true | _ => false) = true ∧
    stopWith (translate 0x00100004 .read true (sectioned 0x80002C0E 3)) (fun e => match e with | .refuse _ => true | _ => false) = true ∧
    (let s := { sectioned 0x80000C0E 3 with cfg := { State.reset.cfg with busErrors := [(0x4000000, 0x20)] } }
     okWith (translate (s.pidRemap (s.am2Imm true true false 1 0).addr) .read s.privileged s)
       (fun m s1 => s1.fills m && s1.lockable m && (s1.dFind 0x00100004).isNone && s.buffers.all (·.line != blockOf m.pa) &&
         ((s1.releaseLine (blockOf m.pa)).nextRead (lineBase (blockOf m.pa)) m.attrs.l2 false).1.isNone) = true) :=
  ⟨.inl rfl, ⟨by decide, rfl⟩, plain_base, by decide +kernel, by decide +kernel, by decide +kernel, by decide +kernel,
    by decide +kernel, by decide +kernel⟩

theorem witness_StatusTransfer :
    condPassed .al State.reset = true ∧ (14 : Reg) ≠ 15 ∧ State.reset.spsr = some 0 ∧ user.mode = modeUser ∧
    State.reset.mode ≠ modeUser ∧
    ((15 : BitVec 4).getLsbD 0 = true ∧ (0x1F : Word).getLsbD 5 = State.reset.thumb ∧
      isSoftwareMode ((0x1F : Word).extractLsb' 0 5) = true ∧ State.reset.dbg.sds = false) ∧
    (special.dbg.sds = true ∧ (0x1F : Word).extractLsb' 0 5 ≠ modeUser) ∧ (0 : BitVec 4).getLsbD 0 = false ∧
    user.spsr = none := by
  decide

theorem witness_SoftwareInterrupt :
    State.reset.debugOn = false ∧ State.reset.dbg.sds = false ∧ condPassed .al State.reset = true := by decide

theorem witness_UndefinedEncodings :
    State.reset.debugOn = false ∧ State.reset.dbg.sds = false ∧ condPassed .al State.reset = true ∧
    (State.reset.cp15.cpar.getLsbD (13 : BitVec 4).toNat = false ∨ (13 : BitVec 4) = 0 ∨ (13 : BitVec 4) = 15) ∧
    (State.reset.cp15.cpar.getLsbD 0 = false ∨ (1 : BitVec 4) ≠ 0) ∧ (15 : BitVec 4).getLsbD 0 = true ∧
    ((withCpar State.reset).cp15.cpar.getLsbD (13 : BitVec 4).toNat = true ∧ (13 : BitVec 4) ≠ 0 ∧
      (false || false || true) = true ∧ (1 : Reg) ≠ 15) ∧
    (PlainMemory (withCpar (checked [(1, 0xFFFFFFFC)])) ∧ alignedFor (withCpar (checked [(1, 0xFFFFFFFC)])) 0xFFFFFFFC 4 = true) ∧
    stopWith (loadCoprocessor 0xFFFFFFFF (withCpar (checked []))) (fun e => match e with | .abort .. => true | _ => false) = true :=
  ⟨rfl, rfl, rfl, .inl rfl, .inl rfl, rfl, ⟨rfl, by decide, rfl, by decide⟩, ⟨⟨rfl, rfl, rfl, rfl, rfl, rfl⟩, by decide⟩,
    by decide +kernel⟩

theorem witness_Breakpoint :
    (Instr.bkpt .al 0xFFF 15 = .bkpt .al 0xFFF 15 ∨ Instr.bkpt .al 0xFFF 15 = .tBkpt 0xFF) ∧
    (State.reset.debugOn = false ∨ State.reset.dbg.sds = true) ∧
    (monitor.debugOn = true ∧ monitor.dbg.sds = false ∧ monitor.haltMode = false) ∧
    (halting.debugOn = true ∧ halting.dbg.sds = false ∧ halting.haltMode = true) :=
  ⟨.inl rfl, .inl rfl, by decide, by decide⟩

/-- An address that is misaligned by one, in every form. -/
theorem witness_AlignmentAbort :
    let s := withCpar (checked [(1, 0xFFFFFFFF), (13, 0x1001)])
    (condPassed .al s = true ∧ s.debugOn = false ∧ s.dbg.sds = false ∧ s.ctrlBit 1 = true ∧ s.privileged = true ∧
      s.spsr.isSome = true) ∧
    (am2Imm true true 1 ∧ am2Reg true true 1 2 ∧ am2Reg false true 1 2 ∧ am3 true true true 1 0 0 ∧ doubleRegs true true true 1 2 0) ∧
    ((s.am2Imm true false true 1 0).addr.toNat % 4 ≠ 0 ∧ (s.am2Reg true false true 1 0 0 2).addr.toNat % 4 ≠ 0 ∧
      (s.am2Imm false true true 1 0).addr.toNat % 4 ≠ 0 ∧ (s.am2Reg false true true 1 0 0 2).addr.toNat % 4 ≠ 0 ∧
      (s.am3 true true true true 1 0 0).addr.toNat % 2 ≠ 0 ∧ (s.am3 true true true true 1 0 0).addr.toNat % 8 ≠ 0 ∧
      (listAt s false true 1 0xFFFF).1.toNat % 4 ≠ 0 ∧ (listAt s true true 1 ((0 : BitVec 1) ++ (1 : BitVec 15))).1.toNat % 4 ≠ 0 ∧
      (listAt s true true 1 ((1 : BitVec 1) ++ (0 : BitVec 15))).1.toNat % 4 ≠ 0 ∧ (s.reg 1).toNat % 4 ≠ 0 ∧
      (s.am5 true true false 1 0).addr.toNat % 4 ≠ 0 ∧ (s.reg 1 + s.reg 2).toNat % 2 ≠ 0 ∧
      (s.reg 13 + (0 : Word) * 4).toNat % 4 ≠ 0 ∧ (s.reg 13).toNat % 4 ≠ 0) ∧
    ((ldcTarget 8).isSome = true ∧ (stcSource s 9).isSome = true ∧ s.cp15.cpar.getLsbD (13 : BitVec 4).toNat = true ∧
      (13 : Reg) ≠ 0 ∧ (0xFFFF : BitVec 16) ≠ 0 ∧ (1 : BitVec 15) ≠ 0 ∧ (1 : BitVec 8) ≠ 0 ∧ (lowList 0 ||| 0x4000) ≠ 0) :=
  ⟨by decide, ⟨.inr (by decide), ⟨by decide, .inr (by decide)⟩, ⟨by decide, .inr (by decide)⟩,
    ⟨.inl rfl, .inl rfl, .inr (by decide)⟩, ⟨by decide, by decide, .inr ⟨by decide, by decide⟩, .inl rfl⟩⟩, by decide, by decide⟩

/-- Both requests, and the IRQ alone with the FIQ disabled or absent. -/
def requests (cpsr : Word) (fiq : Bool) : State :=
  { withCpsr cpsr State.reset with pins := { State.reset.pins with irq := true, fiq := fiq } }

theorem witness_InterruptEntry :
    ∀ s ∈ [requests 0x10 true, requests 0x50 true, requests 0x10 false],
      s.schedule = [] ∧ s.inReset = false ∧ s.dbg.hit = false ∧ s.pendingAbort = none ∧ s.jtagNow = false ∧
      s.debugOn = false ∧ s.dbg.sds = false ∧ s.pmu.e = false ∧
      ((s.pins.fiq = true ∧ s.cpsr.getLsbD 6 = false) ∨
        (s.pins.fiq = false ∨ s.cpsr.getLsbD 6 = true) ∧ s.pins.irq = true ∧ s.cpsr.getLsbD 7 = false) := by
  decide

theorem witness_ThumbHighRegisters :
    (true || false) = true ∧ BitVec.ofBool true ++ (0 : BitVec 3) ≠ (15 : Reg) ∧ BitVec.ofBool true ++ (7 : BitVec 3) = (15 : Reg) ∧
    (thumbed []).thumb = true ∧ (false || true) = true := by
  decide

theorem witness_ThumbBranches :
    (thumbed []).thumb = true ∧ condPassed .ne (thumbed []) = true ∧ condPassed .eq (thumbed []) = false := by decide

theorem witness_MultiplyAccumulate :
    condPassed .al (withCpar State.reset) = true ∧ (withCpar State.reset).cp15.cpar.getLsbD 0 = true ∧ (14 : Reg) ≠ 15 := by
  decide

theorem witness_AccumulatorTransfer :
    condPassed .al (withCpar State.reset) = true ∧ (withCpar State.reset).cp15.cpar.getLsbD 0 = true ∧ (14 : Reg) ≠ 15 ∧
    (13 : Reg) ≠ 15 ∧ (14 : Reg) ≠ 13 ∧ (14 : Reg) = 14 := by
  decide

theorem witness_AccumulatorAccess :
    condPassed .al State.reset = true ∧ State.reset.cp15.cpar.getLsbD 0 = false ∧ State.reset.debugOn = false ∧
    State.reset.dbg.sds = false ∧ (withCpar State.reset).cp15.cpar.getLsbD 0 = true ∧
    condPassed .al (withCpar State.reset) = true ∧ (0x10 : BitVec 5) ≠ 0 ∧ (4 : BitVec 3) ≠ 0 := by
  decide

theorem witness_ControlCoprocessorReads :
    condPassed .al State.reset = true ∧ State.reset.privileged = true ∧ (14 : Reg) ≠ 15 := by decide

/-- A zero is taken by every register; a value of each control register is not defined; ones where bits are reserved. -/
theorem witness_ControlCoprocessorWrites :
    condPassed .al State.reset = true ∧ State.reset.privileged = true ∧ (14 : Reg) ≠ 15 ∧
    (cp15Writable ++ controlWritable).all (fun e => e.takes State.reset 0) = true ∧
    (cp15Writable ++ controlWritable).countP (fun e => (0xFFFFFFFF : Word) &&& e.reserved != 0) = 7 ∧
    controlWritable.map (fun e => [0x04, 0x800, 0x08].any fun v => v &&& e.reserved == 0 && !e.ok State.reset v) = [true, true, true] ∧
    controlWritable.head?.any (fun e => e.takes State.reset 0x04003BFF && !e.ok { State.reset with subWord := true } 0x80 &&
      !e.ok { State.reset with cfg := { State.reset.cfg with big := false } } 0x80) = true := by
  decide

theorem witness_DebugCoprocessorReads :
    condPassed .al State.reset = true ∧ State.reset.privileged = true ∧
    cp14Readable.all (fun e => e.ok State.reset || e.ok (withRx 0 State.reset)) = true ∧
    (withRx 0 State.reset).privileged = true ∧ (14 : Reg) ≠ 15 ∧
    cp14Readable.map (fun e => e.defined.extractLsb' 28 4) =
      [15, 15, 0, 0, 15, 15, 15, 15, 15, 0, 0, 15, 0, 14, 0, 15, 15, 15, 0, 15, 0] := by
  decide

theorem witness_DebugCoprocessorWrites :
    condPassed .al State.reset = true ∧ State.reset.privileged = true ∧ (14 : Reg) ≠ 15 ∧
    (cp14Writable ++ cp7Writable ++ debugWritable).all (fun e => e.takes State.reset 0) = true ∧
    ((cp14Writable ++ cp7Writable).filter fun e => e.takes { State.reset with pmu := { State.reset.pmu with e := true, evtsel := 0xFF00 } } 0).length = 12 ∧
    debugWritable.all (fun e => e.takes halting 0xFFFFFFFF) = true ∧
    (cp14Writable ++ cp7Writable).countP (fun e => (0xFFFFFFFF : Word) &&& e.reserved != 0) = 7 ∧
    debugLocked State.reset = false ∧ (0x10 : Word) &&& 0xFFFFFEF0 ≠ 0 ∧ (0x80 : Word) &&& 0x1F20FF80 ≠ 0 ∧
    State.reset.thumb = false ∧ cp7Writable.all (fun e => e.takes State.reset (State.reset.pc + 8)) = true ∧
    cp7Writable.countP (fun e => ((withPc 0xFFFFFFF0 State.reset).pc + 8) &&& e.reserved != 0) = 2 := by
  decide

/-- Resetting the performance counters while they stand, and while they go on counting. -/
theorem witness_CounterControl :
    condPassed .al State.reset = true ∧ State.reset.privileged = true ∧ (14 : Reg) ≠ 15 ∧
    ((State.reset.pmu.e && !State.reset.pmu.m) = false ∧ (0x1F : Word).getLsbD 1 = true) ∧
    ((0x3 : Word).getLsbD 1 = true ∧ (0x3 : Word).getLsbD 0 = true ∧ (0x3 : Word).getLsbD 4 = false) ∧
    (0x5 : Word).getLsbD 1 = false ∧ (0xFF00001F : Word) &&& 0x00FFFFE0 = 0 ∧ (0x20 : Word) &&& 0x00FFFFE0 ≠ 0 := by
  decide

theorem witness_CoprocessorTransfer :
    PlainMemory (checked [(1, 0xFFFFFFFC)]) ∧ condPassed .al (checked [(1, 0xFFFFFFFC)]) = true ∧
    (checked [(1, 0xFFFFFFFC)]).privileged = true ∧ (false || false || true) = true ∧ (1 : Reg) ≠ 15 ∧
    alignedFor (checked [(1, 0xFFFFFFFC)]) ((checked [(1, 0xFFFFFFFC)]).reg 1) 4 = true ∧
    (∃ e, ldcTarget 14 = some e ∧ e.takes (checked [(1, 0xFFFFFFFC)]) (memWord (checked [(1, 0xFFFFFFFC)]).mem 0xFFFFFFFC) = true ∧
      (0x1 : Word) &&& e.reserved ≠ 0) ∧
    debugLocked (checked [(1, 0xFFFFFFFC)]) = false ∧ (0x80 : Word) &&& 0x1F20FF80 ≠ 0 ∧
    (∃ e, stcSource (checked [(1, 0xFFFFFFFC)]) 11 = some e ∧ e.ok (checked [(1, 0xFFFFFFFC)]) = true) :=
  ⟨⟨rfl, rfl, rfl, rfl, rfl, rfl⟩, rfl, rfl, rfl, by decide, by decide, ⟨_, rfl, rfl, by decide⟩, rfl, by decide, ⟨_, rfl, rfl⟩⟩

/-- User mode; a privileged mode, with the registers that LDC and STC of CP14 do not move. -/
theorem witness_CoprocessorPrivilege :
    condPassed .al user = true ∧ user.mode = modeUser ∧ user.debugOn = false ∧ user.dbg.sds = false ∧
    State.reset.privileged = true ∧ (ldcTarget 9).isNone = true ∧ (ldcTarget 11).isNone = true ∧
    (stcSource State.reset 8).isNone = true := by
  decide

/-- The instruction cache holds the line of MVA 0xFFFFFFE0, locked; both caches are enabled. -/
def cached : State :=
  { withCtrl 0x107D (asSvc [(14, 0xFFFFFFFF)]) with
    icache := { State.reset.icache with
      lines := [(l1Index 0xFFFFFFE0 3, { tag := l1Tag 0xFFFFFFE0, locked := true, bad := 0, data := 0 })] }
    dcache := { State.reset.dcache with
      lines := [(l1Index 0xFFFFFFE0 3,
        { tag := l1Tag 0xFFFFFFE0, dirty := true, locked := false, bad := 0, unk := 0, pa := 0x7FFFFFF, l2 := false, shared := false
          data := 1 })] } }

theorem witness_InstructionCacheFunctions :
    condPassed .al cached = true ∧ cached.privileged = true ∧ (14 : Reg) ≠ 15 ∧
    (cached.iFind (cached.regIn cached.mode 14)).isSome = true ∧ State.reset.iFind (State.reset.regIn State.reset.mode 14) = none ∧
    cached.ctrlBit 12 = true ∧ cached.ctrlBit 2 = true ∧
    ((withCtrl 0x1078 State.reset).ctrlBit 12 = true ∧ (withCtrl 0x1078 State.reset).mmuOn = false ∧
      (withCtrl 0x1078 State.reset).cfg.busErrors = [] ∧ (withCtrl 0x1078 State.reset).icache.lines = [] ∧
      (withCtrl 0x1078 State.reset).icache.repl = [] ∧ (withCtrl 0x1078 State.reset).buffers = [] ∧
      (withCtrl 0x1078 State.reset).l2Out = []) := by
  decide

theorem witness_DataCacheFunctions :
    condPassed .al cached = true ∧ cached.privileged = true ∧ (14 : Reg) ≠ 15 ∧ cached.mmuOn = true ∧ cached.buffers = [] ∧
    (cached.dFind (cached.regIn cached.mode 14)).isSome = true ∧
    (withRegs [(14, 0)] cached).dFind ((withRegs [(14, 0)] cached).regIn cached.mode 14) = none ∧
    (0xC0001FE0 : Word) &&& 0x3FFFE01F = 0 ∧
    (tableGet ((0xC0001FE0 : Word).extractLsb' 5 8).toNat.succ cached.dcache.lines = none) ∧
    ((tableGet (((0xC0001FE0 : Word).extractLsb' 5 8).toNat * 4 + ((0xC0001FE0 : Word).extractLsb' 30 2).toNat)
      cached.dcache.lines).any fun l => !l.locked) = true := by
  decide

/-- The MMU on, MVA 0x00100000 in a cacheable section at 0x80000000, the data cache enabled, an L2 of 256 KB enabled. -/
def mapped : State :=
  { withWords [(0xA0004004, 0x80005C0E)] (withCtrl 0x0400107D (asSvc [(14, 0x00100004)])) with
    cp15 := { (withCtrl 0x0400107D State.reset).cp15 with ttbase := 0xA0004000, dacr := 3 }
    cfg := { State.reset.cfg with l2Size := .kb256 } }

/-- Translation to cacheable memory: the line is absent; absent while lines get locked in low-locality memory; held; the data
cache disabled; memory that is not cacheable. -/
theorem witness_UserFunctions :
    (condPassed .al mapped = true ∧ (14 : Reg) ≠ 15 ∧ mapped.debugOn = false ∧ State.reset.mmuOn = false ∧
      State.reset.dcache.lines = [] ∧ mapped.buffers = [] ∧ mapped.l2Out = []) ∧
    okWith (translate 0x00100004 .write mapped.privileged mapped)
      (fun m s1 => m.attrs.dc && s1.ctrlBit 2 && (s1.dFind 0x00100000).isNone && s1.lockable m) = true ∧
    okWith (translate 0x00100004 .write true (locking 0x80001C0A))
      (fun m s1 => m.attrs.dc && s1.ctrlBit 2 && (s1.dFind 0x00100000).isNone && !s1.lockable m) = true ∧
    okWith (translate 0x00100004 .write true (mapped.dPut (l1Index 0x00100000 2) (freshLine 0x00100000
        { pa := 0x80000000, attrs := Attrs.strong } { data := 0, unk := 0 })))
      (fun m s1 => m.attrs.dc && s1.ctrlBit 2 && (s1.dFind 0x00100000).isSome) = true ∧
    okWith (translate 0x00100004 .write true { mapped with cp15 := { mapped.cp15 with ctrl := 0x79 } })
      (fun m s1 => m.attrs.dc && !s1.ctrlBit 2 && (s1.dFind 0x00100000).isNone) = true ∧
    ({ mapped with cp15 := { mapped.cp15 with ctrl := 0x79 } } : State).mmuOn = true ∧
    okWith (translate 0x00100004 .write true ({ mapped with cp15 := { mapped.cp15 with ctrl := 0x79 } }.dPut
        (l1Index 0x00100000 2) (freshLine 0x00100000 { pa := 0x80000000, attrs := Attrs.strong } { data := 0, unk := 0 })))
      (fun _ s1 => !s1.ctrlBit 2 && (s1.dFind 0x00100000).isSome) = true ∧
    okWith (translate 0x00100004 .write true (sectioned 0x80000C02 3)) (fun m s1 => !m.attrs.dc && s1.ctrlBit 2) = true :=
  ⟨by decide, by decide +kernel, by decide +kernel, by decide +kernel, by decide +kernel, by decide, by decide +kernel,
    by decide +kernel⟩

/-- One store and one write-back wait, of memory that does not go through the L2; a fault descriptor. -/
theorem witness_UserFunctions_waiting :
    (let e : BufEntry := { line := 1, mask := 1, unk := 0, data := 0x77, coal := true, unc := false, l2 := false, shared := false }
     let o : OutEntry := { line := 1, unk := 0, data := 1 }
     let s : State := { mapped with buffers := [e], l2Out := [o] }
     s.cfg.busErrors = [] ∧ (∀ e ∈ s.l2Out, e.unk = 0) ∧ (∀ e ∈ s.buffers, e.unk = 0 ∧ e.l2 = false) ∧
      memByte (s.drainBuffers).mem 0x20 = 0x77 ∧ memByte (s.drainBuffers).mem 0x40 = 0) ∧
    stopWith (translate 0x00200004 .write mapped.privileged mapped) (fun e => match e with | .abort .. => true | _ => false) = true :=
  ⟨by decide +kernel, by decide +kernel⟩

/-- Locks of the instruction cache and of the TLBs that abort: a fault descriptor; with the MMU off, a block on which the bus
answers with an error. -/
theorem witness_lockAborts :
    (let s := withRegs [(14, 0x00200004)] mapped
     condPassed .al s = true ∧ s.privileged = true ∧ s.ctrlBit 12 = true ∧ s.iFind 0x00200004 = none ∧ s.mmuOn = true ∧
      s.itlb.lookup 0x00200004 = none ∧ s.dtlb.lookup 0x00200004 = none ∧
      stopWith (tableWalk 0x00200004 s) (fun e => match e with | .abort .. => true | _ => false) = true) ∧
    (let s := { withCtrl 0x1078 State.reset with cfg := { State.reset.cfg with busErrors := [(0, 0x20)] } }
     s.ctrlBit 12 = true ∧ s.iFind 0 = none ∧ s.mmuOn = false ∧ s.buffers = [] ∧ s.busError 0 ≠ 0) :=
  ⟨by decide +kernel, by decide +kernel⟩

/-- `20_memory` R249 a, `22_caches` R390: the store part of a swap releases the store that is held to coalesce, and not an
uncacheable one; a DMB releases both. -/
theorem test_releaseHeld :
    let e (line : BitVec 31) (coal : Bool) : BufEntry :=
      { line := line, mask := 1, unk := 0, data := 0x77, coal := coal, unc := !coal, l2 := false, shared := false }
    let s : State := { State.reset with buffers := [e 2 false, e 1 true] }
    s.releaseHeld.buffers = [e 2 false] ∧ s.releaseHeld.mem = [(0x20, 0x77)] ∧ s.drainBuffers.buffers = [] :=
  ⟨rfl, by decide +kernel, by decide +kernel⟩

/-- `22_caches` R381, R420: a store made while its block was cacheable leaves before a later uncacheable one of the block, when an
uncacheable load releases the latter, and when the release of another block does. -/
theorem test_release_keeps_block_order :
    let e (line : BitVec 31) (unc : Bool) (v : BitVec 256) : BufEntry :=
      { line := line, mask := 1, unk := 0, data := v, coal := true, unc := unc, l2 := false, shared := false }
    let s : State := { State.reset with buffers := [e 1 false 0x11, e 1 true 0x22, e 2 true 0x33, e 3 false 0x44] }
    s.releaseUncached.buffers = [e 3 false 0x44] ∧ s.releaseUncached.mem = [(0x20, 0x22), (0x40, 0x33)] ∧
    s.releaseLine 2 = s.releaseUncached ∧ (s.releaseLine 3).mem = [(0x60, 0x44)] :=
  ⟨by decide +kernel, by decide +kernel, by decide +kernel, by decide +kernel⟩

/-- `21_mmu` R301, R304: the row 000 0 1 is Shared for S = 0 too, the row 001 0 0 is not. `20_memory` R249 a, R261: at the end of a
swap to the latter its own store has left and another one waits. -/
theorem test_swap_store_leaves :
    let e (line : BitVec 31) : BufEntry :=
      { line := line, mask := 1, unk := 0, data := 0x77, coal := true, unc := false, l2 := false, shared := false }
    let s : State := { State.reset with buffers := [e 2, e 1] }
    ((s.attrsOf 0 false true false).any (·.shared) && (s.attrsOf 1 false false false).any (!·.shared)) = true ∧
    (s.attrsOf 1 false false false).map (fun a => (s.swapFence { pa := 0x24, attrs := a }).buffers) = some [e 2] :=
  ⟨by decide, by decide +kernel⟩

/-- Log entry 63: a write of Control that turns the MMU on lets what waits leave first, one that does not leaves it. -/
theorem test_control_drains :
    let s : State := { State.reset with
      buffers := [{ line := 1, mask := 1, unk := 0, data := 0x77, coal := true, unc := false, l2 := false, shared := false }] }
    [0x79, 0x78].map (fun v => match writeControl s v with | .ok t => t.mem | .error _ => []) = [[(0x20, 0x77)], []] := by
  decide +kernel

/-- `70_reset_and_hazards` R1105, `61_debug_pmu_power` R1025: the reset vector trap, with H and TR set, enters DEBUG mode at the base of the
Debug SRAM, which is in its window and holds its first word, with R14 = 4. -/
theorem test_reset_trap :
    let s := { State.reset with dbg := { State.reset.dbg with dcsr := 0x40010000 } }.vectorTrap .reset
    s.pc = resetTrapPc ∧ s.regIn modeDebug 14 = 4 ∧ s.mode = modeDebug ∧ s.dbg.sds = true :=
  ⟨rfl, by decide +kernel, by decide +kernel, by decide +kernel⟩

/-- `70_reset_and_hazards` R1105, `61_debug_pmu_power` R1075: wherever the reset vector trap continues, it fetches word 0 of the
Debug SRAM. -/
theorem test_reset_trap_fetch : inSramWindow resetTrapPc = true ∧ resetTrapPc.extractLsb' 2 9 = 0 := by
  unfold inSramWindow resetTrapPc
  cases Config.resetTrapHigh <;> decide

/-- `22_caches` R372, R375: the entry of an ARM branch at MVA 0 is not stale for the Thumb halfwords of the same word, and is
once the word is another one. -/
theorem test_btb_stale :
    let s (t : Bool) (w : Word) : State := ({ State.reset with
      cp15 := { State.reset.cp15 with ctrl := 0x878 }, mem := memWriteLine [] 0 0xF (w.setWidth 256)
      btb := [(0, { tag := 0, target := 4, history := 2, word := 0xEA000000, bits := 0xFFFFFFFF })] } : State).setThumb t
    [(s false 0xEA000000).btbStale, (s true 0xEA000000).btbStale, (s false 0xEA000001).btbStale,
      (s true 0xEB000000).btbStale] = [false, false, true, true] := by
  decide +kernel

/-- `22_caches` R375, log entry 19: a taken branch is predicted only where its entry holds its target. -/
theorem test_btb_other_target :
    let s : State := { State.reset with
      cp15 := { State.reset.cp15 with ctrl := 0x878 }, btb := [(0, { tag := 0, target := 4, history := 3, word := 0xEA000000, bits := 0xFFFFFFFF })] }
    [8, 12].map (fun pc => s.btbPredicted ({ s with pc := pc }.setFlow .direct)) = [true, false] := by
  decide +kernel

/-- `61_debug_pmu_power` R1004: with the TLBs and the data cache disabled no access misses a TLB, and every one misses the
data cache. -/
theorem test_event_unit_disabled :
    [0x03, 0x04, 0x0B].map (State.reset.eventCount (State.reset.noteAccess.noteAccess)) = [some 0, some 0, some 2] := by
  decide

/-- An entry for MVA 0. -/
def entryZero (locked : Bool) : TlbEntry :=
  { locked := locked, mva := 0, size := .kb1, base := 0, domain := 0, ap := 0, tex := 0, c := false, b := false, s := false
    p := false, section_ := false }

theorem no_entries :
    ∀ k e, mapped.itlb.entries.get k = some e → e.hits (mapped.regIn mapped.mode 14) = true → e.locked = false := by
  intro k e h
  have hk : ∀ k, mapped.itlb.entries.get k = none := by decide
  rw [hk] at h
  cases h

theorem witness_TlbFunctions :
    condPassed .al mapped = true ∧ mapped.privileged = true ∧ (14 : Reg) ≠ 15 ∧
    (∀ k e, mapped.itlb.entries.get k = some e → e.hits (mapped.regIn mapped.mode 14) = true → e.locked = false) ∧
    (entryZero false).hits 0x3FF = true ∧ (entryZero false).hits 0x400 = false ∧ mapped.mmuOn = true ∧
    mapped.itlb.lookup (mapped.regIn mapped.mode 14) = none ∧ mapped.dtlb.lookup (mapped.regIn mapped.mode 14) = none ∧
    ∃ e s1, tableWalk (mapped.regIn mapped.mode 14) mapped = .ok e s1 ∧ true = true :=
  ⟨by decide, by decide, by decide, no_entries, by decide, by decide, by decide, by decide, by decide,
    okWith_spec (p := fun _ _ => true) (by decide +kernel)⟩

/-- An L2 line without an error. -/
def l2Line (pa : BitVec 31) (dirty locked : Bool) : L2Line :=
  { filledLine pa 1 with st := if dirty then .modified else .exclusive, locked := locked }

/-- An L2 line of physical block 0, locked or not, and the register that names set 0, way 0. -/
def secondLevel (dirty locked : Bool) (v : Word) : State :=
  { withCtrl 0x04000078 (asSvc [(14, v)]) with
    cfg := { State.reset.cfg with l2Size := .kb256 }
    l2 := { State.reset.l2 with lines := [(0, l2Line 0 dirty locked)] } }

/-- Without an L2; with one, by set and way: an empty way, a locked line, a dirty one that is not; a write-back on its way. -/
theorem witness_LevelTwoFunctions :
    condPassed .al mapped = true ∧ mapped.privileged = true ∧ (14 : Reg) ≠ 15 ∧ State.reset.cfg.l2Size = .absent ∧
    mapped.cfg.l2Size ≠ .absent ∧ mapped.ctrlBit 26 = true ∧
    ((secondLevel true false 0).l2SetWay 0 = some 0 ∧ (secondLevel true false 0).l2SetWay 0xE0007FE0 = some 8191 ∧
      tableGet 8191 (secondLevel true false 0).l2.lines = none ∧
      (tableGet 0 (secondLevel true false 0).l2.lines).any (fun l => !l.locked && l.dirty && l.err == L2Error.none) = true ∧
      (tableGet 0 (secondLevel true true 0).l2.lines).any (fun l => l.locked) = true) ∧
    (let e : OutEntry := { line := 0, unk := 0, data := 1 }
     let s : State := { secondLevel true false 0 with l2Out := [e] }
     s.buffers = [] ∧ s.cfg.busErrors = [] ∧ s.l2Out = [e] ∧ e.unk = 0) := by
  decide

/-- The L2 holds lines of the set of physical block 0x4000000 in its first ways. -/
def heldLines (l : List L2Line) : State :=
  { mapped with l2 := { State.reset.l2 with lines := l.zipIdx.map fun p => (p.2, p.1) } }

/-- Seven locked lines of one set. -/
def sevenLocked : List L2Line := (List.range 7).map fun k => l2Line (0x4000000 + 0x400 * BitVec.ofNat 31 (k + 1)) false true

/-- Memory that is not L2 cacheable; an absent line; a clean one, a dirty one, and either while the set is full; a fault
descriptor. -/
theorem witness_LevelTwoFunctions_translated :
    let look (s : State) (p : Mapped → State → Bool) : Bool := okWith (l2Translate (s.regIn s.mode 14) s) p
    let plain (m : Mapped) (s : State) : Bool := m.attrs.l2 && s.buffers.isEmpty && s.l2Out.isEmpty && s.cfg.busErrors.isEmpty
    look (secondLevel true false 0x1F) (fun m _ => !m.attrs.l2) = true ∧
    look mapped (fun m s => plain m s && (s.l2Find (blockOf m.pa)).isNone && !s.l2Full (blockOf m.pa)) = true ∧
    look (heldLines sevenLocked) (fun m s => plain m s && (s.l2Find (blockOf m.pa)).isNone && s.l2Full (blockOf m.pa)) = true ∧
    [false, true].all (fun d =>
      look (heldLines [l2Line 0x4000000 d false]) (fun m s =>
        plain m s && !s.l2Full (blockOf m.pa) &&
          (s.l2Find (blockOf m.pa)).any fun p => p.2.dirty == d && p.2.err == L2Error.none && p.2.unk == 0)) = true ∧
    look (heldLines (l2Line 0x4000000 true false :: sevenLocked)) (fun m s => s.l2Full (blockOf m.pa)) = true ∧
    stopWith (l2Translate 0x00200004 mapped) (fun e => match e with | .abort .. => true | _ => false) = true :=
  ⟨by decide +kernel, by decide +kernel, by decide +kernel, by decide +kernel, by decide +kernel, by decide +kernel⟩

theorem witness_ProcessIdRemap : (0x01FFFFFF : Word).toNat < 2 ^ 25 ∧ 2 ^ 25 ≤ (0x02000000 : Word).toNat := by decide

/-- A fault descriptor, a section of a domain without access, one that denies a user write, a Manager's, a Client's. -/
theorem witness_SectionTranslation :
    [((0 : Word), (0 : Word)), (0x80000C02, 0), (0x80000802, 1), (0x800001E2, 0xC0000000), (0x80000DE2, 0x40000000)].all (fun p =>
      let s := sectioned p.1 p.2
      let d := memWord s.mem (s.cp15.ttbase.extractLsb' 14 18 ++ (0x001FFFFF : Word).extractLsb' 20 12 ++ (0 : BitVec 2) : BitVec 32).toNat
      s.mmuOn && (s.dtlb.lookup 0x001FFFFF).isNone && s.cfg.busErrors.isEmpty && s.cp15.ttbase.extractLsb' 3 2 == 0 && d == p.1 &&
        (d.extractLsb' 0 2 == 0 || d.extractLsb' 0 2 == 2 && d &&& 0x000F8010 == 0 && d.extractLsb' 12 3 == 0 &&
          s.cp15.dacr.extractLsb' (2 * (d.extractLsb' 5 4).toNat) 2 != 2)) = true := by
  decide +kernel

theorem witness_UnpredictableForms :
    condPassed .al State.reset = true ∧ ((15 : Reg) = 15 ∨ (14 : Reg) = 15 ∨ (13 : Reg) = 15) ∧ (14 : Reg) ≠ 15 ∧
    (0x7FFF : BitVec 15) ≠ 0 ∧ (0xFFFF : BitVec 16) ≠ 0 ∧ (withCpsr 0x1F State.reset).spsr = none ∧ user.spsr = none ∧
    State.reset.ctrlBit 1 = false ∧ (12 : Reg).getLsbD 0 = false ∧ (12 : Reg) ≠ 14 ∧ (1 : Reg) ≠ 12 ∧ (1 : Reg) ≠ 12 + 1 ∧
    ((asSvc [(1, 0xFFFFFFFF)]).am3 true true true false 1 0 0).addr.getLsbD 0 = true ∧
    ((asSvc [(1, 0xFFFFFFFC)]).am3 true true true false 1 0 0).addr.extractLsb' 0 3 ≠ 0 ∧ Cond.eq ≠ .al ∧
    condPassed .eq (withCpsr 0x40000010 State.reset) = true ∧ State.reset.privileged = true ∧ (withCpar State.reset).cp15.cpar.getLsbD 0 = true := by
  decide

end

end Sys2Proof.Tests
end

/-!
PROOF. Multiplies, CLZ and the branches with an immediate offset (`40_arm_base` R530 to R536, R540, R541, R543, R555).
-/
namespace Sys2Proof.ArmBase

open Sys2Proof Sys2Proof.Machine Sys2Proof.Spec

/-! The words of the encoder as concatenations of their fields -/

/-- The first field of a word. -/
theorem put_zero {n k : Nat} (y : BitVec k) : put y (0 : BitVec n) = y.setWidth n := by simp [put]

/-- A further field goes below the fields written before it. -/
theorem put_setWidth {n m k : Nat} (x : BitVec m) (y : BitVec k) :
    put y (x.setWidth n) = (x ++ y).setWidth n := by
  ext i hi
  by_cases hik : i < k
  · simp [put, BitVec.getLsbD_append, hik]
  · have hy : y.getLsbD i = false := BitVec.getLsbD_of_ge y i (by omega)
    simp [put, BitVec.getLsbD_append, hik, hy]

/-! Registers, flags and frames -/

theorem lt_fifteen : ∀ {r : Reg}, r ≠ 15 → r < 15 := by decide

theorem regIn_setReg_self (s : State) (n : Reg) (v : Word) : (s.setReg n v).regIn s.mode n = v :=
  regIn_setRegIn_self s s.mode n v

theorem regIn_setReg_other {s : State} {n j : Reg} (v : Word) (hn : n ≠ 15) (hj : j ≠ 15) (h : j ≠ n) :
    (s.setReg n v).regIn s.mode j = s.regIn s.mode j :=
  regIn_setRegIn_other (lt_fifteen hn) (lt_fifteen hj) h

/-- Moving the pc on after the flags were written leaves those flags, and the rest of the CPSR as it was. -/
theorem flagsAre_setFlags_advance {s t : State} (hcpsr : t.cpsr = s.cpsr) (n z c v : Bool) :
    FlagsAre s (t.setFlags n z c v).advance n z c v :=
  ⟨setFlags_flagN t n z c v, setFlags_flagZ t n z c v, setFlags_flagC t n z c v, setFlags_flagV t n z c v,
    (setFlags_low t n z c v).trans (by rw [hcpsr])⟩

theorem frame_refl (s : State) (ks : List (BitVec 5)) (stored : Nat → Prop) : Frame s s ks stored := by
  constructor <;> simp

section
variable {s t : State} {ks : List (BitVec 5)} {stored : Nat → Prop} (h : Frame s t ks stored)
include h

theorem frame_setReg {n : Reg} (v : Word) (hn : phys t n ∈ ks) : Frame s (t.setReg n v) ks stored :=
  { h with
    regs := fun k hk => by
      have hne : k ≠ physIndex t.mode n := fun e => hk (e ▸ hn)
      rw [State.setReg_regs, regs_get_set, if_neg hne, h.regs k hk] }

theorem frame_setFlags (n z c v : Bool) : Frame s (t.setFlags n z c v) ks stored := { h with }
theorem frame_setThumb (b : Bool) : Frame s (t.setThumb b) ks stored := { h with }
theorem frame_advance : Frame s t.advance ks stored := { h with }
theorem frame_branchDirect (v : Word) : Frame s (t.branchDirect v) ks stored := { h with }
theorem frame_branchIndirect (v : Word) : Frame s (t.branchIndirect v) ks stored := { h with }
theorem frame_noteB : Frame s t.noteB ks stored := { h with }
theorem frame_noteBranch : Frame s t.noteBranch ks stored := { h with }

end

/-- Two different registers written one after the other. -/
theorem setReg_pair (s : State) {hi lo : Reg} (a b : Word) (hhi : hi ≠ 15) (hlo : lo ≠ 15) (hne : hi ≠ lo) :
    ((s.setReg hi a).setReg lo b).regIn s.mode hi = a ∧ ((s.setReg hi a).setReg lo b).regIn s.mode lo = b ∧
      Frame s ((s.setReg hi a).setReg lo b) [phys s hi, phys s lo] noBytes :=
  ⟨(regIn_setReg_other (s := s.setReg hi a) b hlo hhi hne).trans (regIn_setReg_self s hi a),
    regIn_setReg_self (s.setReg hi a) lo b,
    frame_setReg (frame_setReg (frame_refl ..) a (by simp)) b (by simp [phys])⟩

/-! The ends of the multiplies and of CLZ -/

section
variable {i : Instr} {s : State}

/-- The end of a 32-bit multiply gives a result whose flags C and V are the old ones. -/
theorem computes_of_mulFinish {sBit : Bool} {rd : Reg} {r : Word} (h : exec i s = mulFinish s sBit rd r) :
    Computes i s rd sBit { value := r, carry := s.flagC, overflow := s.flagV } := by
  have hframe : Frame s (s.setReg rd r) [phys s rd] noBytes := frame_setReg (frame_refl ..) r (by simp)
  refine ⟨_, h, ?_⟩
  cases sBit with
  | false => exact ⟨regIn_setReg_self s rd r, rfl, frame_advance hframe, rfl⟩
  | true =>
    exact ⟨regIn_setReg_self s rd r, setFlags_nextPc .., frame_advance (frame_setFlags hframe ..),
      flagsAre_setFlags_advance rfl ..⟩

/-- The end of a 64-bit multiply into two different registers. -/
theorem computesPair_of_mulLongFinish {sBit : Bool} {hi lo : Reg} {p : BitVec 64}
    (h : exec i s = mulLongFinish s sBit hi lo p) (hhi : hi ≠ 15) (hlo : lo ≠ 15) (hne : hi ≠ lo) :
    ComputesPair i s hi lo sBit p := by
  obtain ⟨hhigh, hlow, hframe⟩ := setReg_pair s (p.extractLsb' 32 32) (p.extractLsb' 0 32) hhi hlo hne
  refine ⟨_, h, ?_⟩
  cases sBit with
  | false => exact ⟨hhigh, hlow, rfl, frame_advance hframe, rfl⟩
  | true =>
    exact ⟨hhigh, hlow, setFlags_nextPc .., frame_advance (frame_setFlags hframe ..),
      flagsAre_setFlags_advance rfl ..⟩

/-- An instruction that only writes `Rd`. -/
theorem writes_of_setReg {rd : Reg} {v : Word} (h : exec i s = .next (s.setReg rd v).advance) :
    Writes i s rd v s.cpsr :=
  ⟨_, h, regIn_setReg_self s rd v, rfl, rfl, frame_advance (frame_setReg (frame_refl ..) v (by simp))⟩

end

/-! The products in plain numbers -/

theorem mul_eq_ofNat (a b : Word) : a * b = BitVec.ofNat 32 (a.toNat * b.toNat) := by
  simp [BitVec.ofNat_mul]

theorem mul_add_eq_ofNat (a b c : Word) : a * b + c = BitVec.ofNat 32 (a.toNat * b.toNat + c.toNat) := by
  simp [BitVec.ofNat_add, BitVec.ofNat_mul]

theorem setWidth_mul_eq_ofNat (a b : Word) :
    a.setWidth 64 * b.setWidth 64 = BitVec.ofNat 64 (a.toNat * b.toNat) := by
  rw [BitVec.ofNat_mul, BitVec.ofNat_toNat, BitVec.ofNat_toNat]

theorem setWidth_mul_add_eq_ofNat (a b : Word) (c : BitVec 64) :
    a.setWidth 64 * b.setWidth 64 + c = BitVec.ofNat 64 (a.toNat * b.toNat + c.toNat) := by
  rw [setWidth_mul_eq_ofNat, BitVec.ofNat_add, BitVec.ofNat_toNat, BitVec.setWidth_eq]

theorem signExtend_mul_eq_ofInt (a b : Word) :
    a.signExtend 64 * b.signExtend 64 = BitVec.ofInt 64 (a.toInt * b.toInt) :=
  (BitVec.ofInt_mul a.toInt b.toInt).symm

theorem signExtend_mul_add_eq_ofInt (a b : Word) (c : BitVec 64) :
    a.signExtend 64 * b.signExtend 64 + c = BitVec.ofInt 64 (a.toInt * b.toInt + c.toInt) := by
  rw [signExtend_mul_eq_ofInt, BitVec.ofInt_add, BitVec.ofInt_toInt]

/-- The model's pair of registers is the one of the statements. -/
theorem pair_eq_pairOf (s : State) (hi lo : Reg) : s.pair hi lo = pairOf s hi lo := rfl

/-! The tests of the operands -/

theorem orRefuse_false (r : Refusal) (body : Host.Outcome State Fault Refusal) : orRefuse false r body = .refused r :=
  rfl

/-! The multiplies whose condition passed, on the operands that they allow -/

section
variable {cond : Cond} {s : State} {rd rn rs rm : Reg} (sBit : Bool) (hc : condPassed cond s = true)
  (hd : rd ≠ 15) (hs : rs ≠ 15) (hm : rm ≠ 15)
include hc hd hs hm

theorem exec_mul_passed : exec (.mul cond sBit rd 0 rs rm) s =
    mulFinish s sBit rd (BitVec.ofNat 32 ((s.reg rm).toNat * (s.reg rs).toNat)) := by
  simp only [exec_mul, execMul, whenCond_passed hc, bne_iff_ne.mpr hd, bne_iff_ne.mpr hs, bne_iff_ne.mpr hm,
    beq_self_eq_true, Bool.and_self, orRefuse_true, mul_eq_ofNat]

variable (hn : rn ≠ 15)
include hn

theorem exec_mla_passed : exec (.mla cond sBit rd rn rs rm) s =
    mulFinish s sBit rd (BitVec.ofNat 32 ((s.reg rm).toNat * (s.reg rs).toNat + (s.reg rn).toNat)) := by
  simp only [exec_mla, execMla, whenCond_passed hc, bne_iff_ne.mpr hd, bne_iff_ne.mpr hn, bne_iff_ne.mpr hs,
    bne_iff_ne.mpr hm, Bool.and_self, orRefuse_true, mul_add_eq_ofNat]

variable (hne : rd ≠ rn)
include hne

theorem exec_umull_passed : exec (.umull cond sBit rd rn rs rm) s =
    mulLongFinish s sBit rd rn (BitVec.ofNat 64 ((s.reg rm).toNat * (s.reg rs).toNat)) := by
  simp only [exec_umull, execUmull, whenCond_passed hc, bne_iff_ne.mpr hd, bne_iff_ne.mpr hn, bne_iff_ne.mpr hs,
    bne_iff_ne.mpr hm, bne_iff_ne.mpr hne, Bool.and_self, orRefuse_true, setWidth_mul_eq_ofNat]

theorem exec_umlal_passed : exec (.umlal cond sBit rd rn rs rm) s =
    mulLongFinish s sBit rd rn
      (BitVec.ofNat 64 ((s.reg rm).toNat * (s.reg rs).toNat + (pairOf s rd rn).toNat)) := by
  simp only [exec_umlal, execUmlal, whenCond_passed hc, bne_iff_ne.mpr hd, bne_iff_ne.mpr hn, bne_iff_ne.mpr hs,
    bne_iff_ne.mpr hm, bne_iff_ne.mpr hne, Bool.and_self, orRefuse_true, setWidth_mul_add_eq_ofNat, pair_eq_pairOf]

theorem exec_smull_passed : exec (.smull cond sBit rd rn rs rm) s =
    mulLongFinish s sBit rd rn (BitVec.ofInt 64 ((s.reg rm).toInt * (s.reg rs).toInt)) := by
  simp only [exec_smull, execSmull, whenCond_passed hc, bne_iff_ne.mpr hd, bne_iff_ne.mpr hn, bne_iff_ne.mpr hs,
    bne_iff_ne.mpr hm, bne_iff_ne.mpr hne, Bool.and_self, orRefuse_true, signExtend_mul_eq_ofInt]

theorem exec_smlal_passed : exec (.smlal cond sBit rd rn rs rm) s =
    mulLongFinish s sBit rd rn
      (BitVec.ofInt 64 ((s.reg rm).toInt * (s.reg rs).toInt + (pairOf s rd rn).toInt)) := by
  simp only [exec_smlal, execSmlal, whenCond_passed hc, bne_iff_ne.mpr hd, bne_iff_ne.mpr hn, bne_iff_ne.mpr hs,
    bne_iff_ne.mpr hm, bne_iff_ne.mpr hne, Bool.and_self, orRefuse_true, signExtend_mul_add_eq_ofInt,
    pair_eq_pairOf]

end

/-- Settles O13: each multiply ends in `mulFinish` or `mulLongFinish`, with its product read as a number. -/
theorem multiplyResult : Obligations.MultiplyResult := by
  unfold Obligations.MultiplyResult
  intro cond sBit rd rn rs rm s word
  refine ⟨?_, ?_, ?_, ?_, ?_, ?_, ?results⟩
  case results =>
    intro hc hd hs hm narrow product signedProduct
    refine ⟨computes_of_mulFinish (exec_mul_passed sBit hc hd hs hm),
      fun hn => computes_of_mulFinish (exec_mla_passed sBit hc hd hs hm hn), fun hn hne => ⟨?_, ?_, ?_, ?_⟩⟩
    · exact computesPair_of_mulLongFinish (exec_umull_passed sBit hc hd hs hm hn hne) hd hn hne
    · exact computesPair_of_mulLongFinish (exec_umlal_passed sBit hc hd hs hm hn hne) hd hn hne
    · exact computesPair_of_mulLongFinish (exec_smull_passed sBit hc hd hs hm hn hne) hd hn hne
    · exact computesPair_of_mulLongFinish (exec_smlal_passed sBit hc hd hs hm hn hne) hd hn hne
  all_goals
    simp only [encode, putBit, put_zero, put_setWidth, BitVec.setWidth_eq]
    rfl

/-! CLZ -/

/-- The run of numbers from 0 on which a test holds ends where the test first fails. -/
theorem length_takeWhile_range {p : Nat → Bool} {n m : Nat} (hnm : n ≤ m) (holds : ∀ k, k < n → p k = true)
    (fails : n < m → p n = false) : ((List.range m).takeWhile p).length = n := by
  obtain ⟨d, rfl⟩ := Nat.exists_eq_add_of_le hnm
  rw [List.range_add, List.takeWhile_append_of_pos (by simpa using holds)]
  cases d with
  | zero => simp
  | succ d =>
    have hn : p n = false := fails (by omega)
    simp [List.range_succ_eq_map, hn]

theorem leadingZeros_eq {v : Word} {n : Nat} (hn : n ≤ 32) (zeros : ∀ k, k < n → v.getLsbD (31 - k) = false)
    (one : n < 32 → v.getLsbD (31 - n) = true) : leadingZeros v = BitVec.ofNat 32 n := by
  have hlen : ((List.range 32).takeWhile fun k => !v.getLsbD (31 - k)).length = n :=
    length_takeWhile_range hn (fun k hk => by rw [zeros k hk]; rfl) (fun h => by rw [one h]; rfl)
  rw [leadingZeros, hlen]

section
variable {cond : Cond} {s : State} {rd rm : Reg} (hc : condPassed cond s = true)
include hc

theorem exec_clz_passed (hd : rd ≠ 15) (hm : rm ≠ 15) :
    exec (.clz cond 15 rd 15 rm) s = .next (s.setReg rd (leadingZeros (s.reg rm))).advance := by
  simp only [exec_clz, execClz, whenCond_passed hc, bne_iff_ne.mpr hd, bne_iff_ne.mpr hm, beq_self_eq_true,
    Bool.and_self, orRefuse_true]

theorem exec_clz_pcOperand (h : rd = 15 ∨ rm = 15) : exec (.clz cond 15 rd 15 rm) s = .refused .pcOperand := by
  have hoperands : (rd != 15 && rm != 15) = false := by
    rcases h with rfl | rfl <;> simp
  simp only [exec_clz, execClz, whenCond_passed hc, beq_self_eq_true, Bool.and_self, orRefuse_true, hoperands,
    orRefuse_false]

end

/-- Settles O16: the count is the length of the longest run of zeros from bit 31 down. -/
theorem countLeadingZeros : Obligations.CountLeadingZeros := by
  unfold Obligations.CountLeadingZeros
  intro cond rd rm s n
  refine ⟨?encoding, fun hc hd hm hn zeros one => ?result, fun hc h => exec_clz_pcOperand hc h⟩
  case encoding =>
    simp only [encode, put_zero, put_setWidth, BitVec.setWidth_eq]
    -- The model writes the byte 0xF1 as two fields.
    exact congrArg (fun x => Code.arm (x ++ rm))
      (BitVec.append_assoc (x₁ := cond.bits ++ 0x16#8 ++ 15#4 ++ rd) (x₂ := 15#4) (x₃ := 1#4))
  case result =>
    have h := exec_clz_passed hc hd hm
    rw [leadingZeros_eq hn zeros one] at h
    exact writes_of_setReg h

/-! The branches -/

/-- The two low zeros of the offset multiply it by four. -/
theorem branchTarget_eq (pc : Word) (imm : BitVec 24) : branchTarget pc imm = pc + imm.signExtend 32 * 4 := by
  rw [branchTarget, BitVec.shiftLeft_eq_mul_twoPow]
  rfl

theorem pcRead_arm {s : State} (h : s.thumb = false) : s.pcRead = s.pc + 8 := by simp [State.pcRead, h]

/-- In ARM state the T bit is clear already. -/
theorem cpsr_clear_thumb {s : State} (h : s.thumb = false) : s.cpsr &&& ~~~0x20 = s.cpsr := by
  have hbit : (0x20 : Word) = BitVec.twoPow 32 5 := by decide
  rw [hbit]
  ext i hi
  by_cases h5 : i = 5
  · subst h5
    simpa [State.thumb, BitVec.getLsbD_eq_getElem] using h
  · simp [BitVec.getElem_twoPow, h5]

theorem condPassed_noteB (cond : Cond) (s : State) : condPassed cond s.noteB = condPassed cond s := by
  cases cond <;> rfl

section
variable {cond : Cond} {s : State} (imm : BitVec 24) (harm : s.thumb = false)
include harm

theorem branchTarget_arm : branchTarget s.pcRead imm = s.pc + 8 + imm.signExtend 32 * 4 := by
  rw [branchTarget_eq, pcRead_arm harm]

theorem branches_b (hc : condPassed cond s = true) :
    Branches (.b cond imm) s (s.pc + 8 + imm.signExtend 32 * 4) none false := by
  have hexec : exec (.b cond imm) s = .next (s.noteB.branchDirect (branchTarget s.pcRead imm)) :=
    whenCond_passed ((condPassed_noteB cond s).trans hc) _
  rw [branchTarget_arm imm harm] at hexec
  exact ⟨_, hexec, rfl, (cpsr_clear_thumb harm).symm, nofun, frame_branchDirect (frame_noteB (frame_refl ..)) _⟩

theorem branches_bl (hc : condPassed cond s = true) :
    Branches (.bl cond imm) s (s.pc + 8 + imm.signExtend 32 * 4) (some (s.pc + 4)) false := by
  have hexec : exec (.bl cond imm) s =
      .next ((s.noteB.setReg 14 (s.pc + 4)).branchDirect (branchTarget s.pcRead imm)) :=
    whenCond_passed ((condPassed_noteB cond s).trans hc) _
  rw [branchTarget_arm imm harm] at hexec
  refine ⟨_, hexec, rfl, (cpsr_clear_thumb harm).symm, ?link, ?frame⟩
  case link =>
    rintro _ ⟨⟩
    exact regIn_setReg_self s.noteB 14 _
  case frame =>
    exact frame_branchDirect (frame_setReg (frame_noteB (frame_refl ..)) _ (List.mem_singleton.mpr rfl)) _

theorem branches_blxImm (hBit : Bool) :
    Branches (.blxImm hBit imm) s (s.pc + 8 + imm.signExtend 32 * 4 + (if hBit then 2 else 0)) (some (s.pc + 4))
      true := by
  have hexec : exec (.blxImm hBit imm) s =
      .next (((s.noteBranch.setReg 14 (s.pc + 4)).setThumb true).branchIndirect
        (branchTarget s.pcRead imm + (if hBit then 2 else 0))) := rfl
  rw [branchTarget_arm imm harm] at hexec
  refine ⟨_, hexec, rfl, rfl, ?link, ?frame⟩
  case link =>
    rintro _ ⟨⟩
    exact regIn_setReg_self s.noteBranch 14 _
  case frame =>
    exact frame_branchIndirect (frame_setThumb
      (frame_setReg (frame_noteBranch (frame_refl ..)) _ (List.mem_singleton.mpr rfl)) _) _

end

/-- Settles O17: B and BL take the target under their condition, BLX(1) always and into Thumb state. -/
theorem branchImmediate : Obligations.BranchImmediate := by
  unfold Obligations.BranchImmediate
  intro cond hBit imm s harm target
  refine ⟨fun hc => ⟨branches_b imm harm hc, branches_bl imm harm hc⟩, branches_blxImm imm harm hBit,
    ?_, ?_, ?_⟩
  all_goals
    simp only [encode, putBit, put_zero, put_setWidth, BitVec.setWidth_eq]
    rfl

end Sys2Proof.ArmBase

/-!
PROOF. The 16-bit multiplies and the saturating additions (`41_dsp_thumb` R650 to R658).
-/
namespace Sys2Proof.Dsp

open Sys2Proof Sys2Proof.Machine Sys2Proof.Spec Sys2Proof.ArmBase

/-! Narrowing to 32 bits -/

theorem outOfRange_eq_false_iff {x : Int} : outOfRange x = false ↔ -(2 ^ 31) ≤ x ∧ x < 2 ^ 31 := by
  simp [outOfRange]

/-- A number that fits comes back from its 32 bits. -/
theorem toInt_ofInt_of_fits {x : Int} (h : outOfRange x = false) : (BitVec.ofInt 32 x).toInt = x := by
  obtain ⟨hlow, hhigh⟩ := outOfRange_eq_false_iff.mp h
  exact BitVec.toInt_ofInt_eq_self (by decide) hlow hhigh

theorem outOfRange_toInt (v : Word) : outOfRange v.toInt = false :=
  outOfRange_eq_false_iff.mpr ⟨v.le_toInt, v.toInt_lt⟩

/-- The overflow test of the model, a comparison with the narrowed number, is the range test of the spec. -/
theorem ne_toInt_ofInt (x : Int) : decide (x ≠ (BitVec.ofInt 32 x).toInt) = outOfRange x := by
  cases h : outOfRange x with
  | false => simp [toInt_ofInt_of_fits h]
  | true =>
    have hne : x ≠ (BitVec.ofInt 32 x).toInt := fun heq => by
      rw [heq, outOfRange_toInt] at h
      cases h
    simpa using hne

theorem wrapAdd_eq (x y : Int) : wrapAdd x y = (BitVec.ofInt 32 (x + y), outOfRange (x + y)) :=
  congrArg (Prod.mk _) (ne_toInt_ofInt (x + y))

theorem signedSat_eq (x : Int) : signedSat x = (BitVec.ofInt 32 (clamp x), outOfRange x) := by
  unfold signedSat
  split
  case isTrue hlow =>
    have hclamp : clamp x = -(2 ^ 31) := by unfold clamp; omega
    have hout : outOfRange x = true := decide_eq_true (.inl hlow)
    rw [hclamp, hout]; rfl
  case isFalse hlow =>
    split
    case isTrue hhigh =>
      have hclamp : clamp x = 2 ^ 31 - 1 := by unfold clamp; omega
      have hout : outOfRange x = true := decide_eq_true (.inr (by omega))
      rw [hclamp, hout]; rfl
    case isFalse hhigh =>
      have hclamp : clamp x = x := by unfold clamp; omega
      have hout : outOfRange x = false := decide_eq_false (by omega)
      rw [hclamp, hout]

theorem toInt_ofInt_clamp (x : Int) : (BitVec.ofInt 32 (clamp x)).toInt = clamp x :=
  toInt_ofInt_of_fits (outOfRange_eq_false_iff.mpr (by unfold clamp; omega))

/-! The products -/

/-- The model's half is the one of the statements. -/
theorem half_eq_signedHalf (v : Word) (top : Bool) : half v top = signedHalf v top := rfl

theorem signedHalf_bounds (v : Word) (top : Bool) : -(2 ^ 15) ≤ signedHalf v top ∧ signedHalf v top < 2 ^ 15 := by
  cases top with
  | false => exact ⟨BitVec.le_toInt _, BitVec.toInt_lt⟩
  | true => exact ⟨BitVec.le_toInt _, BitVec.toInt_lt⟩

/-- Bits 47 to 16 are the number divided by 2^16 and rounded down. -/
theorem extractLsb'_ofInt_48 (z : Int) : (BitVec.ofInt 48 z).extractLsb' 16 32 = BitVec.ofInt 32 (z / 2 ^ 16) := by
  apply BitVec.eq_of_toNat_eq
  rw [BitVec.extractLsb'_toNat, BitVec.toNat_ofInt, BitVec.toNat_ofInt, Nat.shiftRight_eq_div_pow]
  omega

theorem wideProduct_eq (m v : Word) (y : Bool) :
    wideProduct m v y = BitVec.ofInt 32 (m.toInt * signedHalf v y / 2 ^ 16) :=
  extractLsb'_ofInt_48 _

/-- A word times a half has at most 48 bits, so that its upper 32 bits lose nothing. -/
theorem outOfRange_wideProduct (m v : Word) (y : Bool) :
    outOfRange (m.toInt * signedHalf v y / 2 ^ 16) = false := by
  have hm : |m.toInt| ≤ 2 ^ 31 := abs_le.mpr ⟨m.le_toInt, m.toInt_lt.le⟩
  obtain ⟨hlow, hhigh⟩ := signedHalf_bounds v y
  have hv : |signedHalf v y| ≤ 2 ^ 15 := abs_le.mpr ⟨hlow, hhigh.le⟩
  have hproduct : |m.toInt * signedHalf v y| ≤ 2 ^ 31 * 2 ^ 15 := by
    rw [abs_mul]
    exact mul_le_mul hm hv (abs_nonneg _) (by decide)
  rw [abs_le] at hproduct
  exact outOfRange_eq_false_iff.mpr (by omega)

theorem toInt_wideProduct (m v : Word) (y : Bool) :
    (wideProduct m v y).toInt = m.toInt * signedHalf v y / 2 ^ 16 := by
  rw [wideProduct_eq, toInt_ofInt_of_fits (outOfRange_wideProduct m v y)]

theorem ofInt_add_pair (x : Int) (p : BitVec 64) : BitVec.ofInt 64 x + p = BitVec.ofInt 64 (x + p.toInt) := by
  rw [BitVec.ofInt_add, BitVec.ofInt_toInt]

/-! The end of an instruction that writes `Rd` and may set Q -/

theorem frame_orQ {s t : State} {ks : List (BitVec 5)} {stored : Nat → Prop} (h : Frame s t ks stored) (q : Bool) :
    Frame s (t.orQ q) ks stored := by
  cases q with
  | false => exact h
  | true => exact { h with }

theorem orQ_thumb (s : State) (q : Bool) : (s.orQ q).thumb = s.thumb := by
  cases q with
  | false => rfl
  | true => simp [State.thumb]

theorem orQ_nextPc (s : State) (q : Bool) : (s.orQ q).nextPc = s.nextPc := by
  simp only [State.nextPc, orQ_thumb, State.orQ_pc]

theorem writes_of_dspFinish {i : Instr} {s : State} {rd : Reg} {v : Word} {q : Bool}
    (h : exec i s = dspFinish s rd v q) : Writes i s rd v (withQ s.cpsr q) := by
  have hframe : Frame s (s.setReg rd v) [phys s rd] noBytes := frame_setReg (frame_refl ..) v (by simp)
  have hvalue : ((s.setReg rd v).orQ q).advance.regIn s.mode rd = v := by
    cases q <;> exact regIn_setReg_self s rd v
  exact ⟨_, h, hvalue, State.orQ_cpsr _ q, orQ_nextPc _ q, frame_advance (frame_orQ hframe q)⟩

/-! The instructions whose condition passed, on the operands that they allow -/

section
variable {cond : Cond} {s : State} {rd rn rs rm : Reg} (x y : Bool) (hc : condPassed cond s = true)
  (hd : rd ≠ 15) (hm : rm ≠ 15)
include hc hd hm

theorem exec_smulXY_passed (hs : rs ≠ 15) : exec (.smulXY cond rd 0 rs y x rm) s =
    dspFinish s rd (BitVec.ofInt 32 (signedHalf (s.reg rm) x * signedHalf (s.reg rs) y)) false := by
  simp only [exec_smulXY, execSmulXY, whenCond_passed hc, bne_iff_ne.mpr hd, bne_iff_ne.mpr hs, bne_iff_ne.mpr hm,
    beq_self_eq_true, Bool.and_self, orRefuse_true, half_eq_signedHalf]

theorem exec_smulwY_passed (hs : rs ≠ 15) : exec (.smulwY cond rd 0 rs y rm) s =
    dspFinish s rd (BitVec.ofInt 32 ((s.reg rm).toInt * signedHalf (s.reg rs) y / 2 ^ 16)) false := by
  simp only [exec_smulwY, execSmulwY, whenCond_passed hc, bne_iff_ne.mpr hd, bne_iff_ne.mpr hs, bne_iff_ne.mpr hm,
    beq_self_eq_true, Bool.and_self, orRefuse_true, wideProduct_eq]

theorem exec_smlalXY_overlap (hs : rs ≠ 15) :
    exec (.smlalXY cond rd rd rs y x rm) s = .refused .registerOverlap := by
  simp only [exec_smlalXY, execSmlalXY, whenCond_passed hc, bne_iff_ne.mpr hd, bne_iff_ne.mpr hs,
    bne_iff_ne.mpr hm, bne_self_eq_false, Bool.and_self, orRefuse_true, orRefuse_false]

variable (hn : rn ≠ 15)
include hn

theorem exec_smlaXY_passed (hs : rs ≠ 15) :
    let sum := signedHalf (s.reg rm) x * signedHalf (s.reg rs) y + (s.reg rn).toInt
    exec (.smlaXY cond rd rn rs y x rm) s = dspFinish s rd (BitVec.ofInt 32 sum) (outOfRange sum) := by
  simp only [exec_smlaXY, execSmlaXY, whenCond_passed hc, bne_iff_ne.mpr hd, bne_iff_ne.mpr hn, bne_iff_ne.mpr hs,
    bne_iff_ne.mpr hm, Bool.and_self, orRefuse_true, half_eq_signedHalf, wrapAdd_eq]

theorem exec_smlawY_passed (hs : rs ≠ 15) :
    let sum := (s.reg rm).toInt * signedHalf (s.reg rs) y / 2 ^ 16 + (s.reg rn).toInt
    exec (.smlawY cond rd rn rs y rm) s = dspFinish s rd (BitVec.ofInt 32 sum) (outOfRange sum) := by
  simp only [exec_smlawY, execSmlawY, whenCond_passed hc, bne_iff_ne.mpr hd, bne_iff_ne.mpr hn, bne_iff_ne.mpr hs,
    bne_iff_ne.mpr hm, Bool.and_self, orRefuse_true, toInt_wideProduct, wrapAdd_eq]

theorem exec_smlalXY_passed (hs : rs ≠ 15) (hne : rd ≠ rn) : exec (.smlalXY cond rd rn rs y x rm) s =
    mulLongFinish s false rd rn (BitVec.ofInt 64
      (signedHalf (s.reg rm) x * signedHalf (s.reg rs) y + (pairOf s rd rn).toInt)) := by
  simp only [exec_smlalXY, execSmlalXY, whenCond_passed hc, bne_iff_ne.mpr hd, bne_iff_ne.mpr hn, bne_iff_ne.mpr hs,
    bne_iff_ne.mpr hm, bne_iff_ne.mpr hne, Bool.and_self, orRefuse_true, half_eq_signedHalf, ofInt_add_pair,
    pair_eq_pairOf]

theorem exec_qadd_passed :
    let sum := (s.reg rm).toInt + (s.reg rn).toInt
    exec (.qadd cond rn rd 0 rm) s = dspFinish s rd (BitVec.ofInt 32 (clamp sum)) (outOfRange sum) := by
  simp only [exec_qadd, execQadd, whenCond_passed hc, bne_iff_ne.mpr hd, bne_iff_ne.mpr hn, bne_iff_ne.mpr hm,
    beq_self_eq_true, Bool.and_self, orRefuse_true, signedSat_eq]

theorem exec_qsub_passed :
    let difference := (s.reg rm).toInt - (s.reg rn).toInt
    exec (.qsub cond rn rd 0 rm) s = dspFinish s rd (BitVec.ofInt 32 (clamp difference)) (outOfRange difference) := by
  simp only [exec_qsub, execQsub, whenCond_passed hc, bne_iff_ne.mpr hd, bne_iff_ne.mpr hn, bne_iff_ne.mpr hm,
    beq_self_eq_true, Bool.and_self, orRefuse_true, signedSat_eq]

theorem exec_qdadd_passed :
    let double := 2 * (s.reg rn).toInt
    let sum := (s.reg rm).toInt + clamp double
    exec (.qdadd cond rn rd 0 rm) s =
      dspFinish s rd (BitVec.ofInt 32 (clamp sum)) (outOfRange double || outOfRange sum) := by
  simp only [exec_qdadd, execQdadd, whenCond_passed hc, bne_iff_ne.mpr hd, bne_iff_ne.mpr hn, bne_iff_ne.mpr hm,
    beq_self_eq_true, Bool.and_self, orRefuse_true, signedSat_eq, toInt_ofInt_clamp]

theorem exec_qdsub_passed :
    let double := 2 * (s.reg rn).toInt
    let difference := (s.reg rm).toInt - clamp double
    exec (.qdsub cond rn rd 0 rm) s =
      dspFinish s rd (BitVec.ofInt 32 (clamp difference)) (outOfRange double || outOfRange difference) := by
  simp only [exec_qdsub, execQdsub, whenCond_passed hc, bne_iff_ne.mpr hd, bne_iff_ne.mpr hn, bne_iff_ne.mpr hm,
    beq_self_eq_true, Bool.and_self, orRefuse_true, signedSat_eq, toInt_ofInt_clamp]

end

/-- Settles O14: the forms of one register end in `dspFinish`, SMLALxy in `mulLongFinish`; the product of a word and a half
fits in the 48 bits of which SMULWy and SMLAWy take the upper 32. -/
theorem halfwordMultiplyResult : Obligations.HalfwordMultiplyResult := by
  unfold Obligations.HalfwordMultiplyResult
  intro cond rd rn rs rm x y s word
  -- The model writes bits 5 and 4 of SMULWy and SMLAWy as one field.
  have hword (op : BitVec 8) (z : BitVec 4) (b : Bool) : word op z b =
      .arm (cond.bits ++ op ++ rd ++ z ++ rs ++ (1 : BitVec 1) ++ BitVec.ofBool y ++
        (BitVec.ofBool b ++ (0 : BitVec 1)) ++ rm) :=
    congrArg (fun w => Code.arm (w ++ rm)) BitVec.append_assoc
  refine ⟨?smul, ?smla, ?smulw, ?smlaw, ?smlal, ?results⟩
  case results =>
    intro hc hd hn hs hm p w n
    refine ⟨?_, ?_, ?_, ?_, fun hne => ?_, fun heq => ?_⟩
    · exact writes_of_dspFinish (exec_smulXY_passed x y hc hd hm hs)
    · exact writes_of_dspFinish (exec_smlaXY_passed x y hc hd hm hn hs)
    · exact writes_of_dspFinish (exec_smulwY_passed y hc hd hm hs)
    · exact writes_of_dspFinish (exec_smlawY_passed y hc hd hm hn hs)
    · exact computesPair_of_mulLongFinish (exec_smlalXY_passed x y hc hd hm hn hs hne) hd hn hne
    · exact heq ▸ exec_smlalXY_overlap x y hc hd hm hs
  case' smulw | smlaw =>
    rw [hword]
  all_goals
    simp only [encode, putBit, put_zero, put_setWidth, BitVec.setWidth_eq]
    rfl

/-- Settles O15: each form is `signedSat` of its sum or difference, that of the doubling inside it. -/
theorem saturatingResult : Obligations.SaturatingResult := by
  unfold Obligations.SaturatingResult
  intro cond rn rd rm s m n word
  refine ⟨?_, ?_, ?_, ?_, ?results⟩
  case results =>
    intro hc hn hd hm
    refine ⟨?_, ?_, ?_, ?_⟩
    · exact writes_of_dspFinish (exec_qadd_passed hc hd hm hn)
    · exact writes_of_dspFinish (exec_qsub_passed hc hd hm hn)
    · exact writes_of_dspFinish (exec_qdadd_passed hc hd hm hn)
    · exact writes_of_dspFinish (exec_qdsub_passed hc hd hm hn)
  all_goals
    simp only [encode, put_zero, put_setWidth, BitVec.setWidth_eq]
    -- The model writes the byte 0x05 as two fields.
    exact congrArg (fun w => Code.arm (w ++ rm)) BitVec.append_assoc

end Sys2Proof.Dsp

/-!
PROOF. The Thumb data processing: additions, comparisons, logical operations and shifts, and the forms that reach the high
registers (`41_dsp_thumb` R671 to R700, R720 to R723).
-/
namespace Sys2Proof.ThumbData

open Sys2Proof Sys2Proof.Machine Sys2Proof.Spec Sys2Proof.ArmBase Sys2Proof.Dsp

/-! Sums and differences in plain numbers -/

theorem carryNat_eq_toNat (c : Bool) : carryNat c = c.toNat := by cases c <;> rfl

/-- The bits of a sum are those of the sum of the signed numbers. -/
theorem ofNat_add_eq_ofInt (a b : Word) (k : Nat) :
    BitVec.ofNat 32 (a.toNat + b.toNat + k) = BitVec.ofInt 32 (a.toInt + b.toInt + k) := by
  simp [BitVec.ofNat_add, BitVec.ofInt_add]

theorem sum_eq_of_fields {r t : Machine.Sum} (hvalue : r.value = t.value) (hcarry : r.carry = t.carry)
    (hoverflow : r.overflow = t.overflow) : r = t := by
  cases r
  cases t
  cases hvalue
  cases hcarry
  cases hoverflow
  rfl

theorem addWithCarry_eq_plus (a b : Word) (c : Bool) : addWithCarry a b c = plus a b c := by
  apply sum_eq_of_fields
  case hvalue => exact addWithCarry_value a b c
  case hcarry => simp only [addWithCarry, plus, carryNat_eq_toNat]
  case hoverflow => simp only [addWithCarry, plus, ofNat_add_eq_ofInt, ne_toInt_ofInt, carryNat_eq_toNat]

theorem toInt_not_eq (b : Word) : (~~~b).toInt = -b.toInt - 1 := by
  have hb : b.toNat < 2 ^ 32 := b.isLt
  simp only [BitVec.toInt_eq_toNat_cond, BitVec.toNat_not]
  omega

theorem bool_toNat_not (c : Bool) : (!c).toNat = 1 - c.toNat := by cases c <;> rfl

/-- Subtraction is the addition of the complement, the carry in being the absence of a borrow. -/
theorem plus_not_eq_minus (a b : Word) (borrow : Bool) : plus a (~~~b) (!borrow) = minus a b borrow := by
  have hb : b.toNat < 2 ^ 32 := b.isLt
  have hborrow : borrow.toNat ≤ 1 := Bool.toNat_le borrow
  apply sum_eq_of_fields
  case hvalue =>
    cases borrow with
    | false =>
      calc a + ~~~b + 1#32 = a - b := by rw [BitVec.add_assoc, ← BitVec.neg_eq_not_add, BitVec.sub_eq_add_neg]
        _ = a - b - 0#32 := (BitVec.sub_zero _).symm
    | true =>
      calc a + ~~~b + 0#32 = a + (-b - 1#32) := by rw [BitVec.add_zero, BitVec.not_eq_neg_add]
        _ = a - b - 1#32 := by simp only [BitVec.sub_eq_add_neg, BitVec.add_assoc]
  case hcarry =>
    refine decide_eq_decide.mpr ?_
    rw [BitVec.toNat_not, bool_toNat_not]
    omega
  case hoverflow =>
    refine congrArg outOfRange ?_
    rw [toInt_not_eq, bool_toNat_not]
    omega

theorem addWithCarry_not_eq_minus (a b : Word) (borrow : Bool) :
    addWithCarry a (~~~b) (!borrow) = minus a b borrow := by
  rw [addWithCarry_eq_plus, plus_not_eq_minus]

/-! Immediates -/

theorem scaled_zero {w : Nat} (imm : BitVec w) : scaled imm 0 = imm.setWidth 32 := BitVec.shiftLeft_zero _

theorem scaled_two {w : Nat} (imm : BitVec w) : scaled imm 2 = imm.setWidth 32 * 4 := by
  rw [scaled, BitVec.shiftLeft_eq_mul_twoPow]
  rfl

/-! The shifter -/

/-- A shift right by a full word or more, the sign coming in, leaves the sign alone. -/
theorem sshiftRight_of_ge {v : Word} {n : Nat} (h : 32 ≤ n) :
    v.sshiftRight n = if v.msb then 0xFFFFFFFF else 0 := by
  have hones : (0xFFFFFFFF : Word) = BitVec.allOnes 32 := by decide
  ext i hi
  rw [hones, BitVec.getElem_sshiftRight, dif_neg (by omega)]
  cases v.msb with
  | false => exact (BitVec.getElem_zero hi).symm
  | true => exact (BitVec.getElem_allOnes i hi).symm

theorem rotateRight_of_mod_eq_zero {v : Word} {n : Nat} (h : n % 32 = 0) : v.rotateRight n = v := by
  ext i hi
  simp [BitVec.getElem_rotateRight, h, hi]

/-- The carry out of a rotation is the bit that it brings to the top. -/
theorem msb_rotateRight_of_mod_ne_zero {v : Word} {n : Nat} (h : n % 32 ≠ 0) :
    (v.rotateRight n).msb = v.getLsbD (n % 32 - 1) := by
  have hlt : n % 32 < 32 := Nat.mod_lt _ (by decide)
  rw [BitVec.msb_rotateRight, BitVec.getMsbD_eq_getLsbD, Nat.mod_eq_of_lt (by omega), decide_eq_true (by omega),
    Bool.true_and]
  congr 1
  omega

section
variable (v : Word) (c : Bool)

/-- Each kind of shift by an immediate; in a shift right 0 stands for 32 (`41_dsp_thumb` R671 to R673). -/
theorem shiftByImm_lsl (n : BitVec 5) : shiftByImm v 0 n c = shifted 0 v n.toNat c := by
  have hlt : n.toNat < 32 := n.isLt
  by_cases h : n = 0#5
  · simp [shiftByImm, shifted, h]
  · have hne : n.toNat ≠ 0 := fun e => h (BitVec.eq_of_toNat_eq e)
    simp [shiftByImm, shifted, h, hne, hlt.le]

theorem shiftByImm_lsr (n : BitVec 5) :
    shiftByImm v 1 n c = shifted 1 v (if n = 0 then 32 else n.toNat) c := by
  by_cases h : n = 0#5
  · simp [shiftByImm, shifted, h, BitVec.msb_eq_getLsbD_last, BitVec.ushiftRight_eq_zero]
  · have hne : n.toNat ≠ 0 := fun e => h (BitVec.eq_of_toNat_eq e)
    simp [shiftByImm, shifted, h, hne]

theorem shiftByImm_asr (n : BitVec 5) :
    shiftByImm v 2 n c = shifted 2 v (if n = 0 then 32 else n.toNat) c := by
  have hlt : n.toNat < 32 := n.isLt
  by_cases h : n = 0#5
  · simp [shiftByImm, shifted, h, BitVec.msb_eq_getLsbD_last, sshiftRight_of_ge]
  · have hne : n.toNat ≠ 0 := fun e => h (BitVec.eq_of_toNat_eq e)
    have hmin : min (n.toNat - 1) 31 = n.toNat - 1 := by omega
    simp [shiftByImm, shifted, h, hne, hmin]

/-- Each kind of shift by a register: nothing moves, less than a word is shifted out, or all of it. -/
theorem shiftByReg_lsl (n : BitVec 8) : shiftByReg v 0 n c = shifted 0 v n.toNat c := by
  by_cases h : n.toNat = 0
  · simp [shiftByReg, shifted, h]
  by_cases hlt : n.toNat < 32
  · simp [shiftByReg, shifted, h, hlt, hlt.le]
  · have hvalue : v <<< n.toNat = 0 := BitVec.shiftLeft_eq_zero (by omega)
    have hcarry : (n.toNat == 32 && v.getLsbD 0) = (decide (n.toNat ≤ 32) && v.getLsbD (32 - n.toNat)) := by
      by_cases h32 : n.toNat = 32
      · simp [h32]
      · have hgt : ¬ n.toNat ≤ 32 := by omega
        simp [h32, hgt]
    simp only [shiftByReg, shifted, h, hlt, if_true, if_false, hvalue, hcarry]

theorem shiftByReg_lsr (n : BitVec 8) : shiftByReg v 1 n c = shifted 1 v n.toNat c := by
  by_cases h : n.toNat = 0
  · simp [shiftByReg, shifted, h]
  by_cases hlt : n.toNat < 32
  · simp [shiftByReg, shifted, h, hlt]
  · have hvalue : v >>> n.toNat = 0 := BitVec.ushiftRight_eq_zero (by omega)
    have hcarry : (n.toNat == 32 && v.msb) = v.getLsbD (n.toNat - 1) := by
      by_cases h32 : n.toNat = 32
      · simp [h32, BitVec.msb_eq_getLsbD_last]
      · have hge : 32 ≤ n.toNat - 1 := by omega
        simp [h32, BitVec.getLsbD_of_ge v _ hge]
    simp [shiftByReg, shifted, h, hlt, hvalue, hcarry]

theorem shiftByReg_asr (n : BitVec 8) : shiftByReg v 2 n c = shifted 2 v n.toNat c := by
  by_cases h : n.toNat = 0
  · simp [shiftByReg, shifted, h]
  by_cases hlt : n.toNat < 32
  · have hmin : min (n.toNat - 1) 31 = n.toNat - 1 := by omega
    simp [shiftByReg, shifted, h, hlt, hmin]
  · have hmin : min (n.toNat - 1) 31 = 31 := by omega
    simp [shiftByReg, shifted, h, hlt, hmin, sshiftRight_of_ge (not_lt.mp hlt), BitVec.msb_eq_getLsbD_last]

theorem shiftByReg_ror (n : BitVec 8) : shiftByReg v 3 n c = shifted 3 v n.toNat c := by
  by_cases h : n.toNat = 0
  · simp [shiftByReg, shifted, h]
  by_cases hmod : n.toNat % 32 = 0
  · simp [shiftByReg, shifted, h, hmod, rotateRight_of_mod_eq_zero]
  · simp [shiftByReg, shifted, h, hmod, BitVec.rotateRight_mod_eq_rotateRight, msb_rotateRight_of_mod_ne_zero,
      -BitVec.msb_rotateRight]

end

/-! The ends of the instructions -/

section
variable {i : Instr} {s : State} {d : BitVec 3}

/-- An instruction that writes `Rd` and then the flags. -/
theorem computes_of_setFlags {rd : Reg} {r : Machine.Sum}
    (h : exec i s = .next ((s.setReg rd r.value).setFlags r.value.msb (r.value == 0) r.carry r.overflow).advance) :
    Computes i s rd true r :=
  ⟨_, h, regIn_setReg_self s rd r.value, setFlags_nextPc ..,
    frame_advance (frame_setFlags (frame_setReg (frame_refl ..) r.value (by simp)) ..), flagsAre_setFlags_advance rfl ..⟩

theorem computes_of_plus {a b : Word} {c : Bool} (h : exec i s = thumbSum s d (addWithCarry a b c)) :
    Computes i s (low d) true (plus a b c) := by
  rw [addWithCarry_eq_plus] at h
  exact computes_of_setFlags h

theorem computes_of_minus {a b : Word} {borrow : Bool}
    (h : exec i s = thumbSum s d (addWithCarry a (~~~b) (!borrow))) :
    Computes i s (low d) true (minus a b borrow) := by
  rw [addWithCarry_not_eq_minus] at h
  exact computes_of_setFlags h

theorem computes_of_thumbLogic {r : Word} (h : exec i s = thumbLogic s d r) :
    Computes i s (low d) true { value := r, carry := s.flagC, overflow := s.flagV } :=
  computes_of_setFlags h

theorem computes_of_thumbShift {r : Shifted} (h : exec i s = thumbShift s d r) :
    Computes i s (low d) true { value := r.value, carry := r.carry, overflow := s.flagV } :=
  computes_of_setFlags h

/-- An instruction that only writes the flags. -/
theorem compares_of_dpCompare {r : Machine.Sum} (h : exec i s = dpCompare s r) : Compares i s r :=
  ⟨_, h, setFlags_nextPc .., frame_advance (frame_setFlags (frame_refl ..) ..), flagsAre_setFlags_advance rfl ..⟩

theorem compares_of_plus {a b : Word} {c : Bool} (h : exec i s = dpCompare s (addWithCarry a b c)) :
    Compares i s (plus a b c) :=
  compares_of_dpCompare (addWithCarry_eq_plus a b c ▸ h)

theorem compares_of_minus {a b : Word} {borrow : Bool}
    (h : exec i s = dpCompare s (addWithCarry a (~~~b) (!borrow))) : Compares i s (minus a b borrow) :=
  compares_of_dpCompare (addWithCarry_not_eq_minus a b borrow ▸ h)

end

/-! The obligations of the low registers -/

/-- Settles O39: every form is a sum, or the sum with the complement, of the model's `addWithCarry`. -/
theorem thumbArithmetic : Obligations.ThumbArithmetic := by
  unfold Obligations.ThumbArithmetic
  intro a b d imm3 imm8 s
  refine ⟨computes_of_plus rfl, computes_of_minus rfl, computes_of_plus ?addImm3, computes_of_minus ?subImm3,
    computes_of_plus ?addImm8, computes_of_minus ?subImm8, computes_of_plus rfl, computes_of_minus ?sbc,
    computes_of_minus rfl, compares_of_minus ?cmpImm, compares_of_minus rfl, compares_of_plus rfl,
    ?_, ?_, ?_, ?_, ?_, ?_, ?_, ?_, ?_, ?_, ?_, ?_⟩
  case addImm3 => rw [exec_tAddImm3, execTAddImm3, scaled_zero]
  case subImm3 => rw [exec_tSubImm3, execTSubImm3, scaled_zero, Bool.not_false]
  case addImm8 => rw [exec_tAddImm8, execTAddImm8, scaled_zero]
  case subImm8 => rw [exec_tSubImm8, execTSubImm8, scaled_zero, Bool.not_false]
  case sbc => rw [exec_tSbc, execTSbc, Bool.not_not]
  case cmpImm => rw [exec_tCmpImm, execTCmpImm, scaled_zero, Bool.not_false]
  all_goals
    simp only [encode, put_zero, put_setWidth, BitVec.setWidth_eq]
    rfl

/-- Settles O40: every form ends in `thumbLogic`, or in `thumbShift` with the shifter of the spec. -/
theorem thumbLogic : Obligations.ThumbLogic := by
  unfold Obligations.ThumbLogic
  intro b d imm5 imm8 s x y res shift right
  have hbyte : y.toNat % 256 = (y.setWidth 8).toNat := (BitVec.toNat_setWidth 8 y).symm
  rw [hbyte]
  simp only [x, y, res, shift, right, ← shiftByImm_lsl, ← shiftByImm_lsr, ← shiftByImm_asr, ← shiftByReg_lsl,
    ← shiftByReg_lsr, ← shiftByReg_asr, ← shiftByReg_ror]
  refine ⟨computes_of_thumbLogic rfl, computes_of_thumbLogic rfl, computes_of_thumbLogic rfl,
    computes_of_thumbLogic rfl, computes_of_thumbLogic rfl, computes_of_thumbLogic ?mul,
    computes_of_thumbLogic ?mov, compares_of_dpCompare rfl, computes_of_thumbShift rfl, computes_of_thumbShift rfl,
    computes_of_thumbShift rfl, computes_of_thumbShift rfl, computes_of_thumbShift rfl, computes_of_thumbShift rfl,
    computes_of_thumbShift rfl,
    ?_, ?_, ?_, ?_, ?_, ?_, ?_, ?_, ?_, ?_, ?_, ?_, ?_, ?_, ?_⟩
  case mul => rw [exec_tMul, execTMul, BitVec.mul_comm]
  case mov => rw [exec_tMovImm, execTMovImm, scaled_zero]
  all_goals
    simp only [encode, put_zero, put_setWidth, BitVec.setWidth_eq]
    rfl

/-! The high registers -/

section
variable {i : Instr} {s : State} {n : Reg} {v : Word}

theorem writes_of_thumbHigh (h : exec i s = thumbHigh s n v) (hn : n ≠ 15) : Writes i s n v s.cpsr := by
  rw [thumbHigh, if_neg hn] at h
  exact writes_of_setReg h

/-- A result for R15 is a branch that stays in Thumb state. -/
theorem jumps_of_thumbHigh (h : exec i s = thumbHigh s n v) (hn : n = 15) (hthumb : s.thumb = true) :
    Gives i s fun t => t.pc = v &&& ~~~1 ∧ t.cpsr = s.cpsr ∧ Frame s t [] noBytes := by
  rw [thumbHigh, if_pos hn, State.writePc, if_pos hthumb] at h
  exact ⟨_, h, rfl, rfl, frame_branchIndirect (frame_refl ..) _⟩

end

section
variable {h1 h2 : Bool} (m d : BitVec 3) (s : State) (hhigh : (h1 || h2) = true)
include hhigh

theorem exec_tAddHigh_allowed : exec (.tAddHigh h1 h2 m d) s =
    thumbHigh s (high h1 d) (s.reg (high h1 d) + s.reg (high h2 m)) := by
  rw [exec_tAddHigh, execTAddHigh, hhigh, orRefuse_true]

theorem exec_tCmpHigh_allowed (hn : high h1 d ≠ 15) : exec (.tCmpHigh h1 h2 m d) s =
    dpCompare s (addWithCarry (s.reg (high h1 d)) (~~~(s.reg (high h2 m))) true) := by
  rw [exec_tCmpHigh, execTCmpHigh, hhigh, bne_iff_ne.mpr hn, orRefuse_true, orRefuse_true]

theorem exec_tCmpHigh_pcOperand (hn : high h1 d = 15) : exec (.tCmpHigh h1 h2 m d) s = .refused .pcOperand := by
  rw [exec_tCmpHigh, execTCmpHigh, hhigh, hn, bne_self_eq_false, orRefuse_true, orRefuse_false]

end

/-- Settles O41: ADD(4) and MOV(3) end in `thumbHigh`, which branches on R15; the address sums write one register. -/
theorem thumbHighRegisters : Obligations.ThumbHighRegisters := by
  unfold Obligations.ThumbHighRegisters
  intro h1 h2 m d imm8 imm7 s n y jumps
  have hmov : exec (.tMovHigh h1 h2 m d) s = thumbHigh s n y := rfl
  refine ⟨fun hhigh => ⟨fun hn => ⟨?add, ?cmp⟩, ?addPc⟩, writes_of_thumbHigh hmov, jumps_of_thumbHigh hmov,
    writes_of_setReg ?pcSum, writes_of_setReg ?spSum, writes_of_setReg ?incSp, writes_of_setReg ?decSp,
    rfl, rfl, exec_tCmpHigh_pcOperand m d s, ?_, ?_, ?_, ?_, ?_, ?_, ?_⟩
  case add => exact writes_of_thumbHigh (exec_tAddHigh_allowed m d s hhigh) hn
  case cmp => exact compares_of_minus (exec_tCmpHigh_allowed m d s hhigh hn)
  case addPc =>
    intro hn
    have hadd : exec (.tAddHigh h1 h2 m d) s = thumbHigh s n (s.reg n + y) := exec_tAddHigh_allowed m d s hhigh
    exact jumps_of_thumbHigh (hn ▸ hadd) rfl
  case pcSum => rw [exec_tAddPcImm, execTAddPcImm, scaled_two, State.pcBase]
  case spSum => rw [exec_tAddSpImm, execTAddSpImm, scaled_two]
  case incSp => rw [exec_tIncSp, execTIncSp, scaled_two]
  case decSp => rw [exec_tDecSp, execTDecSp, scaled_two]
  all_goals
    simp only [encode, putBit, put_zero, put_setWidth, BitVec.setWidth_eq]
    rfl

end Sys2Proof.ThumbData

/-! PROOF. Fields and bits of code words: the two round trips of the decoder. -/
namespace Sys2Proof.Coding

open Sys2Proof

/-! Words compared field by field -/

/-- The low `m` bits of `x` are the bits of `w` from `s` on. -/
def Agrees {n : Nat} (m : Nat) (x : BitVec n) (s : Nat) (w : BitVec n) : Prop :=
  ∀ i < m, x.getLsbD i = w.getLsbD (s + i)

/-- Words that agree on all their bits are equal. -/
theorem eq_of_agrees {n : Nat} {x w : BitVec n} (h : Agrees n x 0 w) : x = w := by
  apply BitVec.eq_of_getLsbD_eq
  intro i hi
  simpa using h i hi

@[simp] theorem agrees_zero {n : Nat} (x : BitVec n) (s : Nat) (w : BitVec n) : Agrees 0 x s w :=
  fun i hi => absurd hi (by omega)

/-- A word whose lowest field is `y` agrees with `w` when `y` is the field of `w` and the rest agrees above it. -/
@[simp] theorem agrees_put {n k m : Nat} (y : BitVec k) (x : BitVec n) (s : Nat) (w : BitVec n) (hk : k ≤ m) (hm : m ≤ n) :
    Agrees m (put y x) s w ↔ w.extractLsb' s k = y ∧ Agrees (m - k) x (s + k) w := by
  constructor
  · intro h
    constructor
    · ext i hi
      have := h i (by omega)
      rw [put_get_lo y x i hi (by omega)] at this
      simpa [hi] using this.symm
    · intro i hi
      have := h (i + k) (by omega)
      rw [put_get_hi y x _ (by omega) (by omega)] at this
      simpa [Nat.add_assoc, Nat.add_comm, Nat.add_left_comm] using this
  · rintro ⟨rfl, h⟩ i hi
    by_cases hik : i < k
    · rw [put_get_lo _ x i hik (by omega)]; simp [hik]
    · rw [put_get_hi _ x i (by omega) (by omega), h (i - k) (by omega)]
      congr 1; omega

/-- A field is known when its bits are: its lowest bit and the field above it. -/
theorem extract_eq_iff {n k : Nat} (w : BitVec n) (s : Nat) (c : BitVec (k + 1)) :
    w.extractLsb' s (k + 1) = c ↔ w.getLsbD s = c.getLsbD 0 ∧ w.extractLsb' (s + 1) k = c.extractLsb' 1 k := by
  constructor
  · rintro rfl
    refine ⟨by simp, ?_⟩
    ext i hi; simp [Nat.add_assoc, show 1 + i ≤ k by omega]
  · rintro ⟨h0, h1⟩
    apply BitVec.eq_of_getLsbD_eq
    intro i hi
    cases i with
    | zero => simpa using h0
    | succ i =>
      have := congrArg (fun v => v.getLsbD i) h1
      simpa [Nat.add_assoc, Nat.add_comm, Nat.add_left_comm, hi, show i < k by omega] using this

@[simp] theorem extract_none_iff {n : Nat} (w : BitVec n) (s : Nat) (c : BitVec 0) : w.extractLsb' s 0 = c ↔ True := by
  simp [eq_iff_true_of_subsingleton]

theorem extract_one {n : Nat} (w : BitVec n) (s : Nat) : w.extractLsb' s 1 = BitVec.ofBool (w.getLsbD s) := by
  simp [extract_eq_iff]

@[simp] theorem agrees_putBit {n m : Nat} (b : Bool) (x : BitVec n) (s : Nat) (w : BitVec n) (h1 : 1 ≤ m) (hm : m ≤ n) :
    Agrees m (putBit b x) s w ↔ w.getLsbD s = b ∧ Agrees (m - 1) x (s + 1) w := by
  rw [putBit, agrees_put _ _ _ _ h1 hm, extract_eq_iff, extract_none_iff]
  simp

theorem getLsbD_extract {n : Nat} (w : BitVec n) (s k i : Nat) (h : i < k) :
    (w.extractLsb' s k).getLsbD i = w.getLsbD (s + i) := by simp [h]

theorem append_eq_append_iff {m n : Nat} (a a' : BitVec m) (b b' : BitVec n) : a ++ b = a' ++ b' ↔ a = a' ∧ b = b' := by
  constructor
  · intro h
    exact ⟨by simpa [BitVec.extractLsb'_append_eq_left] using congrArg (fun v => v.extractLsb' n m) h,
      by simpa [BitVec.extractLsb'_append_eq_right] using congrArg (fun v => v.extractLsb' 0 n) h⟩
  · rintro ⟨rfl, rfl⟩; rfl

theorem cpKey_eq_iff (a a' : BitVec 3) (b b' c c' : BitVec 4) (d d' : BitVec 3) :
    cpKey a b c d = cpKey a' b' c' d' ↔ a = a' ∧ b = b' ∧ c = c' ∧ d = d' := by
  have h3 := append_eq_append_iff (m := 11) (n := 3) (a ++ b ++ c) (a' ++ b' ++ c') d d'
  have h2 := append_eq_append_iff (m := 7) (n := 4) (a ++ b) (a' ++ b') c c'
  rw [cpKey, cpKey, h3, h2, append_eq_append_iff (m := 3) (n := 4), and_assoc, and_assoc]

theorem nibble_cases (b : BitVec 4) : b = 0 ∨ b = 1 ∨ b = 2 ∨ b = 3 ∨ b = 4 ∨ b = 5 ∨ b = 6 ∨ b = 7 ∨ b = 8 ∨ b = 9 ∨
    b = 10 ∨ b = 11 ∨ b = 12 ∨ b = 13 ∨ b = 14 ∨ b = 15 := by revert b; decide

theorem octal_cases (b : BitVec 3) : b = 0 ∨ b = 1 ∨ b = 2 ∨ b = 3 ∨ b = 4 ∨ b = 5 ∨ b = 6 ∨ b = 7 := by revert b; decide

/-! Every code stands for an instruction: the decoder's answer is well-formed and encodes to the code -/

/-- The instruction is well-formed and encodes to the code. -/
def StandsFor (i : Instr) (c : Code) : Prop := i.wellFormed = true ∧ encode i = c

theorem standsFor_arm {i : Instr} {x w : Word} (hi : i.wellFormed = true) (he : encode i = .arm x)
    (h : Agrees 32 x 0 w) : StandsFor i (.arm w) := ⟨hi, he.trans (congrArg Code.arm (eq_of_agrees h))⟩

theorem standsFor_thumb {i : Instr} {x w : Half} (hi : i.wellFormed = true) (he : encode i = .thumb x)
    (h : Agrees 16 x 0 w) : StandsFor i (.thumb w) := ⟨hi, he.trans (congrArg Code.thumb (eq_of_agrees h))⟩

section Arm

variable {cond : Cond} {w : Word}


/-! What the well-formed terms of a row with words of higher priority are -/

variable {cond : Cond}

theorem wellFormed_undefUncond (raw : BitVec 28) : (Instr.undefUncond raw).wellFormed = !isUncond raw := rfl
theorem wellFormed_undefExt (r1 : BitVec 17) (r2 : BitVec 4) :
    (Instr.undefExt cond r1 r2).wellFormed = !isMulOrSwap r1 := rfl
theorem wellFormed_undefMisc (r1 : BitVec 2) (r2 : BitVec 20) :
    (Instr.undefMisc cond r1 r2).wellFormed = !isMisc r1 (r2.extractLsb' 4 4) := rfl
section
variable (p u n y : Bool) (a b c d e : BitVec 4) (i j : BitVec 3) (off : BitVec 12) (sh : BitVec 5) (k : BitVec 2)
  (off8 : BitVec 8)
theorem wellFormed_ldrImm : (Instr.ldrImm cond p u y a b off).wellFormed = !(!p && y) := rfl
theorem wellFormed_ldrbImm : (Instr.ldrbImm cond p u y a b off).wellFormed = !(!p && y) := rfl
theorem wellFormed_strImm : (Instr.strImm cond p u y a b off).wellFormed = !(!p && y) := rfl
theorem wellFormed_strbImm : (Instr.strbImm cond p u y a b off).wellFormed = !(!p && y) := rfl
theorem wellFormed_ldrReg : (Instr.ldrReg cond p u y a b sh k c).wellFormed = !(!p && y) := rfl
theorem wellFormed_ldrbReg : (Instr.ldrbReg cond p u y a b sh k c).wellFormed = !(!p && y) := rfl
theorem wellFormed_strReg : (Instr.strReg cond p u y a b sh k c).wellFormed = !(!p && y) := rfl
theorem wellFormed_strbReg : (Instr.strbReg cond p u y a b sh k c).wellFormed = !(!p && y) := rfl
theorem wellFormed_mcrr : (Instr.mcrr cond a b c d e).wellFormed = (c != 0) := rfl
theorem wellFormed_mrrc : (Instr.mrrc cond a b c d e).wellFormed = (c != 0) := rfl
theorem wellFormed_ldcP14 : (Instr.ldcP14 cond p u n y a b off8).wellFormed = !isMcrrSpace p u n y := rfl
theorem wellFormed_stcP14 : (Instr.stcP14 cond p u n y a b off8).wellFormed = !isMcrrSpace p u n y := rfl
theorem wellFormed_ldc : (Instr.ldc cond p u n y a b c off8).wellFormed = (!isMcrrSpace p u n y && c != 14) := rfl
theorem wellFormed_stc : (Instr.stc cond p u n y a b c off8).wellFormed = (!isMcrrSpace p u n y && c != 14) := rfl
theorem wellFormed_mcrP15Other : (Instr.mcrP15Other cond i a b j c).wellFormed = !cp15Writes.contains (cpKey i a c j) := rfl
theorem wellFormed_mcrP14Other : (Instr.mcrP14Other cond i a b j c).wellFormed = !cp14Writes.contains (cpKey i a c j) := rfl
theorem wellFormed_mcrP7Other : (Instr.mcrP7Other cond i a b j).wellFormed = !cp7Writes.contains (cpKey i a 2 j) := rfl
theorem wellFormed_mcrP0Other : (Instr.mcrP0Other cond i a b j c).wellFormed = !(i == 1 && miaOpcodes.contains a) := rfl
theorem wellFormed_mcr : (Instr.mcr cond i a b c j d).wellFormed =
    (c != 15 && c != 14 && c != 0 && !(c == 7 && d == 2)) := rfl
theorem wellFormed_mrcP15Other : (Instr.mrcP15Other cond i a b j c).wellFormed = !cp15Reads.contains (cpKey i a c j) := rfl
theorem wellFormed_mrcP14Other : (Instr.mrcP14Other cond i a b j c).wellFormed = !cp14Reads.contains (cpKey i a c j) := rfl
theorem wellFormed_mrcP7Other : (Instr.mrcP7Other cond i a b j).wellFormed = !cp7Reads.contains (cpKey i a 2 j) := rfl
theorem wellFormed_mrc : (Instr.mrc cond i a b c j d).wellFormed =
    (c != 15 && c != 14 && c != 0 && !(c == 7 && d == 2)) := rfl
theorem wellFormed_tUndef1011 (raw : BitVec 12) : (Instr.tUndef1011 raw).wellFormed = !isThumbMisc raw := rfl
theorem wellFormed_tBCond (off : BitVec 8) : (Instr.tBCond cond off).wellFormed = (cond != .al) := rfl
end

theorem decodeDpShImm_standsFor (hc : w.extractLsb' 28 4 = cond.bits) (h1 : w.extractLsb' 25 3 = 0)
    (h4 : w.getLsbD 4 = false) (hm : ¬ (w.getLsbD 24 = true ∧ w.getLsbD 23 = false ∧ w.getLsbD 20 = false)) :
    StandsFor (decodeDpShImm cond w) (.arm w) := by
  rcases nibble_cases (w.extractLsb' 21 4) with h | h | h | h | h | h | h | h | h | h | h | h | h | h | h | h <;>
    simp (disch := decide) only [decodeDpShImm, h, ↓reduceIte, BitVec.reduceEq, BitVec.ofNat_eq_ofNat] <;>
    refine standsFor_arm rfl rfl ?_ <;>
    simp (disch := decide) [hc, extract_eq_iff, -BitVec.getLsbD_eq_getElem] at h h1 ⊢ <;>
    simp_all

theorem decodeDpShReg_standsFor (hc : w.extractLsb' 28 4 = cond.bits) (h1 : w.extractLsb' 25 3 = 0)
    (h4 : w.getLsbD 4 = true) (h7 : w.getLsbD 7 = false) (hm : ¬ (w.getLsbD 24 = true ∧ w.getLsbD 23 = false ∧ w.getLsbD 20 = false)) :
    StandsFor (decodeDpShReg cond w) (.arm w) := by
  rcases nibble_cases (w.extractLsb' 21 4) with h | h | h | h | h | h | h | h | h | h | h | h | h | h | h | h <;>
    simp (disch := decide) only [decodeDpShReg, h, ↓reduceIte, BitVec.reduceEq, BitVec.ofNat_eq_ofNat] <;>
    refine standsFor_arm rfl rfl ?_ <;>
    simp (disch := decide) [hc, extract_eq_iff, -BitVec.getLsbD_eq_getElem] at h h1 ⊢ <;>
    simp_all

theorem decodeDpImm_standsFor (hc : w.extractLsb' 28 4 = cond.bits) (h1 : w.extractLsb' 25 3 = 1)
    (hm : ¬ (w.getLsbD 24 = true ∧ w.getLsbD 23 = false ∧ w.getLsbD 20 = false)) :
    StandsFor (decodeDpImm cond w) (.arm w) := by
  rcases nibble_cases (w.extractLsb' 21 4) with h | h | h | h | h | h | h | h | h | h | h | h | h | h | h | h <;>
    simp (disch := decide) only [decodeDpImm, h, ↓reduceIte, BitVec.reduceEq, BitVec.ofNat_eq_ofNat] <;>
    refine standsFor_arm rfl rfl ?_ <;>
    simp (disch := decide) [hc, extract_eq_iff, -BitVec.getLsbD_eq_getElem] at h h1 ⊢ <;>
    simp_all

theorem decodeMultiply_standsFor (hc : w.extractLsb' 28 4 = cond.bits) (h1 : w.extractLsb' 25 3 = 0)
    (hl : w.extractLsb' 4 4 = 0b1001) : StandsFor (decodeMultiply cond w) (.arm w) := by
  simp (disch := decide) [extract_eq_iff, -BitVec.getLsbD_eq_getElem] at h1 hl
  unfold decodeMultiply
  split_ifs <;> refine standsFor_arm ?_ rfl ?_
  any_goals rfl
  all_goals simp (disch := decide) [extract_eq_iff, wellFormed_undefExt, isMulOrSwap, -BitVec.getLsbD_eq_getElem, *]
  all_goals grind

theorem decodeExtraMemory_standsFor (hc : w.extractLsb' 28 4 = cond.bits) (h1 : w.extractLsb' 25 3 = 0)
    (h7 : w.getLsbD 7 = true) (h4 : w.getLsbD 4 = true) (hm : ¬ (w.getLsbD 6 = false ∧ w.getLsbD 5 = false)) :
    StandsFor (decodeExtraMemory cond w (w.extractLsb' 4 4)) (.arm w) := by
  simp (disch := decide) [extract_eq_iff, -BitVec.getLsbD_eq_getElem] at h1
  unfold decodeExtraMemory
  split_ifs <;> refine standsFor_arm rfl rfl ?_
  all_goals simp (disch := decide) [hc, extract_eq_iff, -BitVec.getLsbD_eq_getElem] at * 
  all_goals grind

theorem decodeMisc_standsFor (hc : w.extractLsb' 28 4 = cond.bits) (h1 : w.extractLsb' 23 5 = 0b00010) 
    (h20 : w.getLsbD 20 = false) (h7 : ¬ (w.getLsbD 7 = true ∧ w.getLsbD 4 = true)) :
    StandsFor (decodeMisc cond w) (.arm w) := by
  simp (disch := decide) [extract_eq_iff, -BitVec.getLsbD_eq_getElem] at h1
  unfold decodeMisc
  split_ifs <;> refine standsFor_arm ?_ rfl ?_
  any_goals rfl
  all_goals simp (disch := decide) [extract_eq_iff, wellFormed_undefMisc, isMisc, -BitVec.getLsbD_eq_getElem, *]
  all_goals grind

theorem decodeGroup0_standsFor (hc : w.extractLsb' 28 4 = cond.bits) (h1 : w.extractLsb' 25 3 = 0) :
    StandsFor (decodeGroup0 cond w) (.arm w) := by
  unfold decodeGroup0
  split_ifs with h74 h65 hm h4
  · refine decodeMultiply_standsFor hc h1 ?_
    simp [extract_eq_iff, -BitVec.getLsbD_eq_getElem, *]
  · exact decodeExtraMemory_standsFor hc h1 h74.1 h74.2 h65
  · refine decodeMisc_standsFor hc ?_ hm.2.2 h74
    simp [extract_eq_iff, -BitVec.getLsbD_eq_getElem] at h1 ⊢
    simp [*, -BitVec.getLsbD_eq_getElem]
  · exact decodeDpShReg_standsFor hc h1 h4 (by simp_all) hm
  · exact decodeDpShImm_standsFor hc h1 (by simp_all) hm

theorem decodeGroup1_standsFor (hc : w.extractLsb' 28 4 = cond.bits) (h1 : w.extractLsb' 25 3 = 1) :
    StandsFor (decodeGroup1 cond w) (.arm w) := by
  unfold decodeGroup1
  split_ifs with hm h21
  · refine standsFor_arm rfl rfl ?_
    simp (disch := decide) [hc, extract_eq_iff, -BitVec.getLsbD_eq_getElem] at h1 ⊢
    simp_all
  · refine standsFor_arm rfl rfl ?_
    simp (disch := decide) [hc, extract_eq_iff, -BitVec.getLsbD_eq_getElem] at h1 ⊢
    simp_all
  · exact decodeDpImm_standsFor hc h1 hm

theorem decodeGroup2_standsFor (hc : w.extractLsb' 28 4 = cond.bits) (h1 : w.extractLsb' 25 3 = 2) :
    StandsFor (decodeGroup2 cond w) (.arm w) := by
  simp (disch := decide) [extract_eq_iff, -BitVec.getLsbD_eq_getElem] at h1
  unfold decodeGroup2
  split_ifs <;> refine standsFor_arm ?_ rfl ?_
  any_goals rfl
  all_goals simp (disch := decide) [extract_eq_iff, wellFormed_ldrImm, wellFormed_ldrbImm, wellFormed_strImm,
    wellFormed_strbImm, -BitVec.getLsbD_eq_getElem, *]
  all_goals grind

theorem decodeGroup3_standsFor (hc : w.extractLsb' 28 4 = cond.bits) (h1 : w.extractLsb' 25 3 = 3) :
    StandsFor (decodeGroup3 cond w) (.arm w) := by
  simp (disch := decide) [extract_eq_iff, -BitVec.getLsbD_eq_getElem] at h1
  unfold decodeGroup3
  split_ifs <;> refine standsFor_arm ?_ rfl ?_
  any_goals rfl
  all_goals simp (disch := decide) [extract_eq_iff, wellFormed_ldrReg, wellFormed_ldrbReg, wellFormed_strReg,
    wellFormed_strbReg, -BitVec.getLsbD_eq_getElem, *]
  all_goals grind

theorem decodeGroup4_standsFor (hc : w.extractLsb' 28 4 = cond.bits) (h1 : w.extractLsb' 25 3 = 4) :
    StandsFor (decodeGroup4 cond w) (.arm w) := by
  simp (disch := decide) [extract_eq_iff, -BitVec.getLsbD_eq_getElem] at h1
  unfold decodeGroup4
  split_ifs <;> refine standsFor_arm rfl rfl ?_ <;>
    simp (disch := decide) [extract_eq_iff, -BitVec.getLsbD_eq_getElem, *]

theorem decodeCpMemory_standsFor (hc : w.extractLsb' 28 4 = cond.bits) (h1 : w.extractLsb' 25 3 = 6) :
    StandsFor (decodeCpMemory cond w) (.arm w) := by
  simp (disch := decide) [extract_eq_iff, -BitVec.getLsbD_eq_getElem] at h1
  unfold decodeCpMemory
  split_ifs <;> refine standsFor_arm ?_ rfl ?_
  any_goals rfl
  all_goals simp (disch := decide) [hc, extract_eq_iff, wellFormed_mcrr, wellFormed_mrrc, wellFormed_ldcP14,
    wellFormed_stcP14, wellFormed_ldc, wellFormed_stc, isMcrrSpace, -BitVec.getLsbD_eq_getElem] at *
  all_goals grind

/-- An MCR or MRC of coprocessor `num` with a row of its own: its key and the bits around it are those of the row. -/
theorem standsFor_of_key {i : Instr} {num : BitVec 4} {l : Bool} {a b : BitVec 12} {o p : BitVec 3} {n m : BitVec 4}
    (hc : w.extractLsb' 28 4 = cond.bits) (h1 : w.extractLsb' 24 4 = 14) (h4 : w.getLsbD 4 = true)
    (h20 : w.getLsbD 20 = l) (hn : w.extractLsb' 8 4 = num)
    (hk : cpKey (w.extractLsb' 21 3) (w.extractLsb' 16 4) (w.extractLsb' 0 4) (w.extractLsb' 5 3) = cpKey o n m p)
    (hi : i.wellFormed = true) (he : encode i = .arm (put b (put (w.extractLsb' 12 4) (put a (put cond.bits 0)))))
    (ha : a = 14#4 ++ o ++ BitVec.ofBool l ++ n) (hb : b = num ++ p ++ 1#1 ++ m) : StandsFor i (.arm w) := by
  obtain ⟨rfl, rfl, rfl, rfl⟩ := (cpKey_eq_iff ..).1 hk
  subst ha hb h20 hn
  have join (s l t k : Nat) (h : t = s + l) : w.extractLsb' t k ++ w.extractLsb' s l = w.extractLsb' s (k + l) :=
    BitVec.extractLsb'_append_extractLsb'_eq_extractLsb' h
  have hlow : w.extractLsb' 0 12 = w.extractLsb' 8 4 ++ w.extractLsb' 5 3 ++ 1#1 ++ w.extractLsb' 0 4 := by
    have h1 : (1#1) = w.extractLsb' 4 1 := by rw [extract_one, h4]; rfl
    rw [h1, join 5 3 8 4 rfl, join 4 1 5 (4 + 3) rfl, join 0 4 4 (4 + 3 + 1) rfl]
  have hhigh : w.extractLsb' 16 12 =
      14#4 ++ w.extractLsb' 21 3 ++ BitVec.ofBool (w.getLsbD 20) ++ w.extractLsb' 16 4 := by
    have h14 : (14#4) = w.extractLsb' 24 4 := h1.symm
    rw [← extract_one, h14, join 21 3 24 4 rfl, join 20 1 21 (4 + 3) rfl, join 16 4 20 (4 + 3 + 1) rfl]
  refine standsFor_arm hi he ?_
  simp (disch := decide) [hlow, hhigh, hc]

theorem standsFor_ite {p : Prop} [Decidable p] {i j : Instr} {c : Code} (hi : p → StandsFor i c) (hj : ¬ p → StandsFor j c) :
    StandsFor (if p then i else j) c := by
  split
  · exact hi ‹_›
  · exact hj ‹_›

theorem decodeCp15Write_standsFor (hc : w.extractLsb' 28 4 = cond.bits) (h1 : w.extractLsb' 24 4 = 14)
    (h4 : w.getLsbD 4 = true) (h20 : w.getLsbD 20 = false) (hn : w.extractLsb' 8 4 = 15) :
    StandsFor (decodeCp15Write cond w) (.arm w) := by
  unfold decodeCp15Write
  dsimp only
  repeat refine standsFor_ite (fun h => standsFor_of_key hc h1 h4 h20 hn h rfl rfl rfl rfl) fun _ => ?_
  refine standsFor_arm ?_ rfl ?_
  · simp_all [wellFormed_mcrP15Other, cp15Writes]
  · simp (disch := decide) [extract_eq_iff, -BitVec.getLsbD_eq_getElem] at h1 hn
    simp (disch := decide) [hc, extract_eq_iff, -BitVec.getLsbD_eq_getElem, h1, hn, h4, h20]

theorem decodeCp15Read_standsFor (hc : w.extractLsb' 28 4 = cond.bits) (h1 : w.extractLsb' 24 4 = 14)
    (h4 : w.getLsbD 4 = true) (h20 : w.getLsbD 20 = true) (hn : w.extractLsb' 8 4 = 15) :
    StandsFor (decodeCp15Read cond w) (.arm w) := by
  unfold decodeCp15Read
  dsimp only
  repeat refine standsFor_ite (fun h => standsFor_of_key hc h1 h4 h20 hn h rfl rfl rfl rfl) fun _ => ?_
  refine standsFor_arm ?_ rfl ?_
  · simp_all [wellFormed_mrcP15Other, cp15Reads]
  · simp (disch := decide) [extract_eq_iff, -BitVec.getLsbD_eq_getElem] at h1 hn
    simp (disch := decide) [hc, extract_eq_iff, -BitVec.getLsbD_eq_getElem, h1, hn, h4, h20]

theorem decodeCp14Write_standsFor (hc : w.extractLsb' 28 4 = cond.bits) (h1 : w.extractLsb' 24 4 = 14)
    (h4 : w.getLsbD 4 = true) (h20 : w.getLsbD 20 = false) (hn : w.extractLsb' 8 4 = 14) :
    StandsFor (decodeCp14Write cond w) (.arm w) := by
  unfold decodeCp14Write
  dsimp only
  repeat refine standsFor_ite (fun h => standsFor_of_key hc h1 h4 h20 hn h rfl rfl rfl rfl) fun _ => ?_
  refine standsFor_arm ?_ rfl ?_
  · simp_all [wellFormed_mcrP14Other, cp14Writes]
  · simp (disch := decide) [extract_eq_iff, -BitVec.getLsbD_eq_getElem] at h1 hn
    simp (disch := decide) [hc, extract_eq_iff, -BitVec.getLsbD_eq_getElem, h1, hn, h4, h20]

theorem decodeCp14Read_standsFor (hc : w.extractLsb' 28 4 = cond.bits) (h1 : w.extractLsb' 24 4 = 14)
    (h4 : w.getLsbD 4 = true) (h20 : w.getLsbD 20 = true) (hn : w.extractLsb' 8 4 = 14) :
    StandsFor (decodeCp14Read cond w) (.arm w) := by
  unfold decodeCp14Read
  dsimp only
  repeat refine standsFor_ite (fun h => standsFor_of_key hc h1 h4 h20 hn h rfl rfl rfl rfl) fun _ => ?_
  refine standsFor_arm ?_ rfl ?_
  · simp_all [wellFormed_mrcP14Other, cp14Reads]
  · simp (disch := decide) [extract_eq_iff, -BitVec.getLsbD_eq_getElem] at h1 hn
    simp (disch := decide) [hc, extract_eq_iff, -BitVec.getLsbD_eq_getElem, h1, hn, h4, h20]

theorem decodeCp7Write_standsFor (hc : w.extractLsb' 28 4 = cond.bits) (h1 : w.extractLsb' 24 4 = 14)
    (h4 : w.getLsbD 4 = true) (h20 : w.getLsbD 20 = false) (hn : w.extractLsb' 8 4 = 7)
    (hm : w.extractLsb' 0 4 = 2) :
    StandsFor (decodeCp7Write cond w) (.arm w) := by
  unfold decodeCp7Write
  dsimp only
  repeat refine standsFor_ite (fun h => standsFor_of_key hc h1 h4 h20 hn h rfl rfl rfl rfl) fun _ => ?_
  refine standsFor_arm ?_ rfl ?_
  · simp_all [wellFormed_mcrP7Other, cp7Writes]
  · simp (disch := decide) [extract_eq_iff, -BitVec.getLsbD_eq_getElem] at h1 hn hm
    simp (disch := decide) [hc, extract_eq_iff, -BitVec.getLsbD_eq_getElem, h1, hn, h4, h20, hm]

theorem decodeCp7Read_standsFor (hc : w.extractLsb' 28 4 = cond.bits) (h1 : w.extractLsb' 24 4 = 14)
    (h4 : w.getLsbD 4 = true) (h20 : w.getLsbD 20 = true) (hn : w.extractLsb' 8 4 = 7)
    (hm : w.extractLsb' 0 4 = 2) :
    StandsFor (decodeCp7Read cond w) (.arm w) := by
  unfold decodeCp7Read
  dsimp only
  repeat refine standsFor_ite (fun h => standsFor_of_key hc h1 h4 h20 hn h rfl rfl rfl rfl) fun _ => ?_
  refine standsFor_arm ?_ rfl ?_
  · simp_all [wellFormed_mrcP7Other, cp7Reads]
  · simp (disch := decide) [extract_eq_iff, -BitVec.getLsbD_eq_getElem] at h1 hn hm
    simp (disch := decide) [hc, extract_eq_iff, -BitVec.getLsbD_eq_getElem, h1, hn, h4, h20, hm]

theorem decodeCp0Write_standsFor (hc : w.extractLsb' 28 4 = cond.bits) (h1 : w.extractLsb' 24 4 = 14)
    (h4 : w.getLsbD 4 = true) (h20 : w.getLsbD 20 = false) (hn : w.extractLsb' 8 4 = 0) :
    StandsFor (decodeCp0Write cond w) (.arm w) := by
  simp (disch := decide) [extract_eq_iff, -BitVec.getLsbD_eq_getElem] at h1 hn
  unfold decodeCp0Write
  split_ifs <;> refine standsFor_arm ?_ rfl ?_
  any_goals rfl
  all_goals simp_all [wellFormed_mcrP0Other, miaOpcodes, -BitVec.getLsbD_eq_getElem]
  all_goals simp (disch := decide) [hc, extract_eq_iff, -BitVec.getLsbD_eq_getElem] at *
  all_goals simp_all

theorem mcr_standsFor (hc : w.extractLsb' 28 4 = cond.bits) (h1 : w.extractLsb' 24 4 = 14) (h4 : w.getLsbD 4 = true)
    (h20 : w.getLsbD 20 = false) (h15 : w.extractLsb' 8 4 ≠ 15) (h14 : w.extractLsb' 8 4 ≠ 14)
    (h0 : w.extractLsb' 8 4 ≠ 0) (h7 : w.extractLsb' 8 4 ≠ 7 ∨ w.extractLsb' 0 4 ≠ 2) :
    StandsFor (.mcr cond (w.extractLsb' 21 3) (w.extractLsb' 16 4) (w.extractLsb' 12 4) (w.extractLsb' 8 4)
      (w.extractLsb' 5 3) (w.extractLsb' 0 4)) (.arm w) := by
  refine standsFor_arm ?_ rfl ?_
  · simp_all [wellFormed_mcr]
  · simp (disch := decide) [extract_eq_iff, -BitVec.getLsbD_eq_getElem] at h1
    simp (disch := decide) [hc, extract_eq_iff, -BitVec.getLsbD_eq_getElem, h1, h4, h20]

theorem mrc_standsFor (hc : w.extractLsb' 28 4 = cond.bits) (h1 : w.extractLsb' 24 4 = 14) (h4 : w.getLsbD 4 = true)
    (h20 : w.getLsbD 20 = true) (h15 : w.extractLsb' 8 4 ≠ 15) (h14 : w.extractLsb' 8 4 ≠ 14)
    (h0 : w.extractLsb' 8 4 ≠ 0) (h7 : w.extractLsb' 8 4 ≠ 7 ∨ w.extractLsb' 0 4 ≠ 2) :
    StandsFor (.mrc cond (w.extractLsb' 21 3) (w.extractLsb' 16 4) (w.extractLsb' 12 4) (w.extractLsb' 8 4)
      (w.extractLsb' 5 3) (w.extractLsb' 0 4)) (.arm w) := by
  refine standsFor_arm ?_ rfl ?_
  · simp_all [wellFormed_mrc]
  · simp (disch := decide) [extract_eq_iff, -BitVec.getLsbD_eq_getElem] at h1
    simp (disch := decide) [hc, extract_eq_iff, -BitVec.getLsbD_eq_getElem, h1, h4, h20]

theorem decodeCpRegister_standsFor (hc : w.extractLsb' 28 4 = cond.bits) (h1 : w.extractLsb' 24 4 = 14) :
    StandsFor (decodeCpRegister cond w) (.arm w) := by
  unfold decodeCpRegister
  by_cases h4 : w.getLsbD 4 = false
  · rw [if_pos h4]
    refine standsFor_arm rfl rfl ?_
    simp (disch := decide) [extract_eq_iff, -BitVec.getLsbD_eq_getElem] at h1
    simp (disch := decide) [hc, extract_eq_iff, -BitVec.getLsbD_eq_getElem, h1, h4]
  rw [if_neg h4]
  replace h4 : w.getLsbD 4 = true := by simpa using h4
  by_cases h20 : w.getLsbD 20 = false
  · rw [if_pos h20]
    refine standsFor_ite (decodeCp15Write_standsFor hc h1 h4 h20) fun h15 => ?_
    refine standsFor_ite (decodeCp14Write_standsFor hc h1 h4 h20) fun h14 => ?_
    refine standsFor_ite (decodeCp0Write_standsFor hc h1 h4 h20) fun h0 => ?_
    refine standsFor_ite (fun h7 => ?_) fun h7 => mcr_standsFor hc h1 h4 h20 h15 h14 h0 (.inl h7)
    exact standsFor_ite (decodeCp7Write_standsFor hc h1 h4 h20 h7) fun h2 => mcr_standsFor hc h1 h4 h20 h15 h14 h0 (.inr h2)
  · rw [if_neg h20]
    replace h20 : w.getLsbD 20 = true := by simpa using h20
    refine standsFor_ite (decodeCp15Read_standsFor hc h1 h4 h20) fun h15 => ?_
    refine standsFor_ite (decodeCp14Read_standsFor hc h1 h4 h20) fun h14 => ?_
    refine standsFor_ite (fun h0 => standsFor_arm rfl rfl ?_) fun h0 => ?_
    · simp (disch := decide) [extract_eq_iff, -BitVec.getLsbD_eq_getElem] at h1 h0
      simp (disch := decide) [hc, extract_eq_iff, -BitVec.getLsbD_eq_getElem, h1, h4, h20, h0]
    refine standsFor_ite (fun h7 => ?_) fun h7 => mrc_standsFor hc h1 h4 h20 h15 h14 h0 (.inl h7)
    exact standsFor_ite (decodeCp7Read_standsFor hc h1 h4 h20 h7) fun h2 => mrc_standsFor hc h1 h4 h20 h15 h14 h0 (.inr h2)

theorem decodeConditional_standsFor (hc : w.extractLsb' 28 4 = cond.bits) :
    StandsFor (decodeConditional cond w) (.arm w) := by
  unfold decodeConditional
  rcases octal_cases (w.extractLsb' 25 3) with h | h | h | h | h | h | h | h <;>
    simp (disch := decide) only [h, ↓reduceIte, BitVec.reduceEq, BitVec.ofNat_eq_ofNat]
  · exact decodeGroup0_standsFor hc h
  · exact decodeGroup1_standsFor hc h
  · exact decodeGroup2_standsFor hc h
  · exact decodeGroup3_standsFor hc h
  · exact decodeGroup4_standsFor hc h
  · simp [extract_eq_iff, -BitVec.getLsbD_eq_getElem] at h
    split_ifs <;> refine standsFor_arm rfl rfl ?_ <;>
      simp (disch := decide) [extract_eq_iff, -BitVec.getLsbD_eq_getElem, *]
  · exact decodeCpMemory_standsFor hc h
  · refine standsFor_ite (fun h24 => decodeCpRegister_standsFor hc ?_) fun h24 => standsFor_arm rfl rfl ?_
    all_goals
      simp (disch := decide) [extract_eq_iff, -BitVec.getLsbD_eq_getElem] at h h24
      simp (disch := decide) [hc, extract_eq_iff, -BitVec.getLsbD_eq_getElem, h, h24]

end Arm

theorem decodeUnconditional_standsFor {w : Word} (hc : w.extractLsb' 28 4 = 15) : StandsFor (decodeUnconditional w) (.arm w) := by
  simp (disch := decide) [extract_eq_iff, -BitVec.getLsbD_eq_getElem] at hc
  unfold decodeUnconditional
  split_ifs <;> refine standsFor_arm ?_ rfl ?_
  any_goals rfl
  all_goals simp (disch := decide) [extract_eq_iff, wellFormed_undefUncond, isUncond, -BitVec.getLsbD_eq_getElem] at *
  all_goals grind

theorem ofBits_some {b : BitVec 4} {c : Cond} (h : Cond.ofBits b = some c) : b = c.bits := by
  revert b c; decide

theorem ofBits_none {b : BitVec 4} (h : Cond.ofBits b = none) : b = 15 := by
  revert b; decide

theorem decodeArm_standsFor (w : Word) : StandsFor (decodeArm w) (.arm w) := by
  unfold decodeArm
  split
  · exact decodeConditional_standsFor (ofBits_some ‹_›)
  · exact decodeUnconditional_standsFor (ofBits_none ‹_›)

section Thumb

variable {w : Half}

theorem decodeThumbAlu_standsFor (h : w.extractLsb' 10 6 = 0b010000) : StandsFor (decodeThumbAlu w) (.thumb w) := by
  rcases nibble_cases (w.extractLsb' 6 4) with k | k | k | k | k | k | k | k | k | k | k | k | k | k | k | k <;>
    simp (disch := decide) only [decodeThumbAlu, k, ↓reduceIte, BitVec.reduceEq, BitVec.ofNat_eq_ofNat] <;>
    refine standsFor_thumb rfl rfl ?_ <;>
    simp (disch := decide) [extract_eq_iff, -BitVec.getLsbD_eq_getElem] at h k ⊢ <;>
    simp_all

theorem decodeThumbHigh_standsFor (h : w.extractLsb' 10 6 = 0b010001) : StandsFor (decodeThumbHigh w) (.thumb w) := by
  unfold decodeThumbHigh
  split_ifs <;> refine standsFor_thumb rfl rfl ?_
  all_goals simp (disch := decide) [extract_eq_iff, -BitVec.getLsbD_eq_getElem] at *
  all_goals grind

theorem decodeThumbRegOffset_standsFor (h : w.extractLsb' 12 4 = 5) : StandsFor (decodeThumbRegOffset w) (.thumb w) := by
  rcases octal_cases (w.extractLsb' 9 3) with k | k | k | k | k | k | k | k <;>
    simp (disch := decide) only [decodeThumbRegOffset, k, ↓reduceIte, BitVec.reduceEq, BitVec.ofNat_eq_ofNat] <;>
    refine standsFor_thumb rfl rfl ?_ <;>
    simp (disch := decide) [extract_eq_iff, -BitVec.getLsbD_eq_getElem] at h k ⊢ <;>
    simp_all

theorem decodeThumbMisc_standsFor (h : w.extractLsb' 12 4 = 11) : StandsFor (decodeThumbMisc w) (.thumb w) := by
  unfold decodeThumbMisc
  split_ifs <;> refine standsFor_thumb ?_ rfl ?_
  any_goals rfl
  all_goals simp (disch := decide) [extract_eq_iff, wellFormed_tUndef1011, isThumbMisc, -BitVec.getLsbD_eq_getElem] at *
  all_goals grind

theorem decodeThumbCond_standsFor (h : w.extractLsb' 12 4 = 13) : StandsFor (decodeThumbCond w) (.thumb w) := by
  unfold decodeThumbCond
  split
  next hn =>
    have hf := ofBits_none hn
    refine standsFor_thumb rfl rfl ?_
    simp (disch := decide) [extract_eq_iff, -BitVec.getLsbD_eq_getElem] at h hf ⊢
    simp_all
  next c hs =>
    have hf := ofBits_some hs
    refine standsFor_ite (fun hal => standsFor_thumb rfl rfl ?_) fun hal => standsFor_thumb ?_ rfl ?_
    · simp (disch := decide) [hal, Cond.bits, extract_eq_iff, -BitVec.getLsbD_eq_getElem] at h hf ⊢
      simp_all
    · simp [wellFormed_tBCond, hal]
    · simp (disch := decide) [h, hf]

theorem decodeThumb_standsFor (w : Half) : StandsFor (decodeThumb w) (.thumb w) := by
  unfold decodeThumb
  rcases octal_cases (w.extractLsb' 13 3) with h | h | h | h | h | h | h | h <;>
    simp (disch := decide) only [h, ↓reduceIte, BitVec.reduceEq, BitVec.ofNat_eq_ofNat] <;>
    simp [extract_eq_iff, -BitVec.getLsbD_eq_getElem] at h
  · split_ifs <;> refine standsFor_thumb rfl rfl ?_
    all_goals simp (disch := decide) [extract_eq_iff, -BitVec.getLsbD_eq_getElem] at *
    all_goals grind
  · split_ifs <;> refine standsFor_thumb rfl rfl ?_
    all_goals simp (disch := decide) [extract_eq_iff, -BitVec.getLsbD_eq_getElem] at *
    all_goals grind
  · split_ifs with h12 h11 h10
    · exact decodeThumbRegOffset_standsFor (by simp [extract_eq_iff, h, h12, -BitVec.getLsbD_eq_getElem])
    · exact standsFor_thumb rfl rfl (by simp (disch := decide) [extract_eq_iff, h, h12, h11, -BitVec.getLsbD_eq_getElem])
    · exact decodeThumbHigh_standsFor (by simp [extract_eq_iff, h, h12, h11, h10, -BitVec.getLsbD_eq_getElem])
    · exact decodeThumbAlu_standsFor (by simp [extract_eq_iff, h, h12, h11, h10, -BitVec.getLsbD_eq_getElem])
  · split_ifs <;> refine standsFor_thumb rfl rfl ?_
    all_goals simp (disch := decide) [extract_eq_iff, -BitVec.getLsbD_eq_getElem] at *
    all_goals grind
  · split_ifs <;> refine standsFor_thumb rfl rfl ?_
    all_goals simp (disch := decide) [extract_eq_iff, -BitVec.getLsbD_eq_getElem] at *
    all_goals grind
  · refine standsFor_ite (fun h12 => decodeThumbMisc_standsFor ?_) fun h12 => ?_
    · simp [extract_eq_iff, h, h12, -BitVec.getLsbD_eq_getElem]
    split_ifs <;> exact standsFor_thumb rfl rfl (by simp (disch := decide) [extract_eq_iff, -BitVec.getLsbD_eq_getElem, *])
  · refine standsFor_ite (fun h12 => decodeThumbCond_standsFor ?_) fun h12 => ?_
    · simp [extract_eq_iff, h, h12, -BitVec.getLsbD_eq_getElem]
    split_ifs <;> exact standsFor_thumb rfl rfl (by simp (disch := decide) [extract_eq_iff, -BitVec.getLsbD_eq_getElem, *])
  · split_ifs <;> refine standsFor_thumb rfl rfl ?_
    all_goals simp (disch := decide) [extract_eq_iff, -BitVec.getLsbD_eq_getElem] at *
    all_goals grind

end Thumb

/-- Settles O3, by the branches of the decoder: each answer's fields are the fields of the code. -/
theorem encodeDecodeRoundTrip : Obligations.EncodeDecodeRoundTrip := by
  unfold Obligations.EncodeDecodeRoundTrip
  intro c
  cases c with
  | arm w => exact decodeArm_standsFor w
  | thumb w => exact decodeThumb_standsFor w

end Sys2Proof.Coding

/-! PROOF. The decoder reads back what the encoder wrote. -/
namespace Sys2Proof.Coding

open Sys2Proof

/-! Every well-formed instruction is what its encoding decodes to -/

/-- The instruction is what its encoding decodes to. -/
def RoundTrips (i : Instr) : Prop := decode (encode i) = i

theorem unconditional_roundTrips : (∀ p rn off, RoundTrips (.pldImm p rn off)) ∧
    (∀ p rn sh ty rd, RoundTrips (.pldReg p rn sh ty rd)) ∧ (∀ p off24, RoundTrips (.blxImm p off24)) ∧
    (∀ p u n w rn rd rs off8, RoundTrips (.ldc2 p u n w rn rd rs off8)) ∧
    (∀ p u n w rn rd rs off8, RoundTrips (.stc2 p u n w rn rd rs off8)) ∧
    (∀ rn rd rs rm i hi, RoundTrips (.cdp2 rn rd rs rm i hi)) ∧
    (∀ i rn rd rs j rm, RoundTrips (.mcr2 i rn rd rs j rm)) ∧
    (∀ i rn rd rs j rm, RoundTrips (.mrc2 i rn rd rs j rm)) := by
  simp (disch := decide) [RoundTrips, encode, decode, decodeArm, decodeUnconditional, Cond.ofBits, put_lo,
    put_hi, put_get_lo, put_get_hi, putBit, -BitVec.getLsbD_eq_getElem]

theorem multiply_roundTrips : (∀ cond p rn rd rs rm, RoundTrips (.mul cond p rn rd rs rm)) ∧
    (∀ cond p rn rd rs rm, RoundTrips (.mla cond p rn rd rs rm)) ∧
    (∀ cond p rn rd rs rm, RoundTrips (.umull cond p rn rd rs rm)) ∧
    (∀ cond p rn rd rs rm, RoundTrips (.umlal cond p rn rd rs rm)) ∧
    (∀ cond p rn rd rs rm, RoundTrips (.smull cond p rn rd rs rm)) ∧
    (∀ cond p rn rd rs rm, RoundTrips (.smlal cond p rn rd rs rm)) ∧
    (∀ cond rn rd rs rm, RoundTrips (.swp cond rn rd rs rm)) ∧
    (∀ cond rn rd rs rm, RoundTrips (.swpb cond rn rd rs rm)) := by
  simp (disch := decide) [RoundTrips, encode, decode, decodeArm, decodeConditional, decodeGroup0,
    decodeMultiply, put_lo, put_hi, put_get_lo, put_get_hi, putBit, -BitVec.getLsbD_eq_getElem]

theorem extraMemory_roundTrips : (∀ cond p u n w rn rd rs rm, RoundTrips (.strh cond p u n w rn rd rs rm)) ∧
    (∀ cond p u n w rn rd rs rm, RoundTrips (.ldrd cond p u n w rn rd rs rm)) ∧
    (∀ cond p u n w rn rd rs rm, RoundTrips (.strd cond p u n w rn rd rs rm)) ∧
    (∀ cond p u n w rn rd rs rm, RoundTrips (.ldrh cond p u n w rn rd rs rm)) ∧
    (∀ cond p u n w rn rd rs rm, RoundTrips (.ldrsb cond p u n w rn rd rs rm)) ∧
    (∀ cond p u n w rn rd rs rm, RoundTrips (.ldrsh cond p u n w rn rd rs rm)) := by
  simp (disch := decide) [RoundTrips, encode, decode, decodeArm, decodeConditional, decodeGroup0,
    decodeExtraMemory, put_lo, put_hi, put_get_lo, put_get_hi, putBit, -BitVec.getLsbD_eq_getElem]

theorem misc_roundTrips : (∀ cond p rn rd rs rm, RoundTrips (.mrs cond p rn rd rs rm)) ∧
    (∀ cond p rn off8 rd, RoundTrips (.msrReg cond p rn off8 rd)) ∧ (∀ cond off rn, RoundTrips (.bx cond off rn)) ∧
    (∀ cond off rn, RoundTrips (.blxReg cond off rn)) ∧ (∀ cond rn rd rs rm, RoundTrips (.clz cond rn rd rs rm)) ∧
    (∀ cond rn rd rs rm, RoundTrips (.qadd cond rn rd rs rm)) ∧
    (∀ cond rn rd rs rm, RoundTrips (.qsub cond rn rd rs rm)) ∧
    (∀ cond rn rd rs rm, RoundTrips (.qdadd cond rn rd rs rm)) ∧
    (∀ cond rn rd rs rm, RoundTrips (.qdsub cond rn rd rs rm)) ∧ (∀ cond off rn, RoundTrips (.bkpt cond off rn)) ∧
    (∀ cond rn rd rs p u rm, RoundTrips (.smlaXY cond rn rd rs p u rm)) ∧
    (∀ cond rn rd rs p rm, RoundTrips (.smlawY cond rn rd rs p rm)) ∧
    (∀ cond rn rd rs p rm, RoundTrips (.smulwY cond rn rd rs p rm)) ∧
    (∀ cond rn rd rs p u rm, RoundTrips (.smlalXY cond rn rd rs p u rm)) ∧
    (∀ cond rn rd rs p u rm, RoundTrips (.smulXY cond rn rd rs p u rm)) := by
  simp (disch := decide) [RoundTrips, encode, decode, decodeArm, decodeConditional, decodeGroup0, decodeMisc,
    put_lo, put_hi, put_get_lo, put_get_hi, putBit, -BitVec.getLsbD_eq_getElem]

theorem dpShImm_roundTrips : (∀ cond p rn rd sh ty rs, RoundTrips (.andShImm cond p rn rd sh ty rs)) ∧
    (∀ cond p rn rd sh ty rs, RoundTrips (.eorShImm cond p rn rd sh ty rs)) ∧
    (∀ cond p rn rd sh ty rs, RoundTrips (.subShImm cond p rn rd sh ty rs)) ∧
    (∀ cond p rn rd sh ty rs, RoundTrips (.rsbShImm cond p rn rd sh ty rs)) ∧
    (∀ cond p rn rd sh ty rs, RoundTrips (.addShImm cond p rn rd sh ty rs)) ∧
    (∀ cond p rn rd sh ty rs, RoundTrips (.adcShImm cond p rn rd sh ty rs)) ∧
    (∀ cond p rn rd sh ty rs, RoundTrips (.sbcShImm cond p rn rd sh ty rs)) ∧
    (∀ cond p rn rd sh ty rs, RoundTrips (.rscShImm cond p rn rd sh ty rs)) ∧
    (∀ cond rn rd sh ty rs, RoundTrips (.tstShImm cond rn rd sh ty rs)) ∧
    (∀ cond rn rd sh ty rs, RoundTrips (.teqShImm cond rn rd sh ty rs)) ∧
    (∀ cond rn rd sh ty rs, RoundTrips (.cmpShImm cond rn rd sh ty rs)) ∧
    (∀ cond rn rd sh ty rs, RoundTrips (.cmnShImm cond rn rd sh ty rs)) ∧
    (∀ cond p rn rd sh ty rs, RoundTrips (.orrShImm cond p rn rd sh ty rs)) ∧
    (∀ cond p rn rd sh ty rs, RoundTrips (.movShImm cond p rn rd sh ty rs)) ∧
    (∀ cond p rn rd sh ty rs, RoundTrips (.bicShImm cond p rn rd sh ty rs)) ∧
    (∀ cond p rn rd sh ty rs, RoundTrips (.mvnShImm cond p rn rd sh ty rs)) := by
  simp (disch := decide) [RoundTrips, encode, decode, decodeArm, decodeConditional, decodeGroup0, decodeDpShImm,
    put_lo, put_hi, put_get_lo, put_get_hi, putBit, -BitVec.getLsbD_eq_getElem]

theorem dpShReg_roundTrips : (∀ cond p rn rd rs ty rm, RoundTrips (.andShReg cond p rn rd rs ty rm)) ∧
    (∀ cond p rn rd rs ty rm, RoundTrips (.eorShReg cond p rn rd rs ty rm)) ∧
    (∀ cond p rn rd rs ty rm, RoundTrips (.subShReg cond p rn rd rs ty rm)) ∧
    (∀ cond p rn rd rs ty rm, RoundTrips (.rsbShReg cond p rn rd rs ty rm)) ∧
    (∀ cond p rn rd rs ty rm, RoundTrips (.addShReg cond p rn rd rs ty rm)) ∧
    (∀ cond p rn rd rs ty rm, RoundTrips (.adcShReg cond p rn rd rs ty rm)) ∧
    (∀ cond p rn rd rs ty rm, RoundTrips (.sbcShReg cond p rn rd rs ty rm)) ∧
    (∀ cond p rn rd rs ty rm, RoundTrips (.rscShReg cond p rn rd rs ty rm)) ∧
    (∀ cond rn rd rs ty rm, RoundTrips (.tstShReg cond rn rd rs ty rm)) ∧
    (∀ cond rn rd rs ty rm, RoundTrips (.teqShReg cond rn rd rs ty rm)) ∧
    (∀ cond rn rd rs ty rm, RoundTrips (.cmpShReg cond rn rd rs ty rm)) ∧
    (∀ cond rn rd rs ty rm, RoundTrips (.cmnShReg cond rn rd rs ty rm)) ∧
    (∀ cond p rn rd rs ty rm, RoundTrips (.orrShReg cond p rn rd rs ty rm)) ∧
    (∀ cond p rn rd rs ty rm, RoundTrips (.movShReg cond p rn rd rs ty rm)) ∧
    (∀ cond p rn rd rs ty rm, RoundTrips (.bicShReg cond p rn rd rs ty rm)) ∧
    (∀ cond p rn rd rs ty rm, RoundTrips (.mvnShReg cond p rn rd rs ty rm)) := by
  simp (disch := decide) [RoundTrips, encode, decode, decodeArm, decodeConditional, decodeGroup0, decodeDpShReg,
    put_lo, put_hi, put_get_lo, put_get_hi, putBit, -BitVec.getLsbD_eq_getElem]

theorem dpImm_roundTrips : (∀ cond p rn rd rs off8, RoundTrips (.msrImm cond p rn rd rs off8)) ∧
    (∀ cond p raw20, RoundTrips (.undefImm cond p raw20)) ∧
    (∀ cond p rn rd rs off8, RoundTrips (.andImm cond p rn rd rs off8)) ∧
    (∀ cond p rn rd rs off8, RoundTrips (.eorImm cond p rn rd rs off8)) ∧
    (∀ cond p rn rd rs off8, RoundTrips (.subImm cond p rn rd rs off8)) ∧
    (∀ cond p rn rd rs off8, RoundTrips (.rsbImm cond p rn rd rs off8)) ∧
    (∀ cond p rn rd rs off8, RoundTrips (.addImm cond p rn rd rs off8)) ∧
    (∀ cond p rn rd rs off8, RoundTrips (.adcImm cond p rn rd rs off8)) ∧
    (∀ cond p rn rd rs off8, RoundTrips (.sbcImm cond p rn rd rs off8)) ∧
    (∀ cond p rn rd rs off8, RoundTrips (.rscImm cond p rn rd rs off8)) ∧
    (∀ cond rn rd rs off8, RoundTrips (.tstImm cond rn rd rs off8)) ∧
    (∀ cond rn rd rs off8, RoundTrips (.teqImm cond rn rd rs off8)) ∧
    (∀ cond rn rd rs off8, RoundTrips (.cmpImm cond rn rd rs off8)) ∧
    (∀ cond rn rd rs off8, RoundTrips (.cmnImm cond rn rd rs off8)) ∧
    (∀ cond p rn rd rs off8, RoundTrips (.orrImm cond p rn rd rs off8)) ∧
    (∀ cond p rn rd rs off8, RoundTrips (.movImm cond p rn rd rs off8)) ∧
    (∀ cond p rn rd rs off8, RoundTrips (.bicImm cond p rn rd rs off8)) ∧
    (∀ cond p rn rd rs off8, RoundTrips (.mvnImm cond p rn rd rs off8)) := by
  simp (disch := decide) [RoundTrips, encode, decode, decodeArm, decodeConditional, decodeGroup1, decodeDpImm,
    put_lo, put_hi, put_get_lo, put_get_hi, putBit, -BitVec.getLsbD_eq_getElem]

theorem memoryUser_roundTrips : (∀ cond p rn rd off, RoundTrips (.ldrtImm cond p rn rd off)) ∧
    (∀ cond p rn rd off, RoundTrips (.ldrbtImm cond p rn rd off)) ∧
    (∀ cond p rn rd off, RoundTrips (.strtImm cond p rn rd off)) ∧
    (∀ cond p rn rd off, RoundTrips (.strbtImm cond p rn rd off)) ∧
    (∀ cond p rn rd sh ty rs, RoundTrips (.ldrtReg cond p rn rd sh ty rs)) ∧
    (∀ cond p rn rd sh ty rs, RoundTrips (.ldrbtReg cond p rn rd sh ty rs)) ∧
    (∀ cond p rn rd sh ty rs, RoundTrips (.strtReg cond p rn rd sh ty rs)) ∧
    (∀ cond p rn rd sh ty rs, RoundTrips (.strbtReg cond p rn rd sh ty rs)) ∧
    (∀ cond raw20 rn, RoundTrips (.undefMedia cond raw20 rn)) := by
  simp (disch := decide) [RoundTrips, encode, decode, decodeArm, decodeConditional, decodeGroup2, decodeGroup3,
    put_lo, put_hi, put_get_lo, put_get_hi, putBit, -BitVec.getLsbD_eq_getElem]

theorem multiple_roundTrips : (∀ cond p u n rn list, RoundTrips (.ldm cond p u n rn list)) ∧
    (∀ cond p u n rn regs, RoundTrips (.ldmUser cond p u n rn regs)) ∧
    (∀ cond p u n rn regs, RoundTrips (.ldmReturn cond p u n rn regs)) ∧
    (∀ cond p u n rn list, RoundTrips (.stm cond p u n rn list)) ∧
    (∀ cond p u n rn list, RoundTrips (.stmUser cond p u n rn list)) := by
  simp (disch := decide) [RoundTrips, encode, decode, decodeArm, decodeConditional, decodeGroup4, put_lo,
    put_hi, put_get_lo, put_get_hi, putBit, -BitVec.getLsbD_eq_getElem]

theorem branch_roundTrips : (∀ cond off24, RoundTrips (.b cond off24)) ∧
    (∀ cond off24, RoundTrips (.bl cond off24)) ∧ (∀ cond off24, RoundTrips (.swi cond off24)) := by
  simp (disch := decide) [RoundTrips, encode, decode, decodeArm, decodeConditional, put_lo, put_hi, put_get_lo,
    put_get_hi, -BitVec.getLsbD_eq_getElem]

theorem accumulator_roundTrips : (∀ cond rn rd sh i, RoundTrips (.mar cond rn rd sh i)) ∧
    (∀ cond rn rd sh i, RoundTrips (.mra cond rn rd sh i)) ∧
    (∀ cond rn rd rs rm i hi, RoundTrips (.cdp cond rn rd rs rm i hi)) ∧
    (∀ cond rn i rd, RoundTrips (.mia cond rn i rd)) ∧ (∀ cond rn i rd, RoundTrips (.miaph cond rn i rd)) ∧
    (∀ cond rn i rd, RoundTrips (.miabb cond rn i rd)) ∧ (∀ cond rn i rd, RoundTrips (.miabt cond rn i rd)) ∧
    (∀ cond rn i rd, RoundTrips (.miatb cond rn i rd)) ∧ (∀ cond rn i rd, RoundTrips (.miatt cond rn i rd)) ∧
    (∀ cond i rn rd j rs, RoundTrips (.mrcP0Other cond i rn rd j rs)) := by
  simp (disch := decide) [RoundTrips, encode, decode, decodeArm, decodeConditional, decodeCpMemory,
    decodeCpRegister, decodeCp0Write, put_lo, put_hi, put_get_lo, put_get_hi, -BitVec.getLsbD_eq_getElem]

theorem cp15Function_roundTrips : (∀ cond rn, RoundTrips (.mcrInvICacheBtb cond rn)) ∧
    (∀ cond rn, RoundTrips (.mcrInvICacheLine cond rn)) ∧ (∀ cond rn, RoundTrips (.mcrInvBtb cond rn)) ∧
    (∀ cond rn, RoundTrips (.mcrInvDCache cond rn)) ∧ (∀ cond rn, RoundTrips (.mcrInvDCacheLine cond rn)) ∧
    (∀ cond rn, RoundTrips (.mcrInvCachesBtb cond rn)) ∧ (∀ cond rn, RoundTrips (.mcrCleanDLineMva cond rn)) ∧
    (∀ cond rn, RoundTrips (.mcrCleanDLineSetWay cond rn)) ∧
    (∀ cond rn, RoundTrips (.mcrCleanInvDLineMva cond rn)) ∧
    (∀ cond rn, RoundTrips (.mcrCleanInvDLineSetWay cond rn)) ∧ (∀ cond rn, RoundTrips (.mcrInvL2Line cond rn)) ∧
    (∀ cond rn, RoundTrips (.mcrCleanL2LineMva cond rn)) ∧ (∀ cond rn, RoundTrips (.mcrCleanL2LineSetWay cond rn)) ∧
    (∀ cond rn, RoundTrips (.mcrCleanInvL2LineSetWay cond rn)) ∧
    (∀ cond rn, RoundTrips (.mcrPrefetchFlush cond rn)) ∧ (∀ cond rn, RoundTrips (.mcrDataWriteBarrier cond rn)) ∧
    (∀ cond rn, RoundTrips (.mcrDataMemoryBarrier cond rn)) ∧ (∀ cond rn, RoundTrips (.mcrDLineAllocate cond rn)) ∧
    (∀ cond rn, RoundTrips (.mcrInvTlbs cond rn)) ∧ (∀ cond rn, RoundTrips (.mcrInvITlb cond rn)) ∧
    (∀ cond rn, RoundTrips (.mcrInvITlbEntry cond rn)) ∧ (∀ cond rn, RoundTrips (.mcrInvDTlb cond rn)) ∧
    (∀ cond rn, RoundTrips (.mcrInvDTlbEntry cond rn)) ∧ (∀ cond rn, RoundTrips (.mcrLockILine cond rn)) ∧
    (∀ cond rn, RoundTrips (.mcrLockL2Line cond rn)) ∧ (∀ cond rn, RoundTrips (.mcrUnlockICache cond rn)) ∧
    (∀ cond rn, RoundTrips (.mcrUnlockL2 cond rn)) ∧ (∀ cond rn, RoundTrips (.mcrAllocLockL2Line cond rn)) ∧
    (∀ cond rn, RoundTrips (.mcrDLock cond rn)) ∧ (∀ cond rn, RoundTrips (.mcrUnlockDCache cond rn)) ∧
    (∀ cond rn, RoundTrips (.mcrLockILineLegacy cond rn)) ∧
    (∀ cond rn, RoundTrips (.mcrUnlockICacheLegacy cond rn)) ∧ (∀ cond rn, RoundTrips (.mcrDLockLegacy cond rn)) ∧
    (∀ cond rn, RoundTrips (.mcrUnlockDCacheLegacy cond rn)) ∧ (∀ cond rn, RoundTrips (.mcrLockITlbEntry cond rn)) ∧
    (∀ cond rn, RoundTrips (.mcrUnlockITlb cond rn)) ∧ (∀ cond rn, RoundTrips (.mcrLockDTlbEntry cond rn)) ∧
    (∀ cond rn, RoundTrips (.mcrUnlockDTlb cond rn)) := by
  simp (disch := decide) [RoundTrips, encode, decode, decodeArm, decodeConditional, decodeCpRegister,
    decodeCp15Write, cpKey, BitVec.reduceAppend, put_lo, put_hi, put_get_lo, put_get_hi,
    -BitVec.getLsbD_eq_getElem]

theorem cp15Write_roundTrips : (∀ cond rn, RoundTrips (.mcrMainId cond rn)) ∧
    (∀ cond rn, RoundTrips (.mcrCacheType cond rn)) ∧ (∀ cond rn, RoundTrips (.mcrL2SystemId cond rn)) ∧
    (∀ cond rn, RoundTrips (.mcrL2CacheType cond rn)) ∧ (∀ cond rn, RoundTrips (.mcrControl cond rn)) ∧
    (∀ cond rn, RoundTrips (.mcrAuxControl cond rn)) ∧ (∀ cond rn, RoundTrips (.mcrTtBase cond rn)) ∧
    (∀ cond rn, RoundTrips (.mcrDacr cond rn)) ∧ (∀ cond rn, RoundTrips (.mcrFsr cond rn)) ∧
    (∀ cond rn, RoundTrips (.mcrFar cond rn)) ∧ (∀ cond rn, RoundTrips (.mcrProcessId cond rn)) ∧
    (∀ cond rn, RoundTrips (.mcrIbr0 cond rn)) ∧ (∀ cond rn, RoundTrips (.mcrIbr1 cond rn)) ∧
    (∀ cond rn, RoundTrips (.mcrDbr0 cond rn)) ∧ (∀ cond rn, RoundTrips (.mcrDbr1 cond rn)) ∧
    (∀ cond rn, RoundTrips (.mcrDbcon cond rn)) ∧ (∀ cond rn, RoundTrips (.mcrCpar cond rn)) := by
  simp (disch := decide) [RoundTrips, encode, decode, decodeArm, decodeConditional, decodeCpRegister,
    decodeCp15Write, cpKey, put_lo, put_hi, put_get_lo, put_get_hi, -BitVec.getLsbD_eq_getElem]

theorem cp15Read_roundTrips : (∀ cond rn, RoundTrips (.mrcDLock cond rn)) ∧
    (∀ cond rn, RoundTrips (.mrcDLockLegacy cond rn)) ∧ (∀ cond rn, RoundTrips (.mrcMainId cond rn)) ∧
    (∀ cond rn, RoundTrips (.mrcCacheType cond rn)) ∧ (∀ cond rn, RoundTrips (.mrcL2SystemId cond rn)) ∧
    (∀ cond rn, RoundTrips (.mrcL2CacheType cond rn)) ∧ (∀ cond rn, RoundTrips (.mrcControl cond rn)) ∧
    (∀ cond rn, RoundTrips (.mrcAuxControl cond rn)) ∧ (∀ cond rn, RoundTrips (.mrcTtBase cond rn)) ∧
    (∀ cond rn, RoundTrips (.mrcDacr cond rn)) ∧ (∀ cond rn, RoundTrips (.mrcFsr cond rn)) ∧
    (∀ cond rn, RoundTrips (.mrcFar cond rn)) ∧ (∀ cond rn, RoundTrips (.mrcProcessId cond rn)) ∧
    (∀ cond rn, RoundTrips (.mrcIbr0 cond rn)) ∧ (∀ cond rn, RoundTrips (.mrcIbr1 cond rn)) ∧
    (∀ cond rn, RoundTrips (.mrcDbr0 cond rn)) ∧ (∀ cond rn, RoundTrips (.mrcDbr1 cond rn)) ∧
    (∀ cond rn, RoundTrips (.mrcDbcon cond rn)) ∧ (∀ cond rn, RoundTrips (.mrcCpar cond rn)) := by
  simp (disch := decide) [RoundTrips, encode, decode, decodeArm, decodeConditional, decodeCpRegister,
    decodeCp15Read, cpKey, put_lo, put_hi, put_get_lo, put_get_hi, -BitVec.getLsbD_eq_getElem]

theorem cp14Write_roundTrips : (∀ cond rn, RoundTrips (.mcrPmnc cond rn)) ∧
    (∀ cond rn, RoundTrips (.mcrCcnt cond rn)) ∧ (∀ cond rn, RoundTrips (.mcrInten cond rn)) ∧
    (∀ cond rn, RoundTrips (.mcrFlag cond rn)) ∧ (∀ cond rn, RoundTrips (.mcrEvtsel cond rn)) ∧
    (∀ cond rn, RoundTrips (.mcrPmn0 cond rn)) ∧ (∀ cond rn, RoundTrips (.mcrPmn1 cond rn)) ∧
    (∀ cond rn, RoundTrips (.mcrPmn2 cond rn)) ∧ (∀ cond rn, RoundTrips (.mcrPmn3 cond rn)) ∧
    (∀ cond rn, RoundTrips (.mcrCclkcfg cond rn)) ∧ (∀ cond rn, RoundTrips (.mcrPwrmode cond rn)) ∧
    (∀ cond rn, RoundTrips (.mcrTx cond rn)) ∧ (∀ cond rn, RoundTrips (.mcrDcsr cond rn)) ∧
    (∀ cond rn, RoundTrips (.mcrChkpt0 cond rn)) ∧ (∀ cond rn, RoundTrips (.mcrChkpt1 cond rn)) ∧
    (∀ cond rn, RoundTrips (.mcrTxrxctrl cond rn)) := by
  simp (disch := decide) [RoundTrips, encode, decode, decodeArm, decodeConditional, decodeCpRegister,
    decodeCp14Write, cpKey, put_lo, put_hi, put_get_lo, put_get_hi, -BitVec.getLsbD_eq_getElem]

theorem cp14Read_roundTrips : (∀ cond rn, RoundTrips (.mrcPmnc cond rn)) ∧
    (∀ cond rn, RoundTrips (.mrcCcnt cond rn)) ∧ (∀ cond rn, RoundTrips (.mrcInten cond rn)) ∧
    (∀ cond rn, RoundTrips (.mrcFlag cond rn)) ∧ (∀ cond rn, RoundTrips (.mrcEvtsel cond rn)) ∧
    (∀ cond rn, RoundTrips (.mrcPmn0 cond rn)) ∧ (∀ cond rn, RoundTrips (.mrcPmn1 cond rn)) ∧
    (∀ cond rn, RoundTrips (.mrcPmn2 cond rn)) ∧ (∀ cond rn, RoundTrips (.mrcPmn3 cond rn)) ∧
    (∀ cond rn, RoundTrips (.mrcCclkcfg cond rn)) ∧ (∀ cond rn, RoundTrips (.mrcPwrmode cond rn)) ∧
    (∀ cond rn, RoundTrips (.mrcRx cond rn)) ∧ (∀ cond rn, RoundTrips (.mrcDcsr cond rn)) ∧
    (∀ cond rn, RoundTrips (.mrcTbreg cond rn)) ∧ (∀ cond rn, RoundTrips (.mrcChkpt0 cond rn)) ∧
    (∀ cond rn, RoundTrips (.mrcChkpt1 cond rn)) ∧ (∀ cond rn, RoundTrips (.mrcTxrxctrl cond rn)) := by
  simp (disch := decide) [RoundTrips, encode, decode, decodeArm, decodeConditional, decodeCpRegister,
    decodeCp14Read, cpKey, put_lo, put_hi, put_get_lo, put_get_hi, -BitVec.getLsbD_eq_getElem]

theorem cp7_roundTrips : (∀ cond rn, RoundTrips (.mrcErrlog cond rn)) ∧
    (∀ cond rn, RoundTrips (.mcrErrlog cond rn)) ∧ (∀ cond rn, RoundTrips (.mrcErradrl cond rn)) ∧
    (∀ cond rn, RoundTrips (.mcrErradrl cond rn)) ∧ (∀ cond rn, RoundTrips (.mrcErradru cond rn)) ∧
    (∀ cond rn, RoundTrips (.mcrErradru cond rn)) := by
  simp (disch := decide) [RoundTrips, encode, decode, decodeArm, decodeConditional, decodeCpRegister,
    decodeCp7Write, decodeCp7Read, cpKey, put_lo, put_hi, put_get_lo, put_get_hi, -BitVec.getLsbD_eq_getElem]

theorem thumbImm_roundTrips : (∀ sh i j, RoundTrips (.tLslImm sh i j)) ∧ (∀ sh i j, RoundTrips (.tLsrImm sh i j)) ∧
    (∀ sh i j, RoundTrips (.tAsrImm sh i j)) ∧ (∀ i j k, RoundTrips (.tAddReg i j k)) ∧
    (∀ i j k, RoundTrips (.tSubReg i j k)) ∧ (∀ i j k, RoundTrips (.tAddImm3 i j k)) ∧
    (∀ i j k, RoundTrips (.tSubImm3 i j k)) ∧ (∀ i off8, RoundTrips (.tMovImm i off8)) ∧
    (∀ i off8, RoundTrips (.tCmpImm i off8)) ∧ (∀ i off8, RoundTrips (.tAddImm8 i off8)) ∧
    (∀ i off8, RoundTrips (.tSubImm8 i off8)) := by
  simp (disch := decide) [RoundTrips, encode, decode, decodeThumb, put_lo, put_hi, -BitVec.getLsbD_eq_getElem]

theorem thumbAlu_roundTrips : (∀ i j, RoundTrips (.tAnd i j)) ∧ (∀ i j, RoundTrips (.tEor i j)) ∧
    (∀ i j, RoundTrips (.tLslReg i j)) ∧ (∀ i j, RoundTrips (.tLsrReg i j)) ∧ (∀ i j, RoundTrips (.tAsrReg i j)) ∧
    (∀ i j, RoundTrips (.tAdc i j)) ∧ (∀ i j, RoundTrips (.tSbc i j)) ∧ (∀ i j, RoundTrips (.tRor i j)) ∧
    (∀ i j, RoundTrips (.tTst i j)) ∧ (∀ i j, RoundTrips (.tNeg i j)) ∧ (∀ i j, RoundTrips (.tCmpReg i j)) ∧
    (∀ i j, RoundTrips (.tCmn i j)) ∧ (∀ i j, RoundTrips (.tOrr i j)) ∧ (∀ i j, RoundTrips (.tMul i j)) ∧
    (∀ i j, RoundTrips (.tBic i j)) ∧ (∀ i j, RoundTrips (.tMvn i j)) := by
  simp (disch := decide) [RoundTrips, encode, decode, decodeThumb, decodeThumbAlu, put_lo, put_hi, put_get_lo,
    put_get_hi, -BitVec.getLsbD_eq_getElem]

theorem thumbHigh_roundTrips : (∀ p u i j, RoundTrips (.tAddHigh p u i j)) ∧
    (∀ p u i j, RoundTrips (.tCmpHigh p u i j)) ∧ (∀ p u i j, RoundTrips (.tMovHigh p u i j)) ∧
    (∀ p i j, RoundTrips (.tBx p i j)) ∧ (∀ p i j, RoundTrips (.tBlxReg p i j)) := by
  simp (disch := decide) [RoundTrips, encode, decode, decodeThumb, decodeThumbHigh, put_lo, put_hi, put_get_lo,
    put_get_hi, putBit, -BitVec.getLsbD_eq_getElem]

theorem thumbRegOffset_roundTrips : (∀ i j k, RoundTrips (.tStrReg i j k)) ∧
    (∀ i j k, RoundTrips (.tStrhReg i j k)) ∧ (∀ i j k, RoundTrips (.tStrbReg i j k)) ∧
    (∀ i j k, RoundTrips (.tLdrsbReg i j k)) ∧ (∀ i j k, RoundTrips (.tLdrReg i j k)) ∧
    (∀ i j k, RoundTrips (.tLdrhReg i j k)) ∧ (∀ i j k, RoundTrips (.tLdrbReg i j k)) ∧
    (∀ i j k, RoundTrips (.tLdrshReg i j k)) := by
  simp (disch := decide) [RoundTrips, encode, decode, decodeThumb, decodeThumbRegOffset, put_lo, put_hi,
    put_get_lo, put_get_hi, -BitVec.getLsbD_eq_getElem]

theorem thumbMemory_roundTrips : (∀ i off8, RoundTrips (.tLdrPc i off8)) ∧
    (∀ sh i j, RoundTrips (.tStrImm sh i j)) ∧ (∀ sh i j, RoundTrips (.tLdrImm sh i j)) ∧
    (∀ sh i j, RoundTrips (.tStrbImm sh i j)) ∧ (∀ sh i j, RoundTrips (.tLdrbImm sh i j)) ∧
    (∀ sh i j, RoundTrips (.tStrhImm sh i j)) ∧ (∀ sh i j, RoundTrips (.tLdrhImm sh i j)) ∧
    (∀ i off8, RoundTrips (.tStrSp i off8)) ∧ (∀ i off8, RoundTrips (.tLdrSp i off8)) ∧
    (∀ i off8, RoundTrips (.tAddPcImm i off8)) ∧ (∀ i off8, RoundTrips (.tAddSpImm i off8)) ∧
    (∀ i off8, RoundTrips (.tStmia i off8)) ∧ (∀ i off8, RoundTrips (.tLdmia i off8)) := by
  simp (disch := decide) [RoundTrips, encode, decode, decodeThumb, put_lo, put_hi, put_get_lo, put_get_hi,
    -BitVec.getLsbD_eq_getElem]

theorem thumbMisc_roundTrips : (∀ off7, RoundTrips (.tIncSp off7)) ∧ (∀ off7, RoundTrips (.tDecSp off7)) ∧
    (∀ p off8, RoundTrips (.tPush p off8)) ∧ (∀ p off8, RoundTrips (.tPop p off8)) ∧
    (∀ off8, RoundTrips (.tBkpt off8)) := by
  simp (disch := decide) [RoundTrips, encode, decode, decodeThumb, decodeThumbMisc, put_lo, put_hi, put_get_lo,
    put_get_hi, putBit, -BitVec.getLsbD_eq_getElem]

theorem thumbBranch_roundTrips : (∀ off11, RoundTrips (.tB off11)) ∧ (∀ off10, RoundTrips (.tBlxSuffix off10)) ∧
    (∀ off10, RoundTrips (.tUndefBlx off10)) ∧ (∀ off11, RoundTrips (.tBlPrefix off11)) ∧
    (∀ off11, RoundTrips (.tBlSuffix off11)) := by
  simp (disch := decide) [RoundTrips, encode, decode, decodeThumb, put_lo, put_hi, put_get_lo,
    -BitVec.getLsbD_eq_getElem]
section Reserved

variable {cond : Cond} {p u n w : Bool} {rn rd rs rm hi : BitVec 4} {i j : BitVec 3} {off : BitVec 12} {sh : BitVec 5}
  {ty : BitVec 2} {off8 : BitVec 8} {raw28 : BitVec 28} {raw17 : BitVec 17} {raw20 : BitVec 20}

theorem undefUncond_roundTrips (h : (Instr.undefUncond raw28).wellFormed = true) : RoundTrips (.undefUncond raw28) := by
  simp [wellFormed_undefUncond, isUncond, -BitVec.getLsbD_eq_getElem] at h
  simp (disch := decide) [RoundTrips, encode, decode, decodeArm, decodeUnconditional, Cond.ofBits, put_lo, put_hi,
    put_get_lo, -BitVec.getLsbD_eq_getElem]
  grind

theorem undefExt_roundTrips (h : (Instr.undefExt cond raw17 rn).wellFormed = true) :
    RoundTrips (.undefExt cond raw17 rn) := by
  simp [wellFormed_undefExt, isMulOrSwap, -BitVec.getLsbD_eq_getElem] at h
  simp (disch := decide) [RoundTrips, encode, decode, decodeArm, decodeConditional, decodeGroup0, decodeMultiply, put_lo,
    put_hi, put_get_lo, put_get_hi, -BitVec.getLsbD_eq_getElem]
  grind

theorem undefMisc_roundTrips (h : (Instr.undefMisc cond ty raw20).wellFormed = true) :
    RoundTrips (.undefMisc cond ty raw20) := by
  simp (disch := decide) [wellFormed_undefMisc, isMisc, extract_eq_iff, -BitVec.getLsbD_eq_getElem] at h
  simp (disch := decide) [RoundTrips, encode, decode, decodeArm, decodeConditional, decodeGroup0, decodeMisc, put_lo,
    put_hi, put_get_lo, put_get_hi, -BitVec.getLsbD_eq_getElem]
  grind

theorem memoryImm_roundTrips (h : (!(!p && w)) = true) :
    RoundTrips (.ldrImm cond p u w rn rd off) ∧ RoundTrips (.ldrbImm cond p u w rn rd off) ∧
    RoundTrips (.strImm cond p u w rn rd off) ∧ RoundTrips (.strbImm cond p u w rn rd off) := by
  have h : ¬ (p = false ∧ w = true) := by rintro ⟨rfl, rfl⟩; exact absurd h (by decide)
  simp (disch := decide) [RoundTrips, encode, decode, decodeArm, decodeConditional, decodeGroup2, put_lo, put_hi,
    put_get_lo, put_get_hi, putBit, h, -BitVec.getLsbD_eq_getElem]

theorem memoryReg_roundTrips (h : (!(!p && w)) = true) :
    RoundTrips (.ldrReg cond p u w rn rd sh ty rm) ∧ RoundTrips (.ldrbReg cond p u w rn rd sh ty rm) ∧
    RoundTrips (.strReg cond p u w rn rd sh ty rm) ∧ RoundTrips (.strbReg cond p u w rn rd sh ty rm) := by
  have h : ¬ (p = false ∧ w = true) := by rintro ⟨rfl, rfl⟩; exact absurd h (by decide)
  simp (disch := decide) [RoundTrips, encode, decode, decodeArm, decodeConditional, decodeGroup3, put_lo, put_hi,
    put_get_lo, put_get_hi, putBit, h, -BitVec.getLsbD_eq_getElem]

theorem mcrr_roundTrips (h : (rs != 0) = true) :
    RoundTrips (.mcrr cond rn rd rs rm hi) ∧ RoundTrips (.mrrc cond rn rd rs rm hi) := by
  have h : ¬ rs = 0 := by simpa using h
  simp (disch := decide) [RoundTrips, encode, decode, decodeArm, decodeConditional, decodeCpMemory, put_lo, put_hi,
    put_get_lo, put_get_hi, -BitVec.getLsbD_eq_getElem]
  simpa using h

theorem cp14Memory_roundTrips (h : (!isMcrrSpace p u n w) = true) :
    RoundTrips (.ldcP14 cond p u n w rn rd off8) ∧ RoundTrips (.stcP14 cond p u n w rn rd off8) := by
  have h : ¬ (p = false ∧ u = false ∧ n = true ∧ w = false) := by
    rintro ⟨rfl, rfl, rfl, rfl⟩; exact absurd h (by decide)
  simp (disch := decide) [RoundTrips, encode, decode, decodeArm, decodeConditional, decodeCpMemory, put_lo, put_hi,
    put_get_lo, put_get_hi, putBit, h, -BitVec.getLsbD_eq_getElem]

theorem cpMemory_roundTrips (h : (!isMcrrSpace p u n w && rs != 14) = true) :
    RoundTrips (.ldc cond p u n w rn rd rs off8) ∧ RoundTrips (.stc cond p u n w rn rd rs off8) := by
  simp only [Bool.and_eq_true] at h
  obtain ⟨h, h14⟩ := h
  have h : ¬ (p = false ∧ u = false ∧ n = true ∧ w = false) := by
    rintro ⟨rfl, rfl, rfl, rfl⟩; exact absurd h (by decide)
  simp (disch := decide) [RoundTrips, encode, decode, decodeArm, decodeConditional, decodeCpMemory, put_lo, put_hi,
    put_get_lo, put_get_hi, putBit, h, -BitVec.getLsbD_eq_getElem]
  simpa using h14

theorem cp15Other_roundTrips :
    ((Instr.mcrP15Other cond i rn rd j rm).wellFormed = true → RoundTrips (.mcrP15Other cond i rn rd j rm)) ∧
    ((Instr.mrcP15Other cond i rn rd j rm).wellFormed = true → RoundTrips (.mrcP15Other cond i rn rd j rm)) := by
  constructor <;> intro h
  · simp [wellFormed_mcrP15Other, cp15Writes] at h
    simp (disch := decide) [RoundTrips, encode, decode, decodeArm, decodeConditional, decodeCpRegister, decodeCp15Write,
      put_lo, put_hi, put_get_lo, put_get_hi, h, -BitVec.getLsbD_eq_getElem]
  · simp [wellFormed_mrcP15Other, cp15Reads] at h
    simp (disch := decide) [RoundTrips, encode, decode, decodeArm, decodeConditional, decodeCpRegister, decodeCp15Read,
      put_lo, put_hi, put_get_lo, put_get_hi, h, -BitVec.getLsbD_eq_getElem]

theorem cp14Other_roundTrips :
    ((Instr.mcrP14Other cond i rn rd j rm).wellFormed = true → RoundTrips (.mcrP14Other cond i rn rd j rm)) ∧
    ((Instr.mrcP14Other cond i rn rd j rm).wellFormed = true → RoundTrips (.mrcP14Other cond i rn rd j rm)) := by
  constructor <;> intro h
  · simp [wellFormed_mcrP14Other, cp14Writes] at h
    simp (disch := decide) [RoundTrips, encode, decode, decodeArm, decodeConditional, decodeCpRegister, decodeCp14Write,
      put_lo, put_hi, put_get_lo, put_get_hi, h, -BitVec.getLsbD_eq_getElem]
  · simp [wellFormed_mrcP14Other, cp14Reads] at h
    simp (disch := decide) [RoundTrips, encode, decode, decodeArm, decodeConditional, decodeCpRegister, decodeCp14Read,
      put_lo, put_hi, put_get_lo, put_get_hi, h, -BitVec.getLsbD_eq_getElem]

theorem cp7Other_roundTrips :
    ((Instr.mcrP7Other cond i rn rd j).wellFormed = true → RoundTrips (.mcrP7Other cond i rn rd j)) ∧
    ((Instr.mrcP7Other cond i rn rd j).wellFormed = true → RoundTrips (.mrcP7Other cond i rn rd j)) := by
  constructor <;> intro h
  · simp [wellFormed_mcrP7Other, cp7Writes] at h
    simp (disch := decide) [RoundTrips, encode, decode, decodeArm, decodeConditional, decodeCpRegister, decodeCp7Write,
      put_lo, put_hi, put_get_lo, put_get_hi, h, -BitVec.getLsbD_eq_getElem]
  · simp [wellFormed_mrcP7Other, cp7Reads] at h
    simp (disch := decide) [RoundTrips, encode, decode, decodeArm, decodeConditional, decodeCpRegister, decodeCp7Read,
      put_lo, put_hi, put_get_lo, put_get_hi, h, -BitVec.getLsbD_eq_getElem]

theorem mcrP0Other_roundTrips (h : (Instr.mcrP0Other cond i rn rd j rm).wellFormed = true) :
    RoundTrips (.mcrP0Other cond i rn rd j rm) := by
  simp [wellFormed_mcrP0Other, miaOpcodes] at h
  simp (disch := decide) [RoundTrips, encode, decode, decodeArm, decodeConditional, decodeCpRegister, decodeCp0Write,
    put_lo, put_hi, put_get_lo, put_get_hi, -BitVec.getLsbD_eq_getElem]
  intro hi
  simp [h.resolve_left (not_not.2 hi)]

theorem mcr_roundTrips (h : (rs != 15 && rs != 14 && rs != 0 && !(rs == 7 && rm == 2)) = true) :
    RoundTrips (.mcr cond i rn rd rs j rm) ∧ RoundTrips (.mrc cond i rn rd rs j rm) := by
  simp at h
  simp (disch := decide) [RoundTrips, encode, decode, decodeArm, decodeConditional, decodeCpRegister, put_lo, put_hi,
    put_get_lo, put_get_hi, h, -BitVec.getLsbD_eq_getElem]
  grind

theorem tUndef1011_roundTrips {raw : BitVec 12} (h : (Instr.tUndef1011 raw).wellFormed = true) :
    RoundTrips (.tUndef1011 raw) := by
  simp [wellFormed_tUndef1011, isThumbMisc, -BitVec.getLsbD_eq_getElem] at h
  simp (disch := decide) [RoundTrips, encode, decode, decodeThumb, decodeThumbMisc, put_lo, put_hi, put_get_lo,
    put_get_hi, -BitVec.getLsbD_eq_getElem]
  grind

theorem thumbCond_roundTrips : RoundTrips (.tSwi off8) ∧ RoundTrips (.tUndefCond off8) ∧
    ((Instr.tBCond cond off8).wellFormed = true → RoundTrips (.tBCond cond off8)) := by
  refine ⟨?_, ?_, fun h => ?_⟩
  · simp (disch := decide) [RoundTrips, encode, decode, decodeThumb, decodeThumbCond, Cond.ofBits, put_lo, put_hi,
      put_get_lo, put_get_hi, -BitVec.getLsbD_eq_getElem]
  · simp (disch := decide) [RoundTrips, encode, decode, decodeThumb, decodeThumbCond, Cond.ofBits, put_lo, put_hi,
      put_get_lo, put_get_hi, -BitVec.getLsbD_eq_getElem]
  · simp [wellFormed_tBCond] at h
    simp (disch := decide) [RoundTrips, encode, decode, decodeThumb, decodeThumbCond, put_lo, put_hi, put_get_lo, put_get_hi, h,
      -BitVec.getLsbD_eq_getElem]

end Reserved

/-- Settles O2, by cases on the instruction: the decoder reads each field back where the encoder put it. -/
theorem decodeEncodeRoundTrip : Obligations.DecodeEncodeRoundTrip := by
  unfold Obligations.DecodeEncodeRoundTrip
  intro i h
  change RoundTrips i
  cases i with
  | pldImm | pldReg | blxImm | ldc2 | stc2 | cdp2 | mcr2 | mrc2 => simp only [unconditional_roundTrips]
  | mul | mla | umull | umlal | smull | smlal | swp | swpb => simp only [multiply_roundTrips]
  | strh | ldrd | strd | ldrh | ldrsb | ldrsh => simp only [extraMemory_roundTrips]
  | mrs | msrReg | bx | blxReg | clz | qadd | qsub | qdadd | qdsub | bkpt | smlaXY | smlawY | smulwY | smlalXY |
    smulXY => simp only [misc_roundTrips]
  | andShImm | eorShImm | subShImm | rsbShImm | addShImm | adcShImm | sbcShImm | rscShImm | tstShImm | teqShImm |
    cmpShImm | cmnShImm | orrShImm | movShImm | bicShImm | mvnShImm => simp only [dpShImm_roundTrips]
  | andShReg | eorShReg | subShReg | rsbShReg | addShReg | adcShReg | sbcShReg | rscShReg | tstShReg | teqShReg |
    cmpShReg | cmnShReg | orrShReg | movShReg | bicShReg | mvnShReg => simp only [dpShReg_roundTrips]
  | msrImm | undefImm | andImm | eorImm | subImm | rsbImm | addImm | adcImm | sbcImm | rscImm | tstImm | teqImm |
    cmpImm | cmnImm | orrImm | movImm | bicImm | mvnImm => simp only [dpImm_roundTrips]
  | ldrtImm | ldrbtImm | strtImm | strbtImm | ldrtReg | ldrbtReg | strtReg | strbtReg | undefMedia => simp only
    [memoryUser_roundTrips]
  | ldm | ldmUser | ldmReturn | stm | stmUser => simp only [multiple_roundTrips]
  | b | bl | swi => simp only [branch_roundTrips]
  | mar | mra | cdp | mia | miaph | miabb | miabt | miatb | miatt | mrcP0Other => simp only [accumulator_roundTrips]
  | mcrInvICacheBtb | mcrInvICacheLine | mcrInvBtb | mcrInvDCache | mcrInvDCacheLine | mcrInvCachesBtb |
    mcrCleanDLineMva | mcrCleanDLineSetWay | mcrCleanInvDLineMva | mcrCleanInvDLineSetWay | mcrInvL2Line |
    mcrCleanL2LineMva | mcrCleanL2LineSetWay | mcrCleanInvL2LineSetWay | mcrPrefetchFlush | mcrDataWriteBarrier |
    mcrDataMemoryBarrier | mcrDLineAllocate | mcrInvTlbs | mcrInvITlb | mcrInvITlbEntry | mcrInvDTlb |
    mcrInvDTlbEntry | mcrLockILine | mcrLockL2Line | mcrUnlockICache | mcrUnlockL2 | mcrAllocLockL2Line | mcrDLock |
    mcrUnlockDCache | mcrLockILineLegacy | mcrUnlockICacheLegacy | mcrDLockLegacy | mcrUnlockDCacheLegacy |
    mcrLockITlbEntry | mcrUnlockITlb | mcrLockDTlbEntry | mcrUnlockDTlb => simp only [cp15Function_roundTrips]
  | mcrMainId | mcrCacheType | mcrL2SystemId | mcrL2CacheType | mcrControl | mcrAuxControl | mcrTtBase | mcrDacr |
    mcrFsr | mcrFar | mcrProcessId | mcrIbr0 | mcrIbr1 | mcrDbr0 | mcrDbr1 | mcrDbcon | mcrCpar => simp only
    [cp15Write_roundTrips]
  | mrcDLock | mrcDLockLegacy | mrcMainId | mrcCacheType | mrcL2SystemId | mrcL2CacheType | mrcControl |
    mrcAuxControl | mrcTtBase | mrcDacr | mrcFsr | mrcFar | mrcProcessId | mrcIbr0 | mrcIbr1 | mrcDbr0 | mrcDbr1 |
    mrcDbcon | mrcCpar => simp only [cp15Read_roundTrips]
  | mcrPmnc | mcrCcnt | mcrInten | mcrFlag | mcrEvtsel | mcrPmn0 | mcrPmn1 | mcrPmn2 | mcrPmn3 | mcrCclkcfg |
    mcrPwrmode | mcrTx | mcrDcsr | mcrChkpt0 | mcrChkpt1 | mcrTxrxctrl => simp only [cp14Write_roundTrips]
  | mrcPmnc | mrcCcnt | mrcInten | mrcFlag | mrcEvtsel | mrcPmn0 | mrcPmn1 | mrcPmn2 | mrcPmn3 | mrcCclkcfg |
    mrcPwrmode | mrcRx | mrcDcsr | mrcTbreg | mrcChkpt0 | mrcChkpt1 | mrcTxrxctrl => simp only [cp14Read_roundTrips]
  | mrcErrlog | mcrErrlog | mrcErradrl | mcrErradrl | mrcErradru | mcrErradru => simp only [cp7_roundTrips]
  | tLslImm | tLsrImm | tAsrImm | tAddReg | tSubReg | tAddImm3 | tSubImm3 | tMovImm | tCmpImm | tAddImm8 | tSubImm8
    => simp only [thumbImm_roundTrips]
  | tAnd | tEor | tLslReg | tLsrReg | tAsrReg | tAdc | tSbc | tRor | tTst | tNeg | tCmpReg | tCmn | tOrr | tMul |
    tBic | tMvn => simp only [thumbAlu_roundTrips]
  | tAddHigh | tCmpHigh | tMovHigh | tBx | tBlxReg => simp only [thumbHigh_roundTrips]
  | tStrReg | tStrhReg | tStrbReg | tLdrsbReg | tLdrReg | tLdrhReg | tLdrbReg | tLdrshReg => simp only
    [thumbRegOffset_roundTrips]
  | tLdrPc | tStrImm | tLdrImm | tStrbImm | tLdrbImm | tStrhImm | tLdrhImm | tStrSp | tLdrSp | tAddPcImm | tAddSpImm
    | tStmia | tLdmia => simp only [thumbMemory_roundTrips]
  | tIncSp | tDecSp | tPush | tPop | tBkpt => simp only [thumbMisc_roundTrips]
  | tB | tBlxSuffix | tUndefBlx | tBlPrefix | tBlSuffix => simp only [thumbBranch_roundTrips]
  | undefUncond => exact undefUncond_roundTrips h
  | undefExt => exact undefExt_roundTrips h
  | undefMisc => exact undefMisc_roundTrips h
  | ldrImm | ldrbImm | strImm | strbImm => simp only [memoryImm_roundTrips h]
  | ldrReg | ldrbReg | strReg | strbReg => simp only [memoryReg_roundTrips h]
  | mcrr | mrrc => simp only [mcrr_roundTrips h]
  | ldcP14 | stcP14 => simp only [cp14Memory_roundTrips h]
  | ldc | stc => simp only [cpMemory_roundTrips h]
  | mcrP15Other => exact cp15Other_roundTrips.1 h
  | mrcP15Other => exact cp15Other_roundTrips.2 h
  | mcrP14Other => exact cp14Other_roundTrips.1 h
  | mrcP14Other => exact cp14Other_roundTrips.2 h
  | mcrP7Other => exact cp7Other_roundTrips.1 h
  | mrcP7Other => exact cp7Other_roundTrips.2 h
  | mcrP0Other => exact mcrP0Other_roundTrips h
  | mcr | mrc => simp only [mcr_roundTrips h]
  | tUndef1011 => exact tUndef1011_roundTrips h
  | tSwi => exact (thumbCond_roundTrips (cond := .al)).1
  | tUndefCond => exact (thumbCond_roundTrips (cond := .al)).2.1
  | tBCond => exact thumbCond_roundTrips.2.2 h

end Sys2Proof.Coding

/-!
PROOF. The invariant of the machine, its first layer: the updates that touch nothing the invariant reads, the moves of
the pc, and the exceptions.
-/
namespace Sys2Proof.Keeping
open Sys2Proof Sys2Proof.Machine

/-- A pc is aligned to an instruction set state. -/
def alignedFor (thumb : Bool) (pc : Word) : Bool :=
  if thumb then !pc.getLsbD 0 else pc.extractLsb' 0 2 == 0

/-- The invariant but for the alignment of the pc. -/
structure Sound (s : State) : Prop where
  memory   : Memory.wf s.mem = true
  mode     : isMode s.mode = true
  reserved : s.reservedOk = true

theorem inv_iff (s : State) : s.Inv ↔ Sound s ∧ alignedFor s.thumb s.pc = true :=
  ⟨fun h => ⟨⟨h.memory, h.mode, h.reserved⟩, h.aligned⟩, fun ⟨h, a⟩ => ⟨h.memory, h.mode, a, h.reserved⟩⟩

theorem Sound.of_inv {s : State} (h : s.Inv) : Sound s := ((inv_iff s).mp h).1

/-- `t` differs from `s` in nothing that the invariant asks for. -/
structure Quiet (s t : State) : Prop where
  memory   : Memory.wf s.mem = true → Memory.wf t.mem = true
  mode     : t.mode = s.mode
  thumb    : t.thumb = s.thumb
  pc       : t.pc = s.pc
  reserved : s.reservedOk = true → t.reservedOk = true

theorem Quiet.refl (s : State) : Quiet s s := ⟨id, rfl, rfl, rfl, id⟩

theorem Quiet.trans {s t u : State} (h : Quiet s t) (k : Quiet t u) : Quiet s u :=
  ⟨k.memory ∘ h.memory, k.mode.trans h.mode, k.thumb.trans h.thumb, k.pc.trans h.pc, k.reserved ∘ h.reserved⟩

theorem Quiet.sound {s t : State} (q : Quiet s t) (h : Sound s) : Sound t :=
  ⟨q.memory h.memory, by rw [q.mode]; exact h.mode, q.reserved h.reserved⟩

theorem Quiet.inv {s t : State} (q : Quiet s t) (h : s.Inv) : t.Inv := by
  rw [inv_iff] at *
  exact ⟨q.sound h.1, by rw [q.thumb, q.pc]; exact h.2⟩

theorem Quiet.of_memSide {s t : State} (h : MemSide s t) : Quiet s t := by
  refine ⟨h.mem, ?_, ?_, h.pc, ?_⟩
  · unfold State.mode; rw [h.cpsr]
  · unfold State.thumb; rw [h.cpsr]
  · have dcsr : t.dbg.dcsr = s.dbg.dcsr := by rw [h.dbg]
    unfold State.reservedOk
    rw [h.cp15, dcsr]
    exact id

theorem Quiet.ite {c : Prop} [Decidable c] {s t u : State} (ht : Quiet s t) (hu : Quiet s u) :
    Quiet s (if c then t else u) := by
  split
  · exact ht
  · exact hu

/-- One more update, which takes place in some cases only. -/
theorem Quiet.step {c : Prop} [Decidable c] {s t u : State} (h : Quiet s u) (k : Quiet u t) :
    Quiet s (if c then t else u) := .ite (h.trans k) h

theorem Quiet.foldl {α : Type} {f : State → α → State} (hf : ∀ s a, Quiet s (f s a)) (as : List α) (s : State) :
    Quiet s (as.foldl f s) := by
  induction as generalizing s with
  | nil => exact .refl s
  | cons a as ih => exact (hf s a).trans (ih _)

/-! Registers, flags and what the step notes -/

theorem quiet_setReg (s : State) (n : Reg) (v : Word) : Quiet s (s.setReg n v) := ⟨id, rfl, rfl, rfl, id⟩

theorem quiet_setRegIn (s : State) (m : BitVec 5) (n : Reg) (v : Word) : Quiet s (s.setRegIn m n v) :=
  ⟨id, rfl, rfl, rfl, id⟩

theorem quiet_setSpsrOf (s : State) (b : Bank) (v : Word) : Quiet s (s.setSpsrOf b v) := by
  cases b <;> exact ⟨id, rfl, rfl, rfl, id⟩

theorem quiet_setFlags (s : State) (n z c v : Bool) : Quiet s (s.setFlags n z c v) :=
  ⟨id, setFlags_mode s n z c v, setFlags_thumb s n z c v, rfl, id⟩

theorem quiet_orQ (s : State) (q : Bool) : Quiet s (s.orQ q) := by
  cases q
  · exact .refl s
  · refine ⟨id, ?_, ?_, rfl, id⟩
    · simp [State.orQ, State.mode, BitVec.extractLsb'_or]
    · simp [State.orQ, State.thumb]

theorem quiet_drawn (s : State) : Quiet s s.drawn := ⟨id, rfl, rfl, rfl, id⟩

theorem quiet_noteB (s : State) : Quiet s s.noteB := ⟨id, rfl, rfl, rfl, id⟩

theorem quiet_noteBranch (s : State) : Quiet s s.noteBranch := ⟨id, rfl, rfl, rfl, id⟩

theorem quiet_setPmu (s : State) (f : Pmu → Pmu) : Quiet s (s.setPmu f) := ⟨id, rfl, rfl, rfl, id⟩

/-- Changes of the debug unit that leave DCSR. -/
theorem quiet_dbg (s : State) (d : Debug) (h : d.dcsr = s.dbg.dcsr) : Quiet s { s with dbg := d } := by
  refine ⟨id, rfl, rfl, rfl, ?_⟩
  unfold State.reservedOk
  dsimp only
  rw [h]
  exact id

/-! The pc -/

/-- Alignment in a state is a matter of the remainder of the address. -/
theorem alignedFor_iff (thumb : Bool) (a : Word) :
    alignedFor thumb a = true ↔ a.toNat % (if thumb then 2 else 4) = 0 := by
  cases thumb
  · simp only [alignedFor, Bool.false_eq_true, if_false, beq_iff_eq, ← BitVec.toNat_inj,
      BitVec.extractLsb'_toNat]
    simp
  · simp [alignedFor, BitVec.getLsbD, Nat.testBit_zero]

/-- The sum of two aligned addresses is aligned. -/
theorem alignedFor_add {thumb : Bool} {a b : Word} (ha : alignedFor thumb a = true) (hb : alignedFor thumb b = true) :
    alignedFor thumb (a + b) = true := by
  rw [alignedFor_iff] at *
  rw [BitVec.toNat_add]
  cases thumb <;> simp at * <;> omega

theorem alignedFor_shift (thumb : Bool) (a : Word) : alignedFor thumb (a <<< 2) = true := by
  rw [alignedFor_iff, BitVec.toNat_shiftLeft]
  cases thumb <;> simp <;> omega

theorem alignedFor_even (a : Word) : alignedFor true (a <<< 1) = true := by
  rw [alignedFor_iff, BitVec.toNat_shiftLeft]
  simp; omega

theorem alignedFor_weaken {thumb : Bool} {a : Word} (h : alignedFor thumb a = true) : alignedFor true a = true := by
  rw [alignedFor_iff] at *
  cases thumb
  · simp at *; omega
  · exact h

theorem alignedFor_clear_one (a : Word) : alignedFor true (a &&& ~~~1) = true := by simp [alignedFor]

theorem alignedFor_clear_three (thumb : Bool) (a : Word) : alignedFor thumb (a &&& ~~~3) = true := by
  rw [alignedFor_iff, aligned_toNat]
  cases thumb
  · simp
  · simp
    omega

theorem alignedFor_nextPc {s : State} (h : s.Inv) : alignedFor s.thumb s.nextPc = true := by
  have a := ((inv_iff s).mp h).2
  unfold State.nextPc
  cases e : s.thumb
  · rw [e] at a; exact alignedFor_add a (by decide)
  · rw [e] at a; exact alignedFor_add a (by decide)

theorem alignedFor_pcRead {s : State} (h : s.Inv) : alignedFor s.thumb s.pcRead = true := by
  have a := ((inv_iff s).mp h).2
  unfold State.pcRead
  cases e : s.thumb
  · rw [e] at a; exact alignedFor_add a (by decide)
  · rw [e] at a; exact alignedFor_add a (by decide)

/-- A state that is sound, with its pc moved to an aligned address. -/
theorem inv_at {s t : State} (q : Sound s) (memory : t.mem = s.mem) (cpsr : t.mode = s.mode)
    (cp15 : t.cp15 = s.cp15) (dcsr : t.dbg.dcsr = s.dbg.dcsr) (a : alignedFor t.thumb t.pc = true) : t.Inv := by
  refine (inv_iff t).mpr ⟨⟨?_, ?_, ?_⟩, a⟩
  · rw [memory]; exact q.memory
  · rw [cpsr]; exact q.mode
  · unfold State.reservedOk; rw [cp15, dcsr]; exact q.reserved

theorem inv_moved {s : State} {pc : Word} (h : Sound s) (a : alignedFor s.thumb pc = true) :
    ({ s with pc := pc } : State).Inv := inv_at h rfl rfl rfl rfl a

theorem inv_advance {s : State} (h : s.Inv) : s.advance.Inv :=
  inv_at (.of_inv h) rfl rfl rfl rfl (alignedFor_nextPc h)

theorem inv_skip {s : State} (h : s.Inv) : s.skip.Inv :=
  inv_at (.of_inv h) rfl rfl rfl rfl (alignedFor_nextPc h)

theorem inv_branchDirect {s : State} {v : Word} (h : Sound s) (a : alignedFor s.thumb v = true) :
    (s.branchDirect v).Inv := inv_at h rfl rfl rfl rfl a

theorem inv_branchIndirect {s : State} {v : Word} (h : Sound s) (a : alignedFor s.thumb v = true) :
    (s.branchIndirect v).Inv := inv_at h rfl rfl rfl rfl a

@[simp] theorem setThumb_mode (s : State) (b : Bool) : (s.setThumb b).mode = s.mode := by
  cases b
  · show (s.cpsr &&& ~~~0x20).extractLsb' 0 5 = s.cpsr.extractLsb' 0 5
    rw [BitVec.extractLsb'_and]
    exact BitVec.and_allOnes
  · simp [State.setThumb, State.mode, BitVec.extractLsb'_or]

@[simp] theorem setThumb_thumb (s : State) (b : Bool) : (s.setThumb b).thumb = b := by
  cases b <;> simp [State.setThumb, State.thumb]

theorem sound_setThumb {s : State} (h : Sound s) (b : Bool) : Sound (s.setThumb b) :=
  ⟨h.memory, by rw [setThumb_mode]; exact h.mode, h.reserved⟩

end Sys2Proof.Keeping

/-!
PROOF. The exceptions keep the invariant: the modes entered are modes of `10_state` R42, the vectors are aligned, and
FSR and DCSR keep their reserved bits.
-/
namespace Sys2Proof.Keeping
open Sys2Proof Sys2Proof.Machine

/-! Reserved bits -/

/-- Masked bits stay inside a mask that covers them. -/
theorem masked_reserved {a m r : Word} (h : m &&& r = 0) : a &&& m &&& r = 0 := by
  rw [BitVec.and_assoc, h]; exact BitVec.and_zero

theorem or_reserved {a b r : Word} (ha : a &&& r = 0) (hb : b &&& r = 0) : (a ||| b) &&& r = 0 := by
  rw [BitVec.and_comm, BitVec.and_or_distrib_left, BitVec.and_comm r a, BitVec.and_comm r b, ha, hb]; rfl

/-- Bits that are kept where a mask lets them through keep their reserved bits at zero. -/
theorem kept_reserved {a m r : Word} (h : a &&& r = 0) : a &&& m &&& r = 0 := by
  rw [BitVec.and_assoc, BitVec.and_comm m r, ← BitVec.and_assoc, h]; exact BitVec.zero_and

theorem reservedOk_iff (s : State) : s.reservedOk = true ↔
    s.cp15.ctrl &&& ~~~0x04003B87 = 0x00000078 ∧ s.cp15.auxctrl &&& ~~~0x00000C32 = 0 ∧
    s.cp15.ttbase &&& ~~~0xFFFFC01C = 0 ∧ s.cp15.fsr &&& ~~~0x000006FF = 0 ∧
    s.cp15.dbcon &&& ~~~0x0000010F = 0 ∧ s.dbg.dcsr &&& ~~~0xC0DF007F = 0 := by
  simp only [State.reservedOk, Bool.and_eq_true, beq_iff_eq, and_assoc]

/-- An update of CP15 and of the debug unit keeps the invariant's view when the registers with reserved bits keep
theirs. -/
theorem quiet_control {s t : State} (memory : t.mem = s.mem) (cpsr : t.cpsr = s.cpsr) (pc : t.pc = s.pc)
    (reserved : s.reservedOk = true → t.reservedOk = true) : Quiet s t :=
  ⟨by rw [memory]; exact id, by unfold State.mode; rw [cpsr], by unfold State.thumb; rw [cpsr], pc, reserved⟩

/-- A new value of FSR. -/
theorem quiet_fsr {s t : State} (memory : t.mem = s.mem) (cpsr : t.cpsr = s.cpsr) (pc : t.pc = s.pc)
    (dcsr : t.dbg.dcsr = s.dbg.dcsr) (fsr far : Word) (cp15 : t.cp15 = { s.cp15 with fsr := fsr, far := far })
    (h : fsr &&& ~~~0x000006FF = 0) : Quiet s t :=
  quiet_control memory cpsr pc fun r => by
    rw [reservedOk_iff] at *
    rw [cp15, dcsr]
    obtain ⟨ctrl, aux, ttb, -, rest⟩ := r
    exact ⟨ctrl, aux, ttb, h, rest⟩

/-- A new value of DCSR. -/
theorem quiet_dcsr {s : State} (d : Debug) (h : s.dbg.dcsr &&& ~~~0xC0DF007F = 0 → d.dcsr &&& ~~~0xC0DF007F = 0) :
    Quiet s { s with dbg := d } :=
  quiet_control rfl rfl rfl fun r => by
    rw [reservedOk_iff] at *
    obtain ⟨ctrl, aux, ttb, fsr, dbcon, dcsr⟩ := r
    exact ⟨ctrl, aux, ttb, fsr, dbcon, h dcsr⟩

theorem recorded_reserved (d : Word) (moe : BitVec 3) :
    (d.extractLsb' 5 27 ++ moe ++ d.extractLsb' 1 1 ++ BitVec.ofBool false) &&& ~~~(0xC0DF007F : Word) =
      d &&& ~~~(0xC0DF007F : Word) := by
  have cut : ∀ a : Word, a &&& ~~~(0xC0DF007F : Word) =
      (a.extractLsb' 5 27 ++ (0 : BitVec 5)) &&& ~~~(0xC0DF007F : Word) := by
    intro a
    apply BitVec.eq_of_getLsbD_eq
    intro i hi
    by_cases low : i < 5
    · have : (~~~(0xC0DF007F : Word)).getLsbD i = false := by
        have : ∀ i : Fin 5, (~~~(0xC0DF007F : Word)).getLsbD i = false := by decide
        exact this ⟨i, low⟩
      rw [BitVec.getLsbD_and, BitVec.getLsbD_and, this, Bool.and_false, Bool.and_false]
    · rw [BitVec.getLsbD_and, BitVec.getLsbD_and, BitVec.getLsbD_append]
      have : 5 + (i - 5) = i := by omega
      have top : i - 5 < 27 := by omega
      simp [low, this, top]
  rw [cut, cut d]
  congr 2
  apply BitVec.eq_of_getLsbD_eq
  intro i hi
  rw [BitVec.getLsbD_extractLsb', BitVec.getLsbD_append, BitVec.getLsbD_append, BitVec.getLsbD_append,
    BitVec.getLsbD_extractLsb', BitVec.getLsbD_extractLsb']
  have low : ¬ 5 + i < 1 ∧ ¬ 5 + i - 1 < 1 ∧ ¬ 5 + i - 1 - 1 < 3 := by omega
  simp [low, hi]

theorem quiet_recordDebug (s : State) (moe : BitVec 3) : Quiet s (s.recordDebug moe) :=
  quiet_dcsr _ fun r => (recorded_reserved s.dbg.dcsr moe).trans r

theorem quiet_debugFsr (s : State) : Quiet s s.debugFsr :=
  quiet_fsr rfl rfl rfl rfl _ s.cp15.far rfl (or_reserved (masked_reserved (by decide)) (by decide))

theorem fault_reserved (a : BitVec 1) (b c : BitVec 4) :
    ((0 : BitVec 21) ++ a ++ (0 : BitVec 2) ++ b ++ c) &&& ~~~(0x000006FF : Word) = 0 := by
  apply BitVec.eq_of_getLsbD_eq
  intro i hi
  have mask : ∀ i : Fin 32, (~~~(0x000006FF : Word)).getLsbD i = !(decide (i.val < 8) || i.val == 9 || i.val == 10) := by
    decide
  rw [BitVec.getLsbD_and, mask ⟨i, hi⟩]
  by_cases i < 8
  · simp [*]
  · rw [BitVec.getLsbD_append, BitVec.getLsbD_append, BitVec.getLsbD_append, BitVec.getLsbD_append]
    have : ¬ i < 4 := by omega
    have : ¬ i - 4 < 4 := by omega
    simp [*]
    by_cases i = 9
    · simp [*]
    · by_cases i = 10
      · simp [*]
      · simp [*]
        omega

theorem quiet_writeFault (s : State) (fs : BitVec 5) (dom : Option (BitVec 4)) (far : Option Word) :
    Quiet s (s.writeFault fs dom far) :=
  quiet_fsr rfl rfl rfl rfl _ _ rfl (fault_reserved _ _ _)

/-! The trace buffer -/

theorem quiet_traceEntry (s : State) (e : BitVec 8) : Quiet s (s.traceEntry e) := quiet_dbg s _ rfl

theorem quiet_setTraceCount (s : State) (n : BitVec 4) : Quiet s (s.setTraceCount n) := quiet_dbg s _ rfl

theorem quiet_traceMark (s : State) (target : Word) (kind : BitVec 4) : Quiet s (s.traceMark target kind) := by
  have written (u : State) (h : BitVec 8) : Quiet u ((u.traceEntry h).setTraceCount 0) :=
    (quiet_traceEntry u h).trans (quiet_setTraceCount _ 0)
  unfold State.traceMark
  dsimp only
  split
  · refine (quiet_drawn s).trans (Quiet.trans ?_ ((written _ _).trans (quiet_dbg _ _ rfl)))
    exact quiet_dbg _ _ rfl
  · exact (quiet_drawn s).trans (written _ _)

theorem quiet_traceSequential (s : State) : Quiet s s.traceSequential := by
  unfold State.traceSequential
  split
  · exact (quiet_traceEntry s _).trans (quiet_setTraceCount _ 0)
  · exact quiet_setTraceCount s _

theorem quiet_traceHalf (s : State) : Quiet s s.traceHalf := by
  unfold State.traceHalf
  split
  · exact (quiet_drawn s).trans (quiet_traceSequential _)
  · exact quiet_drawn s

theorem quiet_traceIndirect (s : State) : Quiet s s.traceIndirect :=
  (quiet_traceEntry s _).trans <| (quiet_traceEntry _ _).trans <| (quiet_traceEntry _ _).trans <|
    (quiet_traceEntry _ _).trans (quiet_traceMark _ _ _)

theorem quiet_traceException (s : State) (vvv : BitVec 3) (counted : Bool) :
    Quiet s (s.traceException vvv counted) := by
  unfold State.traceException
  split
  · exact (quiet_drawn s).trans ((quiet_traceEntry _ _).trans (quiet_setTraceCount _ 0))
  · exact (quiet_traceEntry s _).trans (quiet_setTraceCount _ 0)

theorem quiet_scrambleTrace (s : State) : Quiet s s.scrambleTrace := by
  refine ⟨id, rfl, rfl, rfl, ?_⟩
  rw [reservedOk_iff, reservedOk_iff]
  exact id

/-! Taking an exception -/

theorem entryCpsr_mode (c : Word) (m : BitVec 5) (f : Bool) : (entryCpsr c m f).extractLsb' 0 5 = m := by
  apply BitVec.eq_of_getLsbD_eq
  intro i hi
  unfold entryCpsr
  rw [BitVec.getLsbD_extractLsb', BitVec.getLsbD_append]
  simp [hi]

theorem entryCpsr_thumb (c : Word) (m : BitVec 5) (f : Bool) : (entryCpsr c m f).getLsbD 5 = false := by
  unfold entryCpsr
  rw [BitVec.getLsbD_append, BitVec.getLsbD_append]
  simp

/-- What an entry into an exception leaves: a mode of the architecture, ARM state, an aligned pc. -/
theorem inv_entered {s t : State} {c : Word} {m : BitVec 5} {f : Bool} (h : Sound s) (memory : t.mem = s.mem)
    (cpsr : t.cpsr = entryCpsr c m f) (mode : isMode m = true) (reserved : t.reservedOk = true)
    (a : alignedFor false t.pc = true) : t.Inv := by
  have thumb : t.thumb = false := by unfold State.thumb; rw [cpsr, entryCpsr_thumb]
  refine (inv_iff t).mpr ⟨⟨?_, ?_, reserved⟩, ?_⟩
  · rw [memory]; exact h.memory
  · unfold State.mode; rw [cpsr, entryCpsr_mode]; exact mode
  · rw [thumb]; exact a

theorem alignedFor_vectorBase (s : State) : alignedFor false s.vectorBase = true := by
  unfold State.vectorBase
  split <;> decide

theorem alignedFor_vectorAddress (s : State) (e : Exception) : alignedFor false (s.vectorAddress e) = true :=
  alignedFor_add (alignedFor_vectorBase s) (by cases e <;> decide)

theorem isMode_exception (e : Exception) : isMode e.mode = true := by cases e <;> decide

theorem reserved_setSpsrOf (s : State) (b : Bank) (v : Word) : (s.setSpsrOf b v).reservedOk = s.reservedOk := by
  cases b <;> rfl

theorem inv_enterException {s : State} (h : Sound s) (e : Exception) (link : Word) :
    (s.enterException e link).Inv :=
  inv_entered (s := (s.setRegIn e.mode 14 link).setSpsrOf (bankOf e.mode) s.cpsr)
    ((quiet_setSpsrOf _ _ _).sound ((quiet_setRegIn s _ _ _).sound h)) rfl rfl (isMode_exception e)
    (((quiet_setSpsrOf _ _ _).sound ((quiet_setRegIn s _ _ _).sound h)).reserved) (alignedFor_vectorAddress s e)

theorem inv_enterDebugMode {s : State} (h : Sound s) (moe : BitVec 3) (link : Word) :
    (s.enterDebugMode moe link).Inv := by
  have banked : Sound (((s.recordDebug moe).setRegIn modeDebug 14 link).setSpsrOf .dbg s.cpsr) :=
    (quiet_setSpsrOf _ _ _).sound ((quiet_setRegIn _ _ _ _).sound ((quiet_recordDebug s moe).sound h))
  have faulted := (Quiet.ite (c := s.haltMode = true) (.refl _) (quiet_debugFsr _)).sound banked
  refine inv_entered faulted rfl rfl (by decide) ?_ ?_
  · rw [reservedOk_iff]; exact (reservedOk_iff _).mp faulted.reserved
  · show alignedFor false (if s.haltMode then 0 else s.vectorBase) = true
    split
    · decide
    · exact alignedFor_vectorBase s

theorem inv_debugException {s : State} (h : Sound s) (e : Exception) (moe : BitVec 3) (link : Word) :
    (s.debugException e moe link).Inv := by
  unfold State.debugException
  split
  · exact inv_enterDebugMode h moe link
  · exact inv_enterException ((quiet_debugFsr _).sound ((quiet_recordDebug s moe).sound h)) e link

theorem alignedFor_resetTrapPc : alignedFor false resetTrapPc = true := by
  unfold resetTrapPc
  split <;> decide

theorem enterDebugMode_thumb (s : State) (moe : BitVec 3) (link : Word) : (s.enterDebugMode moe link).thumb = false :=
  entryCpsr_thumb _ _ _

theorem inv_vectorTrap {s : State} (h : s.Inv) (e : Exception) : (s.vectorTrap e).Inv := by
  unfold State.vectorTrap
  dsimp only
  split
  · have entered (moe : BitVec 3) : (s.enterDebugMode moe (s.pc + 4)).Inv := inv_enterDebugMode (.of_inv h) _ _
    split
    · exact inv_moved (.of_inv (entered _)) (by rw [enterDebugMode_thumb]; exact alignedFor_resetTrapPc)
    · exact entered _
  · exact h

theorem inv_takeException {s : State} (h : Sound s) (e : Exception) (link : Word) (counted : Bool) :
    (s.takeException e link counted).Inv :=
  inv_vectorTrap ((Quiet.ite (quiet_traceException _ _ _) (.refl _)).inv (inv_enterException h e link)) e

theorem quiet_abortPending {s : State} :
    Quiet s { s with dbg := { s.dbg with dcsr := s.dbg.dcsr ||| 0x20 } } :=
  quiet_dcsr _ fun r => or_reserved r (by decide)

theorem inv_dataAbort {s : State} (h : s.Inv) (fs : BitVec 5) (dom : Option (BitVec 4)) (far : Option Word)
    (toPc : Bool) : (s.dataAbort fs dom far toPc).Inv := by
  have cleared : Quiet s { s.writeFault fs dom far with dbg := { (s.writeFault fs dom far).dbg with hit := false } } :=
    (quiet_writeFault s fs dom far).trans (quiet_dbg _ _ rfl)
  unfold State.dataAbort
  dsimp only
  split
  · exact inv_advance (quiet_abortPending.inv (cleared.inv h))
  · exact inv_takeException (cleared.sound (.of_inv h)) _ _ _

theorem inv_prefetchAbort {s : State} (h : Sound s) (fs : BitVec 5) : (s.prefetchAbort fs).Inv :=
  inv_takeException ((quiet_writeFault s fs none none).sound h) _ _ _

theorem inv_impreciseAbort {s : State} (h : s.Inv) (a : ImpreciseAbort) : (s.impreciseAbort a).Inv := by
  have written (fs : BitVec 5) : Quiet s { s.writeFault fs none none with pendingAbort := none } :=
    (quiet_writeFault s fs none none).trans ⟨id, rfl, rfl, rfl, id⟩
  unfold State.impreciseAbort
  dsimp only
  split
  · exact Quiet.inv (((written _).trans quiet_abortPending).trans ⟨id, rfl, rfl, rfl, id⟩) h
  · exact inv_takeException ((written _).sound (.of_inv h)) _ _ _

end Sys2Proof.Keeping

/-!
PROOF. The outcomes that keep the invariant: one rule for each way in which an instruction ends, and the operations of
the memory and coprocessor monad.
-/
namespace Sys2Proof.Keeping
open Sys2Proof Sys2Proof.Machine

/-- A next state, if there is one, meets the invariant. -/
def Good (o : Host.Outcome State Fault Refusal) : Prop := ∀ t, o = .next t → t.Inv

theorem good_next {t : State} (h : t.Inv) : Good (.next t) := fun _ e => by cases e; exact h

theorem good_refused (r : Refusal) : Good (.refused r) := fun _ e => nomatch e

theorem good_fault (f : Fault) : Good (.fault f) := fun _ e => nomatch e

/-- The usual end: registers, flags and the like are written, and the pc advances. -/
theorem good_advance {s t : State} (h : s.Inv) (q : Quiet s t) : Good (.next t.advance) :=
  good_next (inv_advance (q.inv h))

theorem good_raise {s : State} (h : s.Inv) (e : Exception) (link : Word) : Good (s.raise e link) := fun t k => by
  obtain ⟨-, rfl⟩ := raise_next k
  exact inv_takeException (.of_inv h) _ _ _

theorem good_undefined {s : State} (h : s.Inv) : Good s.raiseUndefined := good_raise h _ _

section Guards
variable {body : Host.Outcome State Fault Refusal}

theorem good_whenCond {s : State} (h : s.Inv) (c : Cond) (k : Good body) : Good (whenCond c s body) := fun t e => by
  obtain e | rfl := whenCond_next e
  · exact k t e
  · exact inv_skip h

theorem good_whenCondPc {s : State} (h : s.Inv) (b : Bool) (c : Cond) (k : Good body) :
    Good (whenCondPc b c s body) := fun t e => by
  obtain e | rfl := whenCondPc_next e
  · exact k t e
  · exact inv_at (.of_inv h) rfl rfl rfl rfl (alignedFor_nextPc h)

theorem good_orRefuse (c : Bool) (r : Refusal) (k : Good body) : Good (orRefuse c r body) :=
  fun t e => k t (orRefuse_next e).2

theorem good_needPrivilege {s : State} (h : s.Inv) (k : Good body) : Good (needPrivilege s body) := fun t e => by
  obtain ⟨-, e⟩ | ⟨-, e⟩ := needPrivilege_next e
  · exact k t e
  · exact good_undefined h t e

theorem good_needCp {s : State} (h : s.Inv) (n : Nat) (k : Good body) : Good (needCp n s body) := fun t e => by
  obtain e | e := needCp_next e
  · exact k t e
  · exact good_undefined h t e

end Guards

/-! Control transfers -/

theorem good_interwork {s : State} (h : Sound s) (v : Word) : Good (s.interwork v) := fun t e => by
  obtain ⟨-, rfl⟩ | ⟨low, high, rfl⟩ := interwork_next e
  · refine inv_branchIndirect (sound_setThumb h true) ?_
    rw [setThumb_thumb]
    exact alignedFor_clear_one v
  · refine inv_branchIndirect (sound_setThumb h false) ?_
    rw [setThumb_thumb, alignedFor, if_neg Bool.false_ne_true, beq_iff_eq]
    apply BitVec.eq_of_getLsbD_eq
    intro i hi
    rw [BitVec.getLsbD_extractLsb', Nat.zero_add]
    obtain rfl | rfl : i = 0 ∨ i = 1 := by omega
    · rw [low]; rfl
    · rw [high]; rfl

theorem good_writePc {s : State} (h : Sound s) (v : Word) : Good (s.writePc v) := fun t e => by
  obtain ⟨thumb, rfl⟩ | ⟨arm, low, rfl⟩ := writePc_next e
  · exact inv_branchIndirect h (by rw [thumb]; exact alignedFor_clear_one v)
  · exact inv_branchIndirect h (by rw [arm]; simp [alignedFor, low])

theorem good_exceptionReturn {s : State} (h : Sound s) (v : Word) : Good (s.exceptionReturn v) := fun t e => by
  obtain ⟨p, -, mode, rfl⟩ := exceptionReturn_next e
  have restored : Sound { s with cpsr := p, dbg := { s.dbg with sds := false } } :=
    ⟨h.memory, by show (isSoftwareMode (p.extractLsb' 0 5) || _) = true; rw [mode]; rfl, h.reserved⟩
  refine inv_branchIndirect restored ?_
  show alignedFor (p.getLsbD 5) _ = true
  cases p.getLsbD 5
  · exact alignedFor_clear_three false v
  · exact alignedFor_clear_one v

/-! Data processing -/

theorem quiet_written (s : State) (b : Bool) (rd : Reg) (v : Word) (n z c w : Bool) :
    Quiet s (if b then (s.setReg rd v).setFlags n z c w else s.setReg rd v) :=
  .ite ((quiet_setReg s rd v).trans (quiet_setFlags _ n z c w)) (quiet_setReg s rd v)

theorem good_dpFinish {s : State} (h : s.Inv) (b : Bool) (rd : Reg) (r : Sum) : Good (dpFinish s b rd r) := fun t e => by
  obtain ⟨-, -, e⟩ | ⟨-, -, e⟩ | ⟨-, rfl⟩ := dpFinish_next e
  · exact good_exceptionReturn (.of_inv h) _ t e
  · exact good_writePc (.of_inv h) _ t e
  · exact inv_advance ((quiet_written s b rd _ _ _ _ _).inv h)

theorem good_dpCompare {s : State} (h : s.Inv) (r : Sum) : Good (dpCompare s r) :=
  good_advance h (quiet_setFlags s _ _ _ _)

theorem good_mulFinish {s : State} (h : s.Inv) (b : Bool) (rd : Reg) (r : Word) : Good (mulFinish s b rd r) :=
  good_advance h (quiet_written s b rd r _ _ _ _)

theorem good_mulLongFinish {s : State} (h : s.Inv) (b : Bool) (hi lo : Reg) (p : BitVec 64) :
    Good (mulLongFinish s b hi lo p) :=
  have pair := (quiet_setReg s hi (p.extractLsb' 32 32)).trans (quiet_setReg _ lo (p.extractLsb' 0 32))
  good_advance h (.ite (pair.trans (quiet_setFlags _ _ _ _ _)) pair)

theorem good_dspFinish {s : State} (h : s.Inv) (rd : Reg) (r : Word) (q : Bool) : Good (dspFinish s rd r q) :=
  good_advance h ((quiet_setReg s rd r).trans (quiet_orQ _ q))

theorem good_miaFinish {s : State} (h : s.Inv) (acc : BitVec 3) (rs rm : Reg) (p : Int) :
    Good (miaFinish acc rs rm p s) :=
  good_needCp h 0 <| good_orRefuse _ _ <| good_orRefuse _ _ <| good_advance h ⟨id, rfl, rfl, rfl, id⟩

theorem good_flagged {s : State} (h : s.Inv) (rd : Reg) (v : Word) (n z c w : Bool) :
    Good (.next ((s.setReg rd v).setFlags n z c w).advance) :=
  good_advance h ((quiet_setReg s rd v).trans (quiet_setFlags _ n z c w))

theorem good_thumbHigh {s : State} (h : s.Inv) (d : Reg) (v : Word) : Good (thumbHigh s d v) := by
  unfold thumbHigh
  split
  · exact good_writePc (.of_inv h) v
  · exact good_advance h (quiet_setReg s d v)

/-! Status registers -/

theorem overlay_getLsbD (m old v : Word) {i : Nat} (hi : i < 32) :
    (overlay m old v).getLsbD i = if m.getLsbD i then v.getLsbD i else old.getLsbD i := by
  cases e : m.getLsbD i <;> simp [overlay, -BitVec.getLsbD_eq_getElem, e, hi]

theorem psrMask_control (f : BitVec 4) {i : Nat} (hi : i < 8) : (psrMask f).getLsbD i = f.getLsbD 0 := by
  have flags : ∀ i : Fin 8, (0xF8000000#32).getLsbD i = false := by decide
  have control : ∀ i : Fin 8, (0x000000FF#32).getLsbD i = true := by decide
  have flags := flags ⟨i, hi⟩
  have control := control ⟨i, hi⟩
  unfold psrMask
  rw [BitVec.getLsbD_or]
  cases f.getLsbD 3 <;> cases f.getLsbD 0 <;> simp [-BitVec.getLsbD_eq_getElem, flags, control]

theorem flagMask_control (m : Word) {i : Nat} (hi : i < 8) : (m &&& 0xF8000000).getLsbD i = false := by
  have flags : ∀ i : Fin 8, (0xF8000000 : Word).getLsbD i = false := by decide
  rw [BitVec.getLsbD_and, flags ⟨i, hi⟩, Bool.and_false]

/-- A write of the CPSR whose mask leaves the control bits. -/
theorem quiet_overlay {s : State} {m v : Word} (h : ∀ i, i < 8 → m.getLsbD i = false) :
    Quiet s { s with cpsr := overlay m s.cpsr v } := by
  have low {i : Nat} (hi : i < 8) : (overlay m s.cpsr v).getLsbD i = s.cpsr.getLsbD i := by
    rw [overlay_getLsbD _ _ _ (by omega), h i hi]; rfl
  refine ⟨id, ?_, low (by decide), rfl, id⟩
  apply BitVec.eq_of_getLsbD_eq
  intro i hi
  simp only [State.mode, BitVec.getLsbD_extractLsb', Nat.zero_add]
  rw [low (by omega)]

theorem good_writeCpsr {s : State} (h : s.Inv) (f : BitVec 4) (v : Word) : Good (s.writeCpsr f v) := by
  unfold State.writeCpsr
  split
  · intro t e
    obtain ⟨thumb, e⟩ := orRefuse_next e
    obtain ⟨mode, e⟩ := orRefuse_next e
    obtain ⟨-, e⟩ := orRefuse_next e
    cases e
    cases control : f.getLsbD 0 with
    | false => exact inv_advance ((quiet_overlay fun i hi => by rw [psrMask_control f hi, control]).inv h)
    | true =>
      simp only [control, Bool.not_true, Bool.false_or, beq_iff_eq] at thumb mode
      have low {i : Nat} (hi : i < 8) : (overlay (psrMask f) s.cpsr v).getLsbD i = v.getLsbD i := by
        rw [overlay_getLsbD _ _ _ (by omega), psrMask_control f hi, control, if_pos rfl]
      have newMode : (overlay (psrMask f) s.cpsr v).extractLsb' 0 5 = v.extractLsb' 0 5 := by
        apply BitVec.eq_of_getLsbD_eq
        intro i hi
        rw [BitVec.getLsbD_extractLsb', BitVec.getLsbD_extractLsb', low (by omega)]
      have newThumb : (overlay (psrMask f) s.cpsr v).getLsbD 5 = s.thumb := (low (by decide)).trans thumb
      refine inv_advance ((inv_iff _).mpr ⟨⟨h.memory, ?_, h.reserved⟩, ?_⟩)
      · show (isSoftwareMode (BitVec.extractLsb' 0 5 (overlay _ _ _)) || _) = true
        rw [newMode, mode]; rfl
      · show alignedFor (BitVec.getLsbD (overlay _ _ _) 5) s.pc = true
        rw [newThumb]; exact ((inv_iff s).mp h).2
  · exact good_advance h (quiet_overlay fun i hi => flagMask_control _ hi)

theorem good_writePsr {s : State} (h : s.Inv) (r : Bool) (f : BitVec 4) (v : Word) : Good (s.writePsr r f v) := by
  unfold State.writePsr
  split
  · unfold State.writeSpsr
    split
    · exact good_refused _
    · exact good_advance h (quiet_setSpsrOf s _ _)
  · exact good_writeCpsr h f v

/-! Operations of the memory and coprocessor monad -/

/-- An operation run from `s` leaves what the invariant asks for, whether it ends with a value or not. -/
def CalmAt {α : Type} (m : Exec α) (s : State) : Prop := Quiet s (leaves (m s))

/-- The same from every state. -/
def Calm {α : Type} (m : Exec α) : Prop := ∀ s, CalmAt m s

theorem calm_of_side {α : Type} {m : Exec α} (h : Side m) : Calm m := fun s => .of_memSide (h s)

theorem calmAt_pure {α : Type} (a : α) (s : State) : CalmAt (pure a : Exec α) s := .refl s

theorem calmAt_throw {α : Type} (e : Stop) (s : State) : CalmAt (throw e : Exec α) s := .refl s

theorem calmAt_require (c : Bool) (r : Refusal) (s : State) : CalmAt (require c r) s := by cases c <;> exact .refl s

theorem calmAt_bind {α β : Type} {m : Exec α} {k : α → Exec β} {s : State} (hm : CalmAt m s)
    (hk : ∀ a t, CalmAt (k a) t) : CalmAt (m >>= k) s := by
  unfold CalmAt at *
  simp only [bind, EStateM.bind]
  cases e : m s with
  | ok a t => rw [e] at hm; exact hm.trans (hk a t)
  | error x t => rw [e] at hm; exact hm

theorem calmAt_get {β : Type} {k : State → Exec β} {s : State} (h : CalmAt (k s) s) : CalmAt (get >>= k) s := h

theorem calmAt_require_bind {β : Type} {c : Bool} {r : Refusal} {k : Unit → Exec β} {s : State}
    (h : CalmAt (k ()) s) : CalmAt (require c r >>= k) s := by
  cases c
  · exact .refl s
  · exact h

theorem calmAt_set {s t : State} (h : Quiet s t) : CalmAt (set t : Exec Unit) s := h

theorem calmAt_set_bind {β : Type} {k : Unit → Exec β} {s t : State} (h : Quiet s t) (hk : CalmAt (k ()) t) :
    CalmAt ((set t : Exec Unit) >>= k) s := Quiet.trans h hk

theorem calm_modify {f : State → State} (h : ∀ s, Quiet s (f s)) : Calm (modify f : Exec Unit) := h

theorem good_withValue {α : Type} {b : Bool} {m : Exec α} {s : State}
    {k : α → State → Host.Outcome State Fault Refusal} (h : s.Inv) (hm : CalmAt m s)
    (hk : ∀ a t, Quiet s t → Good (k a t)) : Good (withValue b m s k) := fun t e => by
  have left {x : EStateM.Result Stop State α} (hx : m s = x) : Quiet s (leaves x) := hx ▸ hm
  obtain ⟨a, u, ok, e⟩ | ⟨fs, dom, far, u, err, rfl⟩ | ⟨u, err, e⟩ := withValue_next e
  · exact hk a u (left ok) t e
  · exact inv_dataAbort ((left err).inv h) fs dom far b
  · exact good_undefined ((left err).inv h) t e

theorem good_runExec {m : Exec Unit} {s : State} (h : s.Inv) (hm : CalmAt m s) : Good (runExec m s) :=
  good_withValue h hm fun _ _ q => good_advance h q

end Sys2Proof.Keeping

/-!
PROOF. The coprocessor registers and functions keep the invariant: a write of a register with reserved bits masks them,
and no function of CP15 reaches a status register or the pc.
-/
namespace Sys2Proof.Keeping
open Sys2Proof Sys2Proof.Machine

/-- Reading the register leaves what the invariant asks for. -/
def QuietRead (r : CpRead) : Prop := ∀ s, Quiet s (r s).2

/-- Writing the register leaves what the invariant asks for. -/
def QuietWrite (w : CpWrite) : Prop := ∀ s v t, w s v = .ok t → Quiet s t

theorem quietRead_plain (f : State → Word) : QuietRead (plainRead f) := .refl

theorem quietRead_reserved (r : Word) (f : State → Word) : QuietRead (reservedRead r f) := quiet_drawn

theorem quietWrite_plain {f : State → Word → State} (h : ∀ s v, Quiet s (f s v)) : QuietWrite (plainWrite f) :=
  fun s v _ e => by cases e; exact h s v

theorem quietWrite_reserved {w : CpWrite} (r : Word) (h : QuietWrite w) : QuietWrite (reservedWrite r w) :=
  fun s v t e => h s v t (reservedWrite_ok e).2

theorem quietWrite_haltGate {w : CpWrite} (h : QuietWrite w) : QuietWrite (haltGate w) := fun s v t e => by
  unfold haltGate at e
  split at e
  · cases e; exact .refl s
  · exact h s v t e

/-! CP14 and CP7 -/

theorem quiet_freeCounters (s : State) : Quiet s s.freeCounters := ⟨id, rfl, rfl, rfl, id⟩

theorem quiet_setDbg (s : State) (f : Debug → Debug) (h : (f s.dbg).dcsr = s.dbg.dcsr) : Quiet s (s.setDbg f) :=
  quiet_dbg s _ h

theorem quietWrite_pmnc : QuietWrite writePmnc :=
  quietWrite_reserved _ <| quietWrite_plain fun s v => by
    refine Quiet.trans ?_ (quiet_setPmu _ _)
    refine Quiet.step ?_ ((quiet_setPmu _ _).trans (quiet_drawn _))
    refine Quiet.step ?_ (quiet_setPmu _ _)
    exact .ite (quiet_freeCounters s) (.ite (quiet_setPmu s _) (.refl s))

theorem quietWrite_evtsel : QuietWrite writeEvtsel :=
  quietWrite_plain fun s _ => (Quiet.ite (quiet_freeCounters s) (.refl s)).trans (quiet_setPmu _ _)

theorem quietWrite_pmn (k : Fin 4) : QuietWrite (writePmn k) :=
  quietWrite_plain fun s _ => .ite (quiet_freeCounters s) (quiet_setPmu s _)

theorem quietWrite_ccnt : QuietWrite writeCcnt :=
  quietWrite_plain fun s _ => .ite ((quiet_drawn s).trans (quiet_setPmu _ _)) (quiet_setPmu s _)

theorem quietWrite_pwrmode : QuietWrite writePwrmode :=
  quietWrite_reserved _ fun s v t e => by
    obtain ⟨-, e⟩ := guarded_ok e
    cases e
    exact ⟨id, rfl, rfl, rfl, id⟩

theorem quietWrite_tx : QuietWrite writeTx := quietWrite_plain fun s _ => quiet_setDbg s _ rfl

theorem quietWrite_dcsr : QuietWrite writeDcsr :=
  quietWrite_haltGate <| quietWrite_reserved _ <| quietWrite_plain fun s v => by
    have scrambled (c : Bool) : Quiet s (if c then s.scrambleTrace else s) := .ite (quiet_scrambleTrace s) (.refl s)
    have same (c : Bool) : (if c then s.scrambleTrace else s).dbg.dcsr = s.dbg.dcsr := by cases c <;> rfl
    refine Quiet.step ?_ (quiet_setDbg _ _ rfl)
    refine (scrambled _).trans (quiet_dcsr _ fun h => ?_)
    rw [same] at h
    exact or_reserved (kept_reserved h) (masked_reserved (by decide))

theorem quietWrite_chkpt {f : Word → Debug → Debug} (h : ∀ v d, (f v d).dcsr = d.dcsr) : QuietWrite (writeChkpt f) :=
  quietWrite_plain fun s v => .ite (quiet_scrambleTrace s) (quiet_setDbg s _ (h v _))

theorem quietWrite_txrxctrl : QuietWrite writeTxrxctrl :=
  quietWrite_reserved _ <| quietWrite_plain fun s _ => quiet_setDbg s _ rfl

theorem quietRead_rx : QuietRead readRx := fun s => by
  unfold readRx
  split
  · exact ⟨id, rfl, rfl, rfl, id⟩
  · exact quiet_drawn s

theorem quietRead_tbreg : QuietRead readTbreg := fun s => by
  unfold readTbreg
  split
  · exact (quiet_drawn s).trans (quiet_scrambleTrace _)
  · exact ⟨id, rfl, rfl, rfl, id⟩

theorem quietRead_chkpt (f : Debug → Word) : QuietRead (readChkpt f) := fun s => by
  unfold readChkpt
  split
  · exact (quiet_drawn s).trans (quiet_scrambleTrace _)
  · exact .refl s

theorem quietRead_l2CacheType : QuietRead l2CacheType := fun s => by
  unfold l2CacheType
  split
  · exact .refl s
  · exact .refl s
  · exact quiet_drawn s

theorem quietWrite_cclkcfg : QuietWrite cclkcfgWrite :=
  quietWrite_reserved _ <| quietWrite_plain fun _ _ => ⟨id, rfl, rfl, rfl, id⟩

/-! CP15 -/

theorem quiet_keepView (s : State) : Quiet s s.keepView := ⟨id, rfl, rfl, rfl, id⟩

/-- A write of CP15 that keeps the reserved bits. -/
theorem quiet_setCp15 (s : State) (f : Cp15 → Cp15)
    (h : s.reservedOk = true → (s.setCp15 f).reservedOk = true) : Quiet s (s.setCp15 f) := ⟨id, rfl, rfl, rfl, h⟩

/-- A write of CP15 outside the registers with reserved bits. -/
theorem quiet_setCp15_plain (s : State) (f : Cp15 → Cp15) (ctrl : ∀ c, (f c).ctrl = c.ctrl)
    (aux : ∀ c, (f c).auxctrl = c.auxctrl) (ttb : ∀ c, (f c).ttbase = c.ttbase) (fsr : ∀ c, (f c).fsr = c.fsr)
    (dbcon : ∀ c, (f c).dbcon = c.dbcon) : Quiet s (s.setCp15 f) :=
  quiet_setCp15 s f fun h => by
    rw [reservedOk_iff] at *
    simp only [State.setCp15_cp15, State.setCp15_dbg, ctrl, aux, ttb, fsr, dbcon]
    exact h

theorem quiet_drainIf (s : State) (b : Bool) : Quiet s (s.drainIf b) := .of_memSide (memSide_drainIf s b)

theorem quietWrite_control : QuietWrite writeControl :=
  quietWrite_reserved _ fun s v t e => by
    obtain ⟨-, e⟩ := guarded_ok e
    obtain ⟨-, e⟩ := guarded_ok e
    obtain ⟨-, e⟩ := guarded_ok e
    obtain ⟨-, e⟩ := guarded_ok e
    cases e
    refine ((quiet_drainIf s _).trans (quiet_keepView _)).trans (quiet_setCp15 _ _ fun h => ?_)
    obtain ⟨-, rest⟩ := (reservedOk_iff _).mp h
    refine (reservedOk_iff _).mpr ⟨?_, rest⟩
    show ((v &&& 0x04003B87) ||| 0x00000078) &&& ~~~(0x04003B87 : Word) = 0x00000078
    rw [BitVec.and_comm, BitVec.and_or_distrib_left, BitVec.and_comm _ (v &&& _), masked_reserved (by decide)]
    decide

theorem quietWrite_auxControl : QuietWrite writeAuxControl :=
  quietWrite_reserved _ fun s v t e => by
    obtain ⟨-, e⟩ := guarded_ok e
    obtain ⟨-, e⟩ := guarded_ok e
    cases e
    refine ((quiet_drainIf s _).trans (quiet_keepView _)).trans (quiet_setCp15 _ _ fun h => ?_)
    obtain ⟨ctrl, -, rest⟩ := (reservedOk_iff _).mp h
    exact (reservedOk_iff _).mpr ⟨ctrl, masked_reserved (by decide), rest⟩

theorem quietWrite_ttBase : QuietWrite writeTtBase :=
  quietWrite_reserved _ fun s v t e => by
    obtain ⟨-, e⟩ := guarded_ok e
    cases e
    refine (quiet_keepView s).trans (quiet_setCp15 _ _ fun h => ?_)
    obtain ⟨ctrl, aux, -, rest⟩ := (reservedOk_iff _).mp h
    exact (reservedOk_iff _).mpr ⟨ctrl, aux, masked_reserved (by decide), rest⟩

theorem quietWrite_fsr : QuietWrite fsrWrite :=
  quietWrite_reserved _ <| quietWrite_plain fun s _ => quiet_setCp15 s _ fun h => by
    obtain ⟨ctrl, aux, ttb, -, rest⟩ := (reservedOk_iff _).mp h
    exact (reservedOk_iff _).mpr ⟨ctrl, aux, ttb, masked_reserved (by decide), rest⟩

theorem quietWrite_dbcon : QuietWrite dbconWrite :=
  quietWrite_haltGate <| quietWrite_reserved _ <| quietWrite_plain fun s _ => quiet_setCp15 s _ fun h => by
    obtain ⟨ctrl, aux, ttb, fsr, -, rest⟩ := (reservedOk_iff _).mp h
    exact (reservedOk_iff _).mpr ⟨ctrl, aux, ttb, fsr, masked_reserved (by decide), rest⟩

theorem quietWrite_dacr : QuietWrite dacrWrite :=
  quietWrite_plain fun s _ => (quiet_keepView s).trans
    (quiet_setCp15_plain _ _ (fun _ => rfl) (fun _ => rfl) (fun _ => rfl) (fun _ => rfl) (fun _ => rfl))

theorem quietWrite_far : QuietWrite farWrite :=
  quietWrite_plain fun s _ => quiet_setCp15_plain s _ (fun _ => rfl) (fun _ => rfl) (fun _ => rfl) (fun _ => rfl) (fun _ => rfl)

theorem quietWrite_processId : QuietWrite processIdWrite :=
  quietWrite_plain fun s _ => ((quiet_keepView s).trans
    (quiet_setCp15_plain _ _ (fun _ => rfl) (fun _ => rfl) (fun _ => rfl) (fun _ => rfl) (fun _ => rfl))).trans
      ⟨id, rfl, rfl, rfl, id⟩

theorem quietWrite_ibr0 : QuietWrite ibr0Write := quietWrite_haltGate fun s v t e => by
  obtain ⟨-, e⟩ := guarded_ok e
  cases e
  exact (quiet_keepView s).trans
    (quiet_setCp15_plain _ _ (fun _ => rfl) (fun _ => rfl) (fun _ => rfl) (fun _ => rfl) (fun _ => rfl))

theorem quietWrite_ibr1 : QuietWrite ibr1Write := quietWrite_haltGate fun s v t e => by
  obtain ⟨-, e⟩ := guarded_ok e
  cases e
  exact (quiet_keepView s).trans
    (quiet_setCp15_plain _ _ (fun _ => rfl) (fun _ => rfl) (fun _ => rfl) (fun _ => rfl) (fun _ => rfl))

theorem quietWrite_dbr0 : QuietWrite dbr0Write := quietWrite_haltGate fun s v t e => by
  obtain ⟨-, e⟩ := guarded_ok e
  cases e
  exact quiet_setCp15_plain s _ (fun _ => rfl) (fun _ => rfl) (fun _ => rfl) (fun _ => rfl) (fun _ => rfl)

theorem quietWrite_dbr1 : QuietWrite dbr1Write := quietWrite_haltGate fun s v t e => by
  obtain ⟨-, e⟩ := guarded_ok e
  cases e
  exact quiet_setCp15_plain s _ (fun _ => rfl) (fun _ => rfl) (fun _ => rfl) (fun _ => rfl) (fun _ => rfl)

theorem quietWrite_cpar : QuietWrite cparWrite :=
  quietWrite_reserved _ <| quietWrite_plain fun s _ =>
    quiet_setCp15_plain s _ (fun _ => rfl) (fun _ => rfl) (fun _ => rfl) (fun _ => rfl) (fun _ => rfl)

theorem quietWrite_dLock : QuietWrite writeDLock :=
  quietWrite_reserved _ <| quietWrite_plain fun s _ =>
    quiet_setCp15_plain s _ (fun _ => rfl) (fun _ => rfl) (fun _ => rfl) (fun _ => rfl) (fun _ => rfl)

theorem quietWrite_ignore : QuietWrite ignoreWrite := quietWrite_plain fun s _ => .refl s

/-! The instructions that transfer a register -/

theorem good_finishWrite {s : State} (h : s.Inv) {w : CpWrite} (hw : QuietWrite w) (v : Word) :
    Good (finishWrite (w s v)) := fun t e => by
  obtain ⟨u, ok, rfl⟩ := finishWrite_next e
  exact inv_advance ((hw s v u ok).inv h)

theorem good_cpWrite {s : State} (h : s.Inv) (c : Cond) (rd : Reg) {w : CpWrite} (hw : QuietWrite w) :
    Good (cpWrite c rd w s) :=
  good_whenCond h c <| good_needPrivilege h <| good_orRefuse _ _ <| good_finishWrite h hw _

theorem good_cp7Write {s : State} (h : s.Inv) (c : Cond) (rd : Reg) {w : CpWrite} (hw : QuietWrite w) :
    Good (cp7Write c rd w s) :=
  good_whenCond h c <| good_needPrivilege h <| good_finishWrite h hw _

theorem good_cp15Read {s : State} (h : s.Inv) (c : Cond) (rd : Reg) {r : CpRead} (hr : QuietRead r) :
    Good (cp15Read c rd r s) :=
  good_whenCond h c <| good_needPrivilege h <| good_orRefuse _ _ <| good_advance h ((hr s).trans (quiet_setReg _ _ _))

theorem good_cp14Read {s : State} (h : s.Inv) (c : Cond) (rd : Reg) {r : CpRead} (hr : QuietRead r) :
    Good (cp14Read c rd r s) :=
  good_whenCond h c <| good_needPrivilege h <| good_advance h <|
    .ite ((hr s).trans (quiet_setFlags _ _ _ _ _)) ((hr s).trans (quiet_setReg _ _ _))

theorem good_cp15Function {s : State} (h : s.Inv) (c : Cond) (rd : Reg) {f : Word → Exec Unit}
    (hf : ∀ v, Calm (f v)) : Good (cp15Function c rd f s) :=
  good_whenCond h c <| good_needPrivilege h <| good_orRefuse _ _ <| good_runExec h (hf _ s)

theorem good_cp15UserFunction {s : State} (h : s.Inv) (c : Cond) (rd : Reg) {f : Word → Exec Unit}
    (hf : ∀ v, Calm (f v)) : Good (cp15UserFunction c rd f s) :=
  good_whenCond h c <| good_orRefuse _ _ <| good_runExec h (hf _ s)

/-! The functions of CP15 -/

theorem quiet_markForFetch (s : State) : Quiet s s.markForFetch := ⟨id, rfl, rfl, rfl, id⟩

theorem quiet_invalidateICache (s : State) : Quiet s s.invalidateICache := ⟨id, rfl, rfl, rfl, id⟩

theorem quiet_invalidateBtb (s : State) : Quiet s s.invalidateBtb := ⟨id, rfl, rfl, rfl, id⟩

theorem quiet_invalidateDCache (s : State) : Quiet s s.invalidateDCache := ⟨id, rfl, rfl, rfl, id⟩

theorem quiet_prefetchFlush (s : State) : Quiet s s.prefetchFlush := ⟨id, rfl, rfl, rfl, id⟩

theorem quiet_invalidateILine (s : State) (mva : Word) : Quiet s (s.invalidateILine mva) := by
  unfold State.invalidateILine
  dsimp only
  split <;> exact ⟨id, rfl, rfl, rfl, id⟩

theorem quiet_invalidateDLine (s : State) (mva : Word) : Quiet s (s.invalidateDLine mva) := by
  unfold State.invalidateDLine
  split
  · exact .of_memSide (memSide_dDrop s _)
  · exact .refl s

theorem quiet_cleanDLine (s : State) (mva : Word) : Quiet s (s.cleanDLine mva) := by
  unfold State.cleanDLine
  split
  · exact .of_memSide (memSide_dClean s _)
  · exact .refl s

theorem calm_dFunction {f : Word → State → State} (h : ∀ v s, Quiet s (f v s)) (v : Word) : Calm (dFunction f v) :=
  fun s => calmAt_get <| calmAt_require_bind <| calmAt_set (h v s)

theorem calm_dSetWayFunction {f : Nat → State → State} (h : ∀ k s, Quiet s (f k s)) (v : Word) :
    Calm (dSetWayFunction f v) := fun s => calmAt_get <| calmAt_require_bind <| by
  split
  · exact calmAt_throw _ s
  · split
    · split
      · exact calmAt_pure _ s
      · exact calmAt_set (h _ s)
    · exact calmAt_pure _ s

theorem quiet_spoilNext (s : State) (line : BitVec 31) : Quiet s (s.spoilNext line) := by
  have released := (memSide_releaseLine s line).trans (memSide_releaseOut _ line)
  have spoiled (u : State) (d : BitVec 256) : Quiet u { u.drawn with mem := memWriteLine u.mem line wholeLine d } :=
    ⟨memWriteLine_wf line wholeLine d, rfl, rfl, rfl, id⟩
  unfold State.spoilNext
  dsimp only
  split
  · exact ((Quiet.of_memSide released).trans (spoiled _ _)).trans (.of_memSide (memSide_l2Put _ _ _))
  · exact (Quiet.of_memSide released).trans (spoiled _ _)

theorem quiet_allocateDisabled (s : State) (mva : Word) : Quiet s (s.allocateDisabled mva) := by
  unfold State.allocateDisabled
  split
  · exact .ite ((Quiet.of_memSide (memSide_spoilLine s _ _)).trans (quiet_drawn _)) (quiet_drawn s)
  · exact .refl s

theorem calm_lineAllocate (va : Word) : Calm (lineAllocate va) := fun s => calmAt_get <| by
  refine calmAt_bind ?_ fun m t => calmAt_get ?_
  · have h := side_translate (s.pidRemap va) .write s.privileged s
    unfold SideAt at h
    unfold CalmAt
    dsimp only
    split <;> (rename_i e; rw [e] at h)
    · exact .of_memSide (h.trans (memSide_watch _ _ _ _))
    · exact .of_memSide h
  · split
    · refine calmAt_require_bind (calm_modify (fun u => ?_) t)
      exact (Quiet.ite (quiet_spoilNext u _) (.refl u)).trans (.of_memSide (memSide_dAllocate _ _ _ _))
    · split
      · exact calm_modify (fun u => quiet_allocateDisabled u _) t
      · exact calmAt_pure _ t

theorem calm_l2Function {f : Exec Unit} (h : Calm f) : Calm (l2Function f) := fun s => calmAt_get <| by
  split
  · exact calmAt_pure _ s
  · exact calmAt_require_bind (h s)

theorem quiet_l2CleanBy {send : OutEntry → State → State} (h : ∀ e s, Quiet s (send e s)) (k : Nat) (s : State) :
    Quiet s (State.l2CleanBy send k s) := by
  unfold State.l2CleanBy
  split
  · rename_i l _
    have logged := memSide_l2Error s k l
    dsimp only
    split
    · split
      · exact ((Quiet.of_memSide logged).trans (.of_memSide (memSide_l2Put _ _ _))).trans (h _ _)
      · exact .of_memSide (logged.trans (memSide_pend _ _))
    · exact .refl s
  · exact .refl s

theorem quiet_l2Clean (k : Nat) (s : State) : Quiet s (s.l2Clean k) :=
  quiet_l2CleanBy (fun _ u => .of_memSide (memSide_busWriteLine u _ _ _ _)) k s

theorem quiet_l2CleanOut (k : Nat) (s : State) : Quiet s (s.l2CleanOut k) :=
  quiet_l2CleanBy (fun _ u => .of_memSide (memSide_l2Out u _)) k s

theorem quiet_l2Drop (s : State) (k : Nat) : Quiet s (s.l2Drop k) := .of_memSide (memSide_l2Drop s k)

theorem calm_l2LineFunction {f : Nat → State → State} (h : ∀ k s, Quiet s (f k s)) (mva : Word) :
    Calm (l2LineFunction f mva) := calm_l2Function fun s => by
  refine calmAt_bind (calm_of_side (side_l2Translate mva) s) fun m t => calmAt_require_bind ?_
  refine calm_modify (fun u => ?_) t
  have released : Quiet u _ :=
    .of_memSide ((memSide_releaseLine u (blockOf m.pa)).trans (memSide_releaseOut _ (blockOf m.pa)))
  dsimp only
  split
  · exact released.trans (h _ _)
  · exact released

theorem calm_l2SetWayFunction {f : Nat → State → State} (h : ∀ k s, Quiet s (f k s)) (v : Word) :
    Calm (l2SetWayFunction f v) := calm_l2Function fun s => calmAt_get <| by
  split
  · exact calmAt_throw _ s
  · split
    · split
      · exact calmAt_pure _ s
      · exact calmAt_set (h _ s)
    · exact calmAt_pure _ s

theorem calm_l2Lock (fetch : Bool) (mva : Word) : Calm (l2Lock fetch mva) := calm_l2Function fun s => by
  refine calmAt_bind (calm_of_side (side_l2Translate mva) s) fun m t => calmAt_require_bind ?_
  refine calmAt_bind (calm_modify (fun u => .of_memSide (memSide_releaseLine u _)) t) fun _ u => ?_
  refine calmAt_get (calmAt_require_bind ?_)
  have read := memSide_busReadLine u (lineBase (blockOf m.pa))
  split
  · exact calmAt_set (.of_memSide ((memSide_l2Put u _ _).trans (memSide_l2Touch _ _)))
  · split
    · split <;> (rename_i e; rw [e] at read)
      · exact calmAt_set (.of_memSide (read.trans (memSide_l2Allocate _ _)))
      · exact calmAt_set (.of_memSide (read.trans (memSide_pend _ _)))
    · exact calmAt_set (.of_memSide (memSide_l2Allocate u _))

theorem calm_l2Unlock : Calm l2Unlock := calm_l2Function (calm_modify fun _ => ⟨id, rfl, rfl, rfl, id⟩)

theorem calm_undoAbort {α : Type} {m : Exec α} (h : Calm m) : Calm (undoAbort m) := fun s => by
  have h := h s
  unfold CalmAt undoAbort at *
  split
  · exact .of_memSide (memSide_onlyErrors s _)
  · exact h

theorem calm_lockAbort {α : Type} {m : Exec α} (h : Calm m) : Calm (lockAbort m) := fun s => by
  have h := calm_undoAbort h s
  unfold CalmAt lockAbort at *
  split
  · rename_i e; rw [e] at h; exact h
  · exact h

theorem calm_lockILine (mva : Word) : Calm (lockILine mva) := fun s => calmAt_get <| calmAt_require_bind <| by
  refine calmAt_bind (calm_lockAbort (fun t => ?_) s) fun p t => ?_
  · refine calmAt_bind ?_ fun m u => calmAt_require_bind (calmAt_get ?_)
    · split
      · exact calm_of_side ((side_tlbEntry mva .fetch).bind fun e => (side_entryAttrs e).bind fun _ _ => sideAt_pure _ _) t
      · exact calmAt_pure _ t
    · refine calmAt_set_bind (.of_memSide (memSide_fetchRead u m)) ?_
      split
      · exact calmAt_bind (calm_of_side (side_lookAt _) _) fun _ _ => calmAt_pure _ _
      · exact calmAt_throw _ _
  · obtain ⟨m, d⟩ := p
    refine calm_modify (fun _ => ?_) t
    exact ⟨id, rfl, rfl, rfl, id⟩

theorem calm_unlockICache : Calm unlockICache := fun _ => calmAt_get <| calmAt_require_bind <|
  calmAt_set ⟨id, rfl, rfl, rfl, id⟩

theorem calm_unlockDCache : Calm unlockDCache := fun _ => calmAt_get <| calmAt_require_bind <|
  calmAt_set ⟨id, rfl, rfl, rfl, id⟩

theorem quiet_mapITlb (s : State) (f : Tlb → Tlb) : Quiet s (s.mapITlb f) := ⟨id, rfl, rfl, rfl, id⟩

theorem quiet_mapDTlb (s : State) (f : Tlb → Tlb) : Quiet s (s.mapDTlb f) := ⟨id, rfl, rfl, rfl, id⟩

theorem calm_lockTlb {side : State → Tlb} {put : State → (Tlb → Tlb) → State} (h : ∀ s f, Quiet s (put s f))
    (mva : Word) : Calm (lockTlb side put mva) := fun s => calmAt_get <| calmAt_require_bind <|
  calmAt_bind (calm_lockAbort (calm_of_side (side_tableWalk mva)) s) fun _ t => calm_modify (fun u => h u _) t

theorem calm_unlockTlb {put : State → (Tlb → Tlb) → State} (h : ∀ s f, Quiet s (put s f)) : Calm (unlockTlb put) :=
  fun s => calmAt_get <| calmAt_require_bind <| calmAt_set (h s _)

theorem calm_invalidateTlbEntry {side : State → Tlb} {put : State → (Tlb → Tlb) → State}
    (h : ∀ s f, Quiet s (put s f)) (mva : Word) : Calm (invalidateTlbEntry side put mva) :=
  fun s => calmAt_get <| calmAt_require_bind <| calmAt_set (h s _)

end Sys2Proof.Keeping

/-!
PROOF. Every instruction keeps the invariant: loads, stores and branches, and the table of all instructions.
-/
namespace Sys2Proof.Keeping
open Sys2Proof Sys2Proof.Machine

/-! Loads and stores -/

theorem quiet_writeBack (s : State) (rn : Reg) (wb : Option Word) : Quiet s (s.writeBack rn wb) := by
  cases wb
  · exact .refl s
  · exact quiet_setReg s rn _

theorem quiet_baseUpdate (s : State) (rn : Reg) (wb : Option Word) : Quiet s (s.baseUpdate rn wb) := by
  cases wb
  · exact .refl s
  · exact quiet_setReg s rn _

theorem quiet_storeRead (s : State) (rd rn : Reg) (wb : Option Word) : Quiet s (s.storeRead rd rn wb) :=
  .ite (quiet_drawn s) (.refl s)

theorem good_finishLoad {s : State} (h : s.Inv) (rd rn : Reg) (wb : Option Word) (v : Word) :
    Good (finishLoad rd rn wb v s) := fun t e => by
  obtain ⟨-, e⟩ | ⟨-, rfl⟩ | ⟨-, rfl⟩ := finishLoad_next e
  · exact good_interwork ((quiet_writeBack s rn wb).sound (.of_inv h)) v t e
  · exact inv_advance (((quiet_setReg s rd _).trans (quiet_drawn _)).inv h)
  · exact inv_advance (((quiet_setReg s rd v).trans (quiet_writeBack _ rn wb)).inv h)

theorem good_finishStore {s : State} (h : s.Inv) (rn : Reg) (wb : Option Word) : Good (finishStore rn wb () s) :=
  good_advance h (quiet_writeBack s rn wb)

section Transfers
variable {s : State} (h : s.Inv) (rd rn : Reg) (a : Address)
include h

theorem good_loadWordTo (user : Bool) : Good (loadWordTo user rd rn a s) :=
  good_orRefuse _ _ <| good_withValue h (calm_of_side (side_loadWord _ _) s) fun v _ q => good_finishLoad (q.inv h) _ _ _ v

theorem good_loadByteTo (user : Bool) : Good (loadByteTo user rd rn a s) :=
  good_withValue h (calm_of_side (side_loadByte _ _) s) fun _ _ q => good_finishLoad (q.inv h) _ _ _ _

theorem good_loadSignedByteTo : Good (loadSignedByteTo rd rn a s) :=
  good_withValue h (calm_of_side (side_loadByte _ _) s) fun _ _ q => good_finishLoad (q.inv h) _ _ _ _

theorem good_loadHalfTo : Good (loadHalfTo rd rn a s) :=
  good_withValue h (calm_of_side (side_loadHalf _) s) fun _ _ q => good_finishLoad (q.inv h) _ _ _ _

theorem good_loadSignedHalfTo : Good (loadSignedHalfTo rd rn a s) :=
  good_withValue h (calm_of_side (side_loadHalf _) s) fun _ _ q => good_finishLoad (q.inv h) _ _ _ _

theorem good_storeWordFrom (user : Bool) : Good (storeWordFrom user rd rn a s) :=
  have read := (quiet_storeRead s rd rn a.wb).inv h
  good_withValue read (calm_of_side (side_storeWord _ _ _) _) fun _ _ q => good_finishStore (q.inv read) _ _

theorem good_storeByteFrom (user : Bool) : Good (storeByteFrom user rd rn a s) :=
  have read := (quiet_storeRead s rd rn a.wb).inv h
  good_withValue read (calm_of_side (side_storeByte _ _ _) _) fun _ _ q => good_finishStore (q.inv read) _ _

theorem good_storeHalfFrom : Good (storeHalfFrom rd rn a s) :=
  have read := (quiet_storeRead s rd rn a.wb).inv h
  good_withValue read (calm_of_side (side_storeHalf _ _) _) fun _ _ q => good_finishStore (q.inv read) _ _

end Transfers

theorem good_doubleOk {s : State} {body : Host.Outcome State Fault Refusal} (h : s.Inv) (p i w : Bool)
    (rn rd lo : Reg) (k : Good body) : Good (doubleOk p i w rn rd lo s body) := by
  unfold doubleOk
  split
  · exact good_undefined h
  · exact good_orRefuse _ _ <| good_orRefuse _ _ <| good_orRefuse _ _ k

theorem good_am3Ok {body : Host.Outcome State Fault Refusal} (p i w : Bool) (rn hi lo : Reg) (k : Good body) :
    Good (am3Ok p i w rn hi lo body) :=
  good_orRefuse _ _ <| good_orRefuse _ _ <| good_orRefuse _ _ <| good_orRefuse _ _ k

/-! Multiple transfers -/

theorem quiet_forget (m base : BitVec 5) (rs : List Reg) (s : State) : Quiet s (s.forget m base rs) := by
  induction rs generalizing s with
  | nil => exact .refl s
  | cons r rs ih =>
    unfold State.forget
    split
    · exact ih s
    · exact ((quiet_setRegIn s m r _).trans (quiet_drawn _)).trans (ih _)

theorem calm_loadList (m base : BitVec 5) (va : Word) (done rs : List Reg) : Calm (loadList m base va done rs) := by
  induction rs generalizing va done with
  | nil => exact fun s => calmAt_pure _ s
  | cons r rs ih =>
    intro s
    have first := calm_of_side (side_loadAligned va false) s
    unfold CalmAt at *
    unfold loadList
    split <;> (rename_i e; rw [e] at first)
    · rename_i w u
      have rest := ih (va + 4) (done ++ [r]) u
      unfold CalmAt at rest
      split <;> (rename_i e; rw [e] at rest)
      · exact first.trans rest
      · exact first.trans rest
    · exact first.trans (quiet_forget m base done _)

theorem calm_loadMultiple (m base : BitVec 5) (start : Word) (list : BitVec 16) :
    Calm (loadMultiple m base start list) := fun s =>
  calmAt_bind (calm_of_side (side_checkAligned start 2) s) fun _ t => calm_loadList m base start [] _ t

theorem quiet_setList (m : BitVec 5) (rs : List Reg) (ws : List Word) (s : State) : Quiet s (s.setList m rs ws) := by
  induction rs generalizing s ws with
  | nil => exact .refl s
  | cons r rs ih =>
    cases ws with
    | nil => exact .refl s
    | cons w ws => exact (Quiet.ite (.refl s) (quiet_setRegIn s m r w)).trans (ih ws _)

theorem quiet_writeBackList (s : State) (rn : Reg) (wb : Option Word) (inList : Bool) :
    Quiet s (s.writeBackList rn wb inList) := by
  cases wb
  · exact .refl s
  · exact .ite ((quiet_setReg s rn _).trans (quiet_drawn _)) (quiet_setReg s rn _)

theorem good_finishLdm {s : State} (h : s.Inv) (rn : Reg) (wb : Option Word) (list : BitVec 16) (ws : List Word) :
    Good (finishLdm rn wb list ws s) := by
  have loaded := (quiet_setList s.mode (listRegs list) ws s).trans (quiet_writeBackList _ rn wb (list.getLsbD rn.toNat))
  unfold finishLdm
  dsimp only
  split
  · exact good_interwork (loaded.sound (.of_inv h)) _
  · exact good_advance h loaded

theorem good_loadMultipleTo {s : State} (h : s.Inv) (p u w : Bool) (rn : Reg) (list : BitVec 16) :
    Good (loadMultipleTo p u w rn list s) :=
  good_withValue h (calm_loadMultiple _ _ _ _ s) fun ws _ q => good_finishLdm (q.inv h) _ _ _ ws

theorem good_storeMultipleFrom {s : State} (h : s.Inv) (p u w : Bool) (rn : Reg) (list : BitVec 16) :
    Good (storeMultipleFrom p u w rn list s) :=
  have drawn := (quiet_drawn s).inv h
  good_withValue drawn (calm_of_side (side_storeMultiple _ _) _) fun _ _ q => good_finishStore (q.inv drawn) _ _

theorem good_preload {s : State} (h : s.Inv) (va : Word) : Good (preload va s) := fun t e => by
  obtain ⟨u, side, rfl | e⟩ := preload_next e
  · exact inv_advance ((Quiet.of_memSide side).inv h)
  · exact good_undefined ((Quiet.of_memSide side).inv h) t e

theorem good_finishLdmia {s : State} (h : s.Inv) (rn : BitVec 3) (wb : Word) (list : BitVec 16) (ws : List Word) :
    Good (finishLdmia rn wb list ws s) :=
  good_advance h ((Quiet.ite (.refl s) (quiet_setReg s _ wb)).trans (quiet_setList _ _ _ _))

/-! Coprocessor loads and stores -/

theorem quietWrite_ldcRegister {crd : BitVec 4} {w : CpWrite} (h : ldcRegister crd = some w) : QuietWrite w := by
  unfold ldcRegister at h
  repeat' split at h
  all_goals cases h
  · exact quietWrite_cclkcfg
  · exact quietWrite_pwrmode
  · exact quietWrite_tx
  · exact quietWrite_dcsr
  · exact quietWrite_chkpt fun _ _ => rfl
  · exact quietWrite_chkpt fun _ _ => rfl
  · exact quietWrite_txrxctrl

theorem quietRead_stcRegister {crd : BitVec 4} {r : CpRead} (h : stcRegister crd = some r) : QuietRead r := by
  unfold stcRegister at h
  repeat' split at h
  all_goals cases h
  · exact quietRead_reserved _ _
  · exact quietRead_reserved _ _
  · exact quietRead_rx
  · exact quietRead_reserved _ _
  · exact quietRead_tbreg
  · exact quietRead_chkpt _
  · exact quietRead_chkpt _
  · exact quietRead_reserved _ _

theorem calm_storeCoprocessor (va : Word) {r : CpRead} (h : QuietRead r) : Calm (storeCoprocessor va r) := fun s =>
  calmAt_bind (calm_of_side (side_checkAligned va 2) s) fun _ t => calmAt_get <|
  calmAt_bind (calm_of_side (side_translate _ _ _) t) fun _ u => calmAt_get <|
  calmAt_set_bind (h u) (calm_of_side (side_storeAligned _ _ _) _)

theorem good_am5Ok {body : Host.Outcome State Fault Refusal} (p u w : Bool) (rn : Reg) (k : Good body) :
    Good (am5Ok p u w rn body) := good_orRefuse _ _ <| good_orRefuse _ _ k

theorem good_ldcP14 {s : State} (h : s.Inv) (cond : Cond) (p u n w : Bool) (rn crd : BitVec 4) (o : BitVec 8) :
    Good (execLdcP14 cond p u n w rn crd o s) := good_whenCond h cond <| good_needPrivilege h <| good_orRefuse _ _ <| by
  split
  · exact good_refused _
  · rename_i write known
    refine good_am5Ok _ _ _ _ (good_withValue h (calm_of_side (side_loadCoprocessor _) s) fun v t q => ?_)
    split
    · rename_i e
      exact good_advance h ((q.trans (quietWrite_ldcRegister known t v _ e)).trans (quiet_baseUpdate _ _ _))
    · exact good_refused _

theorem good_stcP14 {s : State} (h : s.Inv) (cond : Cond) (p u n w : Bool) (rn crd : BitVec 4) (o : BitVec 8) :
    Good (execStcP14 cond p u n w rn crd o s) := good_whenCond h cond <| good_needPrivilege h <| good_orRefuse _ _ <| by
  split
  · exact good_refused _
  · rename_i read known
    exact good_am5Ok _ _ _ _ (good_withValue h (calm_storeCoprocessor _ (quietRead_stcRegister known) s) fun _ _ q =>
      good_advance h (q.trans (quiet_baseUpdate _ _ _)))

theorem good_absentForm {s : State} (h : s.Inv) (cp : BitVec 4) : Good (absentForm cp s) := by
  unfold absentForm
  split
  · exact good_needCp h 0 (good_refused _)
  · exact good_undefined h

theorem good_absentLoad {s : State} (h : s.Inv) (p u w : Bool) (rn cp : Reg) (o : BitVec 8) :
    Good (absentLoad p u w rn cp o s) := by
  unfold absentLoad
  split
  · exact good_undefined h
  · exact good_needCp h _ <| good_am5Ok _ _ _ _ <|
      good_withValue h (calm_of_side (side_loadCoprocessor _) s) fun _ _ q => good_undefined (q.inv h)

theorem inv_softwareBreakpoint {s : State} (h : s.Inv) : s.softwareBreakpoint.Inv := by
  unfold State.softwareBreakpoint
  split
  · exact inv_debugException (.of_inv h) _ _ _
  · exact inv_advance h

/-! Branches -/

theorem alignedFor_branchTarget {s : State} (h : s.Inv) (o : BitVec 24) :
    alignedFor s.thumb (branchTarget s.pcRead o) = true :=
  alignedFor_add (alignedFor_pcRead h) (alignedFor_shift s.thumb _)

theorem alignedFor_thumbTarget {s : State} (h : s.Inv) (thumb : s.thumb = true) (v : Word) :
    alignedFor s.thumb (s.pcRead + (v <<< 1)) = true :=
  alignedFor_add (alignedFor_pcRead h) (by rw [thumb]; exact alignedFor_even v)

theorem good_branch {s : State} (h : s.Inv) (cond : Cond) (o : BitVec 24) : Good (execB cond o s) :=
  good_whenCond ((quiet_noteB s).inv h) cond <| good_next <|
    inv_branchDirect ((quiet_noteB s).sound (.of_inv h)) (alignedFor_branchTarget h o)

theorem good_branchLink {s : State} (h : s.Inv) (cond : Cond) (o : BitVec 24) : Good (execBl cond o s) :=
  good_whenCond ((quiet_noteB s).inv h) cond <| good_next <|
    inv_branchDirect (((quiet_noteB s).trans (quiet_setReg _ _ _)).sound (.of_inv h)) (alignedFor_branchTarget h o)

theorem good_blxImm {s : State} (h : s.Inv) (hBit : Bool) (o : BitVec 24) : Good (execBlxImm hBit o s) := by
  refine good_next (inv_branchIndirect (sound_setThumb (Quiet.sound ?_ (.of_inv h)) true) ?_)
  · exact (quiet_noteBranch s).trans (quiet_setReg _ _ _)
  · rw [setThumb_thumb]
    exact alignedFor_add (alignedFor_weaken (alignedFor_branchTarget (s := s.noteBranch) ((quiet_noteBranch s).inv h) o))
      (by cases hBit <;> decide)

theorem good_bx {s : State} (h : s.Inv) (cond : Cond) (sb : BitVec 12) (rm : BitVec 4) : Good (execBx cond sb rm s) :=
  good_whenCond ((quiet_noteBranch s).inv h) cond <| good_orRefuse _ _ <|
    good_interwork ((quiet_noteBranch s).sound (.of_inv h)) _

theorem good_blxReg {s : State} (h : s.Inv) (cond : Cond) (sb : BitVec 12) (rm : BitVec 4) :
    Good (execBlxReg cond sb rm s) :=
  good_whenCond ((quiet_noteBranch s).inv h) cond <| good_orRefuse _ _ <| good_orRefuse _ _ <|
    good_interwork (((quiet_noteBranch s).trans (quiet_setReg _ _ _)).sound (.of_inv h)) _

theorem good_tBCond {s : State} (h : s.Inv) (thumb : s.thumb = true) (cond : Cond) (o : BitVec 8) :
    Good (execTBCond cond o s) :=
  good_whenCond ((quiet_noteB s).inv h) cond <| good_next <|
    inv_branchDirect ((quiet_noteB s).sound (.of_inv h)) (alignedFor_thumbTarget h thumb _)

theorem good_tB {s : State} (h : s.Inv) (thumb : s.thumb = true) (o : BitVec 11) : Good (execTB o s) :=
  good_next <| inv_branchDirect ((quiet_noteB s).sound (.of_inv h)) (alignedFor_thumbTarget h thumb _)

theorem good_tBlSuffix {s : State} (h : s.Inv) (thumb : s.thumb = true) (o : BitVec 11) : Good (execTBlSuffix o s) :=
  good_next <| inv_branchDirect (((quiet_noteB s).trans (quiet_setReg _ _ _)).sound (.of_inv h))
    (by show alignedFor s.thumb _ = true; rw [thumb]; exact alignedFor_clear_one _)

theorem good_tBlxSuffix {s : State} (h : s.Inv) (o : BitVec 10) : Good (execTBlxSuffix o s) :=
  good_next <| inv_branchIndirect
    (sound_setThumb (((quiet_noteBranch s).trans (quiet_setReg _ _ _)).sound (.of_inv h)) false)
    (alignedFor_clear_three _ _)

end Sys2Proof.Keeping

/-! PROOF. Every instruction keeps the invariant. -/
namespace Sys2Proof.Keeping
open Sys2Proof Sys2Proof.Machine

/-- An instruction keeps the invariant, whatever its operands; one of a Thumb code is executed in Thumb state. -/
theorem good_exec {s : State} (h : s.Inv) (i : Instr) (thumb : ∀ w, encode i = .thumb w → s.thumb = true) :
    Good (exec i s) := by
  cases i with
  | pldImm => exact good_preload h _
  | pldReg => exact good_orRefuse _ _ <| good_preload h _
  | ldc2 | stc2 | cdp2 | mcr2 | mrc2 | undefUncond | tUndef1011 | tUndefCond | tUndefBlx => exact good_undefined h
  | undefExt | undefMisc | undefImm | undefMedia | stc | mcr | mrc => exact good_whenCond h _ <| good_undefined h
  | swi => exact good_whenCond h _ <| good_raise h _ _
  | tSwi => exact good_raise h _ _
  | bkpt => exact good_orRefuse _ _ <| good_next (inv_softwareBreakpoint h)
  | tBkpt => exact good_next (inv_softwareBreakpoint h)
  | mul => exact good_whenCond h _ <| good_orRefuse _ _ <| good_orRefuse _ _ <| good_mulFinish h _ _ _
  | mla => exact good_whenCond h _ <| good_orRefuse _ _ <| good_mulFinish h _ _ _
  | umull | umlal | smull | smlal | smlalXY =>
    exact good_whenCond h _ <| good_orRefuse _ _ <| good_orRefuse _ _ <| good_mulLongFinish h _ _ _ _
  | qadd | qsub | qdadd | qdsub | smulwY | smulXY =>
    exact good_whenCond h _ <| good_orRefuse _ _ <| good_orRefuse _ _ <| good_dspFinish h _ _ _
  | smlaXY | smlawY => exact good_whenCond h _ <| good_orRefuse _ _ <| good_dspFinish h _ _ _
  | clz => exact good_whenCond h _ <| good_orRefuse _ _ <| good_orRefuse _ _ <| good_advance h (quiet_setReg s _ _)
  | swp =>
    exact good_whenCond h _ <| good_orRefuse _ _ <| good_orRefuse _ _ <| good_orRefuse _ _ <|
      good_withValue h (calm_of_side (side_swapWordAt _ _) s) fun _ _ q => good_advance h (q.trans (quiet_setReg _ _ _))
  | swpb =>
    exact good_whenCond h _ <| good_orRefuse _ _ <| good_orRefuse _ _ <| good_orRefuse _ _ <|
      good_withValue h (calm_of_side (side_swapByteAt _ _) s) fun _ _ q => good_advance h (q.trans (quiet_setReg _ _ _))
  | ldrh => exact good_whenCond h _ <| good_orRefuse _ _ <| good_am3Ok _ _ _ _ _ _ <| good_loadHalfTo h _ _ _
  | ldrsb => exact good_whenCond h _ <| good_orRefuse _ _ <| good_am3Ok _ _ _ _ _ _ <| good_loadSignedByteTo h _ _ _
  | ldrsh => exact good_whenCond h _ <| good_orRefuse _ _ <| good_am3Ok _ _ _ _ _ _ <| good_loadSignedHalfTo h _ _ _
  | strh => exact good_whenCond h _ <| good_am3Ok _ _ _ _ _ _ <| good_storeHalfFrom h _ _ _
  | ldrd =>
    exact good_whenCond h _ <| good_doubleOk h _ _ _ _ _ _ <| good_am3Ok _ _ _ _ _ _ <|
      good_withValue h (calm_of_side (side_loadDouble _) s) fun _ _ q =>
        good_advance h (((q.trans (quiet_setReg _ _ _)).trans (quiet_setReg _ _ _)).trans (quiet_writeBack _ _ _))
  | strd =>
    exact good_whenCond h _ <| good_doubleOk h _ _ _ _ _ _ <| good_am3Ok _ _ _ _ _ _ <|
      good_withValue h (calm_of_side (side_storeDouble _ _ _) s) fun _ _ q => good_finishStore (q.inv h) _ _
  | mrs cond rBit =>
    refine good_whenCond h _ <| good_orRefuse _ _ <| good_orRefuse _ _ ?_
    split
    · split
      · exact good_advance h (quiet_setReg s _ _)
      · exact good_refused _
    · exact good_advance h (quiet_setReg s _ _)
  | msrReg | msrImm => exact good_whenCond h _ <| good_orRefuse _ _ <| good_writePsr h _ _ _
  | bx => exact good_bx h _ _ _
  | blxReg => exact good_blxReg h _ _ _
  | blxImm => exact good_blxImm h _ _
  | b => exact good_branch h _ _
  | bl => exact good_branchLink h _ _
  | andShImm | eorShImm | subShImm | rsbShImm | addShImm | adcShImm | sbcShImm | rscShImm | orrShImm | bicShImm
  | andImm | eorImm | subImm | rsbImm | addImm | adcImm | sbcImm | rscImm | orrImm | bicImm =>
    exact good_whenCondPc h _ _ <| good_dpFinish h _ _ _
  | movShImm | mvnShImm | movImm | mvnImm
  | andShReg | eorShReg | subShReg | rsbShReg | addShReg | adcShReg | sbcShReg | rscShReg | orrShReg | bicShReg =>
    exact good_whenCondPc h _ _ <| good_orRefuse _ _ <| good_dpFinish h _ _ _
  | movShReg | mvnShReg =>
    exact good_whenCondPc h _ _ <| good_orRefuse _ _ <| good_orRefuse _ _ <| good_dpFinish h _ _ _
  | tstShImm | teqShImm | cmpShImm | cmnShImm | tstImm | teqImm | cmpImm | cmnImm =>
    exact good_whenCond h _ <| good_orRefuse _ _ <| good_dpCompare h _
  | tstShReg | teqShReg | cmpShReg | cmnShReg =>
    exact good_whenCond h _ <| good_orRefuse _ _ <| good_orRefuse _ _ <| good_dpCompare h _
  | ldrImm => exact good_whenCondPc h _ _ <| good_orRefuse _ _ <| good_loadWordTo h _ _ _ _
  | ldrtImm => exact good_whenCond h _ <| good_orRefuse _ _ <| good_orRefuse _ _ <| good_loadWordTo h _ _ _ _
  | ldrbImm | ldrbtImm => exact good_whenCond h _ <| good_orRefuse _ _ <| good_orRefuse _ _ <| good_loadByteTo h _ _ _ _
  | strImm | strtImm => exact good_whenCond h _ <| good_orRefuse _ _ <| good_storeWordFrom h _ _ _ _
  | strbImm => exact good_whenCond h _ <| good_orRefuse _ _ <| good_orRefuse _ _ <| good_storeByteFrom h _ _ _ _
  | strbtImm => exact good_whenCond h _ <| good_orRefuse _ _ <| good_storeByteFrom h _ _ _ _
  | ldrReg => exact good_whenCondPc h _ _ <| good_orRefuse _ _ <| good_orRefuse _ _ <| good_loadWordTo h _ _ _ _
  | ldrtReg =>
    exact good_whenCond h _ <| good_orRefuse _ _ <| good_orRefuse _ _ <| good_orRefuse _ _ <| good_loadWordTo h _ _ _ _
  | ldrbReg | ldrbtReg =>
    exact good_whenCond h _ <| good_orRefuse _ _ <| good_orRefuse _ _ <| good_orRefuse _ _ <| good_loadByteTo h _ _ _ _
  | strReg | strtReg =>
    exact good_whenCond h _ <| good_orRefuse _ _ <| good_orRefuse _ _ <| good_storeWordFrom h _ _ _ _
  | strbReg =>
    exact good_whenCond h _ <| good_orRefuse _ _ <| good_orRefuse _ _ <| good_orRefuse _ _ <| good_storeByteFrom h _ _ _ _
  | strbtReg => exact good_whenCond h _ <| good_orRefuse _ _ <| good_orRefuse _ _ <| good_storeByteFrom h _ _ _ _
  | ldm => exact good_whenCondPc h _ _ <| good_orRefuse _ _ <| good_orRefuse _ _ <| good_loadMultipleTo h _ _ _ _ _
  | ldmUser =>
    exact good_whenCond h _ <| good_orRefuse _ _ <| good_orRefuse _ _ <| good_orRefuse _ _ <| good_orRefuse _ _ <|
      good_withValue h (calm_loadMultiple _ _ _ _ s) fun _ _ q => good_advance h (q.trans (quiet_setList _ _ _ _))
  | ldmReturn =>
    exact good_whenCondPc h _ _ <| good_orRefuse _ _ <| good_orRefuse _ _ <| good_orRefuse _ _ <|
      good_withValue h (calm_loadMultiple _ _ _ _ s) fun _ _ q =>
        good_exceptionReturn (((q.trans (quiet_setList _ _ _ _)).trans (quiet_writeBackList _ _ _ _)).sound (.of_inv h)) _
  | stm => exact good_whenCond h _ <| good_orRefuse _ _ <| good_orRefuse _ _ <| good_storeMultipleFrom h _ _ _ _ _
  | stmUser =>
    exact good_whenCond h _ <| good_orRefuse _ _ <| good_orRefuse _ _ <| good_orRefuse _ _ <| good_orRefuse _ _ <|
      good_withValue h (calm_of_side (side_storeMultiple _ _) s) fun _ _ q => good_finishStore (q.inv h) _ _
  | mar =>
    exact good_whenCond h _ <| good_needCp h _ <| good_orRefuse _ _ <| good_orRefuse _ _ <| good_orRefuse _ _ <|
      good_advance h ⟨id, rfl, rfl, rfl, id⟩
  | mra =>
    exact good_whenCond h _ <| good_needCp h _ <| good_orRefuse _ _ <| good_orRefuse _ _ <| good_orRefuse _ _ <|
      good_orRefuse _ _ <| good_advance h ((quiet_setReg s _ _).trans (quiet_setReg _ _ _))
  | mia | miaph | miabb | miabt | miatb | miatt => exact good_whenCond h _ <| good_miaFinish h _ _ _ _
  | mcrP0Other | mrcP0Other => exact good_whenCond h _ <| good_needCp h _ <| good_refused _
  | mcrr | mrrc | cdp => exact good_whenCond h _ <| good_absentForm h _
  | ldc => exact good_whenCond h _ <| good_absentLoad h _ _ _ _ _ _
  | ldcP14 => exact good_ldcP14 h _ _ _ _ _ _ _ _
  | stcP14 => exact good_stcP14 h _ _ _ _ _ _ _ _
  | mcrP15Other | mcrP14Other | mcrP7Other | mrcP15Other | mrcP14Other | mrcP7Other =>
    exact good_whenCond h _ <| good_needPrivilege h <| good_refused _
  | mcrInvICacheBtb =>
    exact good_cp15Function h _ _ fun _ => calm_modify fun u => (quiet_invalidateICache u).trans (quiet_invalidateBtb _)
  | mcrInvICacheLine => exact good_cp15Function h _ _ fun v => calm_modify fun u => quiet_invalidateILine u v
  | mcrInvBtb => exact good_cp15Function h _ _ fun _ => calm_modify quiet_invalidateBtb
  | mcrInvDCache => exact good_cp15Function h _ _ <| calm_dFunction fun _ => quiet_invalidateDCache
  | mcrInvDCacheLine => exact good_cp15Function h _ _ <| calm_dFunction fun v u => quiet_invalidateDLine u v
  | mcrInvCachesBtb =>
    exact good_cp15Function h _ _ fun _ => calm_modify fun u => 
      ((quiet_invalidateICache u).trans (quiet_invalidateBtb _)).trans (quiet_invalidateDCache _)
  | mcrCleanDLineMva => exact good_cp15Function h _ _ <| calm_dFunction fun v u => quiet_cleanDLine u v
  | mcrCleanDLineSetWay =>
    exact good_cp15Function h _ _ <| calm_dSetWayFunction fun k u => .of_memSide (memSide_dClean u k)
  | mcrCleanInvDLineMva =>
    exact good_cp15Function h _ _ <| calm_dFunction fun v u => (quiet_cleanDLine u v).trans (quiet_invalidateDLine _ v)
  | mcrCleanInvDLineSetWay =>
    exact good_cp15Function h _ _ <| calm_dSetWayFunction fun k u =>
      .of_memSide ((memSide_dClean u k).trans (memSide_dDrop _ k))
  | mcrInvL2Line => exact good_cp15Function h _ _ <| calm_l2LineFunction fun k u => quiet_l2Drop u k
  | mcrCleanL2LineMva => exact good_cp15Function h _ _ <| calm_l2LineFunction quiet_l2Clean
  | mcrCleanL2LineSetWay => exact good_cp15Function h _ _ <| calm_l2SetWayFunction quiet_l2CleanOut
  | mcrCleanInvL2LineSetWay =>
    exact good_cp15Function h _ _ <| calm_l2SetWayFunction fun k u => (quiet_l2CleanOut k u).trans (quiet_l2Drop _ k)
  | mcrPrefetchFlush => exact good_cp15UserFunction h _ _ fun _ => calm_modify quiet_prefetchFlush
  | mcrDataWriteBarrier | mcrDataMemoryBarrier =>
    exact good_cp15UserFunction h _ _ fun _ => calm_modify fun u => .of_memSide (memSide_drainBuffers u)
  | mcrDLineAllocate => exact good_cp15UserFunction h _ _ calm_lineAllocate
  | mcrInvTlbs =>
    exact good_cp15Function h _ _ fun _ => calm_modify fun u =>
      ((quiet_keepView u).trans (quiet_mapITlb _ _)).trans (quiet_mapDTlb _ _)
  | mcrInvITlb =>
    exact good_cp15Function h _ _ fun _ => calm_modify fun u => (quiet_keepView u).trans (quiet_mapITlb _ _)
  | mcrInvDTlb => exact good_cp15Function h _ _ fun _ => calm_modify fun u => quiet_mapDTlb u _
  | mcrInvITlbEntry => exact good_cp15Function h _ _ <| calm_invalidateTlbEntry fun _ _ => ⟨id, rfl, rfl, rfl, id⟩
  | mcrInvDTlbEntry => exact good_cp15Function h _ _ <| calm_invalidateTlbEntry quiet_mapDTlb
  | mcrLockILine | mcrLockILineLegacy => exact good_cp15Function h _ _ calm_lockILine
  | mcrLockL2Line | mcrAllocLockL2Line => exact good_cp15Function h _ _ <| calm_l2Lock _
  | mcrUnlockICache | mcrUnlockICacheLegacy => exact good_cp15Function h _ _ fun _ => calm_unlockICache
  | mcrUnlockDCache | mcrUnlockDCacheLegacy => exact good_cp15Function h _ _ fun _ => calm_unlockDCache
  | mcrUnlockL2 => exact good_cp15Function h _ _ fun _ => calm_l2Unlock
  | mcrLockITlbEntry => exact good_cp15Function h _ _ <| calm_lockTlb quiet_mapITlb
  | mcrLockDTlbEntry => exact good_cp15Function h _ _ <| calm_lockTlb quiet_mapDTlb
  | mcrUnlockITlb => exact good_cp15Function h _ _ fun _ => calm_unlockTlb quiet_mapITlb
  | mcrUnlockDTlb => exact good_cp15Function h _ _ fun _ => calm_unlockTlb quiet_mapDTlb
  | mrcMainId | mrcCacheType | mrcDacr | mrcFar | mrcProcessId | mrcIbr0 | mrcIbr1 | mrcDbr0 | mrcDbr1 =>
    exact good_cp15Read h _ _ (quietRead_plain _)
  | mrcL2SystemId | mrcControl | mrcAuxControl | mrcTtBase | mrcFsr | mrcDbcon | mrcCpar | mrcDLock | mrcDLockLegacy =>
    exact good_cp15Read h _ _ (quietRead_reserved _ _)
  | mrcL2CacheType => exact good_cp15Read h _ _ quietRead_l2CacheType
  | mcrMainId | mcrCacheType | mcrL2SystemId | mcrL2CacheType => exact good_cpWrite h _ _ quietWrite_ignore
  | mcrControl => exact good_cpWrite h _ _ quietWrite_control
  | mcrAuxControl => exact good_cpWrite h _ _ quietWrite_auxControl
  | mcrTtBase => exact good_cpWrite h _ _ quietWrite_ttBase
  | mcrDacr => exact good_cpWrite h _ _ quietWrite_dacr
  | mcrFsr => exact good_cpWrite h _ _ quietWrite_fsr
  | mcrFar => exact good_cpWrite h _ _ quietWrite_far
  | mcrProcessId => exact good_cpWrite h _ _ quietWrite_processId
  | mcrIbr0 => exact good_cpWrite h _ _ quietWrite_ibr0
  | mcrIbr1 => exact good_cpWrite h _ _ quietWrite_ibr1
  | mcrDbr0 => exact good_cpWrite h _ _ quietWrite_dbr0
  | mcrDbr1 => exact good_cpWrite h _ _ quietWrite_dbr1
  | mcrDbcon => exact good_cpWrite h _ _ quietWrite_dbcon
  | mcrCpar => exact good_cpWrite h _ _ quietWrite_cpar
  | mcrDLock | mcrDLockLegacy => exact good_cpWrite h _ _ quietWrite_dLock
  | mrcPmnc | mrcInten | mrcFlag | mrcCclkcfg | mrcPwrmode | mrcDcsr | mrcTxrxctrl | mrcErrlog | mrcErradru =>
    exact good_cp14Read h _ _ (quietRead_reserved _ _)
  | mrcCcnt | mrcEvtsel | mrcPmn0 | mrcPmn1 | mrcPmn2 | mrcPmn3 | mrcErradrl =>
    exact good_cp14Read h _ _ (quietRead_plain _)
  | mrcRx => exact good_cp14Read h _ _ quietRead_rx
  | mrcTbreg => exact good_cp14Read h _ _ quietRead_tbreg
  | mrcChkpt0 | mrcChkpt1 => exact good_cp14Read h _ _ (quietRead_chkpt _)
  | mcrPmnc => exact good_cpWrite h _ _ quietWrite_pmnc
  | mcrCcnt => exact good_cpWrite h _ _ quietWrite_ccnt
  | mcrInten | mcrFlag =>
    exact good_cpWrite h _ _ (quietWrite_reserved _ (quietWrite_plain fun u _ => quiet_setPmu u _))
  | mcrEvtsel => exact good_cpWrite h _ _ quietWrite_evtsel
  | mcrPmn0 | mcrPmn1 | mcrPmn2 | mcrPmn3 => exact good_cpWrite h _ _ (quietWrite_pmn _)
  | mcrCclkcfg => exact good_cpWrite h _ _ quietWrite_cclkcfg
  | mcrPwrmode => exact good_cpWrite h _ _ quietWrite_pwrmode
  | mcrTx => exact good_cpWrite h _ _ quietWrite_tx
  | mcrDcsr => exact good_cpWrite h _ _ quietWrite_dcsr
  | mcrChkpt0 | mcrChkpt1 => exact good_cpWrite h _ _ (quietWrite_chkpt fun _ _ => rfl)
  | mcrTxrxctrl => exact good_cpWrite h _ _ quietWrite_txrxctrl
  | mcrErrlog | mcrErradru =>
    exact good_cp7Write h _ _ (quietWrite_reserved _ (quietWrite_plain fun u _ => .of_memSide (memSide_err u _)))
  | mcrErradrl => exact good_cp7Write h _ _ (quietWrite_plain fun u _ => .of_memSide (memSide_err u _))
  | tLslImm | tLsrImm | tAsrImm | tLslReg | tLsrReg | tAsrReg | tRor => exact good_flagged h _ _ _ _ _ _
  | tAddReg | tSubReg | tAddImm3 | tSubImm3 | tAddImm8 | tSubImm8 | tAdc | tSbc | tNeg => exact good_flagged h _ _ _ _ _ _
  | tMovImm | tAnd | tEor | tOrr | tMul | tBic | tMvn => exact good_flagged h _ _ _ _ _ _
  | tCmpImm | tCmpReg | tCmn => exact good_dpCompare h _
  | tTst => exact good_advance h (quiet_setFlags s _ _ _ _)
  | tAddHigh => exact good_orRefuse _ _ <| good_thumbHigh h _ _
  | tCmpHigh => exact good_orRefuse _ _ <| good_orRefuse _ _ <| good_dpCompare h _
  | tMovHigh => exact good_thumbHigh h _ _
  | tBx => exact good_orRefuse _ _ <| good_interwork ((quiet_noteBranch s).sound (.of_inv h)) _
  | tBlxReg =>
    exact good_orRefuse _ _ <| good_orRefuse _ _ <|
      good_interwork (((quiet_noteBranch s).trans (quiet_setReg _ _ _)).sound (.of_inv h)) _
  | tLdrPc | tLdrReg | tLdrImm | tLdrSp => exact good_loadWordTo h _ _ _ _
  | tStrReg | tStrImm | tStrSp => exact good_storeWordFrom h _ _ _ _
  | tStrhReg | tStrhImm => exact good_storeHalfFrom h _ _ _
  | tStrbReg | tStrbImm => exact good_storeByteFrom h _ _ _ _
  | tLdrsbReg => exact good_loadSignedByteTo h _ _ _
  | tLdrhReg | tLdrhImm => exact good_loadHalfTo h _ _ _
  | tLdrbReg | tLdrbImm => exact good_loadByteTo h _ _ _ _
  | tLdrshReg => exact good_loadSignedHalfTo h _ _ _
  | tAddPcImm | tAddSpImm | tIncSp | tDecSp => exact good_advance h (quiet_setReg s _ _)
  | tPush => exact good_orRefuse _ _ <| good_storeMultipleFrom h _ _ _ _ _
  | tPop => exact good_orRefuse _ _ <| good_loadMultipleTo h _ _ _ _ _
  | tStmia rn list =>
    show Good (if list.setWidth 16 = 0 then _ else _)
    split
    · exact good_next (inv_advance h)
    · exact good_storeMultipleFrom h _ _ _ _ _
  | tLdmia =>
    exact good_orRefuse _ _ <| good_withValue h (calm_loadMultiple _ _ _ _ s) fun ws _ q => good_finishLdmia (q.inv h) _ _ _ ws
  | tBCond => exact good_tBCond h (thumb _ rfl) _ _
  | tB => exact good_tB h (thumb _ rfl) _
  | tBlSuffix => exact good_tBlSuffix h (thumb _ rfl) _
  | tBlxSuffix => exact good_tBlxSuffix h _
  | tBlPrefix => exact good_advance h ⟨id, rfl, rfl, rfl, id⟩

end Sys2Proof.Keeping

/-! PROOF. Every step keeps the invariant: the events between instructions, the moves of the other agents, and the step. -/
namespace Sys2Proof.Keeping
open Sys2Proof Sys2Proof.Machine

/-! What is recorded about a step -/

theorem quiet_traceStep (s0 s : State) : Quiet s (s0.traceStep s) := by
  unfold State.traceStep
  split
  · split
    · exact .ite (quiet_traceHalf s) (quiet_traceSequential s)
    · exact quiet_traceMark s _ _
    · exact quiet_traceIndirect s
    · exact .refl s
    · exact .refl s
  · exact .refl s

theorem quiet_pmu (s : State) (p : Pmu) (n : Nat) : Quiet s { s with pmu := p, free := n } := ⟨id, rfl, rfl, rfl, id⟩

theorem quiet_countEvent (s0 s : State) (k : Fin 4) : Quiet s (s0.countEvent s k) := by
  unfold State.countEvent
  dsimp only
  refine .ite (.refl s) (.ite (quiet_pmu s _ _) ?_)
  split <;> exact quiet_pmu s _ _

theorem quiet_countStep (s0 s : State) : Quiet s (s0.countStep s) := by
  have clock : Quiet s s.countClock := quiet_pmu s _ _
  unfold State.countStep
  refine .ite (.ite clock ?_) (.refl s)
  exact clock.trans <| (quiet_countEvent s0 _ 0).trans <| (quiet_countEvent s0 _ 1).trans <|
    (quiet_countEvent s0 _ 2).trans (quiet_countEvent s0 _ 3)

theorem quiet_btb (s : State) (b : List (Nat × BtbEntry)) : Quiet s { s with btb := b } := ⟨id, rfl, rfl, rfl, id⟩

theorem quiet_btbStep (s0 s : State) : Quiet s (s0.btbStep s) := by
  unfold State.btbStep
  dsimp only
  refine .ite ?_ (.refl s)
  split
  · exact quiet_btb s _
  · refine .ite ?_ (.refl s)
    unfold State.btbMake
    split
    · exact quiet_btb s _
    · exact .refl s

theorem quiet_stale (s : State) (v : List FetchView) : Quiet s { s with stale := v } := ⟨id, rfl, rfl, rfl, id⟩

theorem quiet_account (s0 s : State) : Quiet s (s0.account s) :=
  ((quiet_traceStep s0 s).trans (quiet_btbStep s0 _)).trans <| (quiet_countStep s0 _).trans <|
    .ite (.refl _) (quiet_stale _ _)

theorem good_finishStep {s0 : State} {o : Host.Outcome State Fault Refusal} (h : Good o) : Good (finishStep s0 o) := by
  cases o with
  | next s =>
    show Good (if s0.pastTop s then _ else _)
    split
    · exact good_fault _
    · exact good_next ((quiet_account s0 s).inv (h s rfl))
  | fault f => exact good_fault f
  | refused r => exact good_refused r

theorem good_guardBtb {s : State} {o : Host.Outcome State Fault Refusal} (h : Good o) : Good (s.guardBtb o) :=
  fun t e => h t (guardBtb_next e).1

/-! Fetching -/

/-- The code fetched is of the instruction set that the CPSR selects. -/
theorem fetchInstr_thumb {s t : State} {w : Half} (h : fetchInstr s = .ok (.thumb w) t) : s.thumb = true := by
  cases e : s.thumb with
  | true => rfl
  | false =>
    unfold fetchInstr at h
    simp only [bind, EStateM.bind, get, getThe, MonadStateOf.get, EStateM.get] at h
    split at h
    · unfold fetchSram at h
      rw [if_neg (by simp [e])] at h
      split at h
      · cases h
      · cases h
    · simp only [e, Bool.false_eq_true, if_false] at h
      cases f : fetchWord (s.pidRemap s.pc) s with
      | ok w u => simp [EStateM.bind, f, pure, EStateM.pure] at h
      | error x u => simp [EStateM.bind, f] at h

theorem asFetched_thumb (s : State) : s.asFetched.thumb = s.thumb := by
  unfold State.asFetched
  split <;> rfl

theorem fetchNext_thumb {s t : State} {w : Half} (h : fetchNext s = .ok (.thumb w) t) : s.thumb = true := by
  unfold fetchNext at h
  split at h
  · rename_i e
    cases h
    rw [← asFetched_thumb]
    exact fetchInstr_thumb e
  · cases h

theorem good_fetchStopped {s : State} (h : s.Inv) (e : Stop) : Good (fetchStopped e s) := by
  cases e with
  | abort fs dom far =>
    show Good (if s.dbg.sds then _ else _)
    split
    · exact good_fault _
    · exact good_next (inv_prefetchAbort (.of_inv h) fs)
  | undefined => exact good_undefined h
  | fault f => exact good_fault f
  | refuse r => exact good_refused r

theorem good_runInstr {s : State} (h : s.Inv) : Good (runInstr s) := by
  unfold runInstr
  split <;> rename_i e
  · exact good_finishStep (good_fetchStopped ((Quiet.of_memSide (side_fetchNext.error e)).inv h) _)
  · rename_i c t
    have q := Quiet.of_memSide (side_fetchNext.ok e)
    refine good_finishStep (good_guardBtb (good_exec (q.inv h) (decode c) fun w code => ?_))
    rw [(Coding.encodeDecodeRoundTrip c).2] at code
    rw [code] at e
    rw [q.thumb]
    exact fetchNext_thumb e

/-! Events -/

theorem inv_takeBreak {s : State} (h : Sound s) : s.takeBreak.Inv := by
  have drawn := (quiet_drawn s).sound h
  unfold State.takeBreak
  dsimp only
  split
  · exact inv_enterDebugMode drawn _ _
  · exact inv_debugException drawn _ _ _

theorem inv_takeEvent {s t : State} {hold : Bool} (h : s.Inv) (e : s.takeEvent hold = some t) : t.Inv := by
  have sound := Sound.of_inv h
  unfold State.takeEvent at e
  repeat' split at e
  all_goals cases e
  · exact inv_debugException sound _ _ _
  · exact inv_impreciseAbort h _
  · exact inv_takeBreak sound
  · exact inv_takeException sound _ _ _
  · exact inv_takeException sound _ _ _

theorem quiet_awake (s : State) : Quiet s s.awake := ⟨id, rfl, rfl, rfl, id⟩

theorem quiet_settleView (s : State) : Quiet s s.settleView := ⟨id, rfl, rfl, rfl, id⟩

theorem good_coreStep {s : State} (h : s.Inv) (hold : Bool) : Good (coreStep hold s) := by
  have awake := (quiet_awake s).inv h
  have settled := (quiet_settleView s.awake).inv awake
  unfold coreStep
  split
  · exact good_next h
  · dsimp only
    split
    · rename_i e
      exact good_next ((quiet_account _ _).inv (inv_takeEvent awake e))
    · split
      · rename_i e
        unfold State.takeInstrBreak at e
        split at e <;> cases e
        exact good_next ((quiet_account _ _).inv (inv_debugException (.of_inv settled) _ _ _))
      · exact good_runInstr settled

/-! Reset -/

theorem resetCore_mode (s : State) : s.resetCore.mode = modeSvc := by
  apply BitVec.eq_of_getLsbD_eq
  intro i hi
  have low : i < 8 := by omega
  show ((_ ++ (0xD3 : BitVec 8) : BitVec 32).extractLsb' 0 5).getLsbD i = _
  rw [BitVec.getLsbD_extractLsb', BitVec.getLsbD_append, Nat.zero_add, if_pos low]
  simp only [hi, decide_true, Bool.true_and]
  have : ∀ i : Fin 5, (0xD3 : BitVec 8).getLsbD i = modeSvc.getLsbD i := by decide
  exact this ⟨i, hi⟩

theorem resetCore_mem (s : State) : s.resetCore.mem = s.mem := by dsimp only [State.resetCore]

theorem resetCore_pc (s : State) : s.resetCore.pc = 0 := by dsimp only [State.resetCore]

theorem resetCore_cp15 (s : State) : s.resetCore.cp15 = resetCp15 fun k => Config.freeBits 32 (s.free + (40 + k)) := by
  dsimp only [State.resetCore]

theorem resetCore_dcsr (s : State) : s.resetCore.dbg.dcsr = s.dbg.dcsr &&& ~~~0x8000007F := by
  dsimp only [State.resetCore, resetDebug]

theorem inv_resetCore {s : State} (h : Sound s) : s.resetCore.Inv := by
  refine (inv_iff _).mpr ⟨⟨?_, ?_, ?_⟩, ?_⟩
  · rw [resetCore_mem]; exact h.memory
  · rw [resetCore_mode]; decide
  · obtain ⟨-, -, -, -, -, dcsr⟩ := (reservedOk_iff s).mp h.reserved
    rw [reservedOk_iff, resetCore_cp15, resetCore_dcsr]
    dsimp only [resetCp15]
    exact ⟨by decide, by decide, masked_reserved (by decide), masked_reserved (by decide), by decide,
      kept_reserved dcsr⟩
  · rw [resetCore_pc]
    cases s.resetCore.thumb <;> decide

theorem inv_changeReset {s : State} {f : State → State} (h : (f s).Inv) : (s.changeReset f).Inv := by
  unfold State.changeReset
  dsimp only
  split
  · exact inv_vectorTrap (inv_resetCore (.of_inv h)) .reset
  · exact h

/-! The debugger -/

theorem quiet_debugger (s : State) (d : Debug) (n : Nat) (h : d.dcsr = s.dbg.dcsr) :
    Quiet s { s with dbg := d, free := n } := (quiet_dbg s d h).trans ⟨id, rfl, rfl, rfl, id⟩

theorem good_scan {s : State} (h : s.Inv) (ir : BitVec 7) (out : BitVec 36) {f : Debug → Debug}
    (hf : ∀ d, (f d).dcsr = d.dcsr) : Good (s.scan ir out f) := by
  unfold State.scan
  split
  · exact good_refused _
  · exact good_next (Quiet.inv ((quiet_drawn s).trans (quiet_dbg _ _ (hf _))) h)

theorem good_scanTx {s : State} (h : s.Inv) : Good s.scanTx :=
  good_scan (f := fun d => { d with tr := false }) h _ _ fun _ => rfl

theorem good_scanId {s : State} (h : s.Inv) : Good s.scanId := good_scan (f := id) h _ _ fun _ => rfl

theorem scanned_reserved (s : State) : s.dcsrScanned &&& ~~~0xC0DF007F = 0 := by
  unfold State.dcsrScanned
  split <;> decide

theorem good_scanSelDcsr {s : State} (h : s.Inv) (sr : BitVec 36) : Good (s.scanSelDcsr sr) := by
  unfold State.scanSelDcsr
  dsimp only
  split <;> rename_i e
  · have scanned := good_scan h _ _ (fun _ => rfl) _ e
    exact good_next (inv_changeReset (Quiet.inv
      (quiet_dcsr _ fun r => or_reserved (kept_reserved r) (masked_reserved (scanned_reserved _))) scanned))
  · exact good_scan h _ _ fun _ => rfl

theorem good_scanRx {s : State} (h : s.Inv) (data : Word) (rxValid flushRr hsDownload : Bool) :
    Good (s.scanRx data rxValid flushRr hsDownload) := by
  unfold State.scanRx
  split
  · exact good_refused _
  · refine good_scan h _ _ fun d => ?_
    dsimp only
    split
    · split <;> rfl
    · rfl

theorem good_dbg {s : State} (h : s.Inv) (d : Debug) (k : d.dcsr = s.dbg.dcsr) : Good (.next { s with dbg := d }) :=
  good_next ((quiet_dbg s d k).inv h)

theorem good_ldFunction {s : State} (h : s.Inv) (p : BitVec 33) : Good (s.ldFunction p) := by
  unfold State.ldFunction
  dsimp only
  split
  · exact good_next h
  · split
    · split
      · exact good_dbg h _ rfl
      · exact good_refused _
    · split
      · exact good_refused _
      · split
        · exact good_dbg h _ rfl
        · split
          · exact good_dbg h _ rfl
          · exact good_refused _

theorem good_ldData {s : State} (h : s.Inv) (p : BitVec 33) : Good (s.ldData p) := by
  unfold State.ldData
  split
  · exact good_dbg h _ rfl
  · exact good_refused _

theorem good_scanLdSram {s : State} (h : s.Inv) (p : BitVec 33) : Good (s.scanLdSram p) := by
  unfold State.scanLdSram
  dsimp only
  have scanned (d : Debug) (k : d.dcsr = s.dbg.dcsr) : ({ s.drawn with dbg := d } : State).Inv :=
    (quiet_debugger s d _ k).inv h
  split
  · exact good_ldFunction (scanned _ (by rfl)) p
  · exact good_ldData (scanned _ (by rfl)) p

theorem good_jtagReset {s : State} (h : s.Inv) : Good s.jtagReset := by
  unfold State.jtagReset
  split
  · exact good_refused _
  · exact good_next (inv_changeReset (Quiet.inv ((quiet_drawn s).trans (quiet_dcsr _ kept_reserved)) h))

/-! Other bus agents -/

theorem quiet_snooped (s : State) (line : BitVec 31) : Quiet s (s.snooped line) :=
  (Quiet.of_memSide ((memSide_releaseLine s line).trans (memSide_releaseOut _ line))).trans
    (.of_memSide (memSide_dcache _ _))

theorem good_snoopLine {s : State} (h : s.Inv) (line : BitVec 31)
    {f : Nat → L2Line → State → Host.Outcome State Fault Refusal} (hf : ∀ k l u, u.Inv → Good (f k l u)) :
    Good (s.snoopLine line f) := by
  have snooped := (quiet_snooped s line).inv h
  unfold State.snoopLine
  dsimp only
  split
  · rename_i k l _
    have logged := (Quiet.of_memSide (memSide_l2Error (s.snooped line) k l)).inv snooped
    split
    · exact hf _ _ _ logged
    · exact good_refused _
  · exact good_next snooped

theorem good_snoopRead {s : State} (h : s.Inv) (line : BitVec 31) : Good (s.snoopRead line) :=
  good_snoopLine h line fun k _ u i => good_next ((Quiet.of_memSide (memSide_l2Put u k _)).inv i)

theorem good_snoopWrite {s : State} (h : s.Inv) (line : BitVec 31) : Good (s.snoopWrite line) :=
  good_snoopLine h line fun k _ u i => good_orRefuse _ _ <| good_next <|
    ((Quiet.ite (.of_memSide (memSide_busWriteLine u _ _ _ _)) (.refl u)).trans (quiet_l2Drop _ k)).inv i

theorem quiet_snoopPush (s : State) (line : BitVec 31) (data : BitVec 256) : Quiet s (s.snoopPush line data) := by
  unfold State.snoopPush
  dsimp only
  split
  · exact (quiet_snooped s line).trans (.of_memSide ((memSide_l2Put _ _ _).trans (memSide_l2Touch _ _)))
  · exact (quiet_snooped s line).trans (.of_memSide (memSide_l2Allocate _ _))

theorem quiet_snoopPushOther (s : State) (line : BitVec 31) : Quiet s (s.snoopPushOther line) := by
  unfold State.snoopPushOther
  dsimp only
  split
  · exact (quiet_snooped s line).trans (quiet_l2Drop _ _)
  · exact quiet_snooped s line

theorem good_otherWrites {o : Host.Outcome State Fault Refusal} (h : Good o) (line : BitVec 31) (mask : BitVec 32)
    (data : BitVec 256) : Good (otherWrites line mask data o) := by
  cases o with
  | next s => exact good_next (Quiet.inv ⟨memWriteLine_wf line mask data, rfl, rfl, rfl, id⟩ (h s rfl))
  | fault f => exact good_fault f
  | refused r => exact good_refused r

theorem quiet_fetchAhead (s : State) (va : Word) : Quiet s (s.fetchAhead va) := by
  unfold State.fetchAhead
  refine .ite (.refl s) ?_
  split <;> rename_i e
  · exact .of_memSide ((side_fetchWord _).ok e)
  · exact .of_memSide ((side_fetchWord _).error e)

theorem quiet_drainOut (s : State) (k : Nat) : Quiet s (s.drainOut k) := by
  unfold State.drainOut
  split
  · exact .of_memSide (memSide_releaseOut s _)
  · exact .refl s

theorem quiet_drainEntry (s : State) (k : Nat) : Quiet s (s.drainEntry k) := by
  unfold State.drainEntry
  split
  · exact .of_memSide (memSide_releaseLine s _)
  · exact .refl s

theorem quiet_pins (s : State) (p : Pins) : Quiet s { s with pins := p } := ⟨id, rfl, rfl, rfl, id⟩

theorem good_agentMove {s : State} (h : s.Inv) (m : Move) : Good (s.agentMove m) := by
  unfold State.agentMove
  split
  · exact good_next h
  · cases m with
    | core | hold => exact good_next h
    | drain k => exact good_next ((quiet_drainEntry s k).inv h)
    | drainL2 k => exact good_next ((quiet_drainOut s k).inv h)
    | fetchAhead va => exact good_next ((quiet_fetchAhead s va).inv h)
    | irq | fiq | soc => exact good_next ((quiet_pins s _).inv h)
    | resetPin level => exact good_next (inv_changeReset ((quiet_pins s _).inv h))
    | selDcsr sr => exact good_scanSelDcsr h sr
    | dbgTx => exact good_scanTx h
    | idcode => exact good_scanId h
    | dbgRx data rxValid flushRr hsDownload => exact good_scanRx h data rxValid flushRr hsDownload
    | ldSram packet => exact good_scanLdSram h packet
    | jtagReset => exact good_jtagReset h
    | busRead line shared =>
      show Good (if s.snoops shared then _ else _)
      split
      · exact good_snoopRead h line
      · exact good_next h
    | busWrite line mask data shared =>
      refine good_otherWrites ?_ line mask data
      split
      · exact good_snoopWrite h line
      · exact good_next h
    | push line data =>
      show Good (if s.snoops true then _ else _)
      split
      · exact good_next ((quiet_snoopPush s line data).inv h)
      · exact good_next h
    | pushOther line data =>
      exact good_otherWrites (good_next ((Quiet.ite (quiet_snoopPushOther s line) (.refl s)).inv h)) line wholeLine data
    | asyncError => exact good_next ((Quiet.of_memSide (memSide_pend s .external)).inv h)
    | injectI => exact good_next ((Quiet.of_memSide (memSide_icache s _)).inv h)
    | injectD => exact good_next ((Quiet.of_memSide (memSide_dcache s _)).inv h)
    | injectL2 => exact good_next ((Quiet.of_memSide (memSide_l2 s _)).inv h)

theorem good_stepMove {s : State} (h : s.Inv) (m : Move) : Good (stepMove m s) := by
  cases m with
  | core => exact good_coreStep h false
  | hold => exact good_coreStep h true
  | _ => exact good_agentMove h _

theorem quiet_note (s : State) (n : Note) : Quiet s { s with note := n } := ⟨id, rfl, rfl, rfl, id⟩

theorem quiet_schedule (s : State) (ms : List Move) : Quiet s { s with schedule := ms } := ⟨id, rfl, rfl, rfl, id⟩

theorem good_step {s : State} (h : s.Inv) : Good (step s) := by
  have fresh := (quiet_note s Note.empty).inv h
  unfold step
  dsimp only
  split
  · exact good_coreStep fresh false
  · exact good_stepMove ((quiet_schedule _ _).inv fresh) _

/-- Settles O7: every outcome of a step is good, the core's by `good_runInstr` and the events, the other agents' by
`good_agentMove`. -/
theorem stepKeepsInvariant : Obligations.StepKeepsInvariant := by
  unfold Obligations.StepKeepsInvariant
  exact fun s t h e => good_step h t e

/-- Settles O6: the state after reset is one state, and each part of the invariant is evaluated on it. -/
theorem resetInvariant : Obligations.ResetInvariant := by
  unfold Obligations.ResetInvariant
  exact { memory := reset_mem_wf, mode := by decide, aligned := by decide, reserved := by decide }

end Sys2Proof.Keeping

/-!
PROOF. The ARM data processing: the shifter operand, the twelve operations with a destination and the four comparisons
(`40_arm_base` R500 to R525).
-/
namespace Sys2Proof.DataOps
open Sys2Proof Sys2Proof.Machine Sys2Proof.Spec Sys2Proof.ArmBase Sys2Proof.ThumbData

/-! The shifter operand -/

theorem kind_cases : ∀ kind : BitVec 2, kind = 0 ∨ kind = 1 ∨ kind = 2 ∨ kind = 3 := by decide

theorem shiftByImm_ror {n : BitVec 5} (v : Word) (c : Bool) (h : n ≠ 0#5) : shiftByImm v 3 n c = shifted 3 v n.toNat c := by
  have hne : n.toNat ≠ 0 := fun e => h (BitVec.eq_of_toNat_eq e)
  have hmod : n.toNat % 32 = n.toNat := Nat.mod_eq_of_lt n.isLt
  have hmsb := msb_rotateRight_of_mod_ne_zero (v := v) (n := n.toNat) (by omega)
  rw [hmod] at hmsb
  simp [shiftByImm, shifted, h, hne, hmsb, -BitVec.msb_rotateRight]

theorem opShImm_eq (s : State) (n : BitVec 5) (kind : BitVec 2) (m : Reg) : s.opShImm n kind m =
    if n = 0 ∧ (kind = 1 ∨ kind = 2) then shifted kind (s.reg m) 32 s.flagC
    else if n = 0 ∧ kind = 3 then
      { value := BitVec.ofBool s.flagC ++ (s.reg m).extractLsb' 1 31, carry := (s.reg m).getLsbD 0 }
    else shifted kind (s.reg m) n.toNat s.flagC := by
  unfold State.opShImm
  obtain rfl | rfl | rfl | rfl := kind_cases kind
  · rw [shiftByImm_lsl, if_neg (by simp), if_neg (by simp)]
  · rw [shiftByImm_lsr]
    by_cases h : n = 0#5 <;> simp [h]
  · rw [shiftByImm_asr]
    by_cases h : n = 0#5 <;> simp [h]
  · by_cases h : n = 0#5
    · simp [h, shiftByImm]
    · rw [shiftByImm_ror _ _ h]
      simp [h]

theorem opShReg_eq (s : State) (rs : Reg) (kind : BitVec 2) (m : Reg) :
    s.opShReg rs kind m = shifted kind (s.reg m) ((s.reg rs).toNat % 256) s.flagC := by
  have low : ((s.reg rs).setWidth 8).toNat = (s.reg rs).toNat % 256 := BitVec.toNat_setWidth ..
  unfold State.opShReg
  rw [← low]
  obtain rfl | rfl | rfl | rfl := kind_cases kind
  · exact shiftByReg_lsl ..
  · exact shiftByReg_lsr ..
  · exact shiftByReg_asr ..
  · exact shiftByReg_ror ..

/-- Settles O9: the immediate by definition, the register forms by the kind of shift. -/
theorem shifterOperand : Obligations.ShifterOperand := by
  unfold Obligations.ShifterOperand
  exact fun s => ⟨fun _ _ => rfl, opShImm_eq s, opShReg_eq s⟩

/-! The operations -/

/-- The operation of the model that each operation with a destination uses. -/
def aluOf (s : State) (a : Word) (o : Shifted) : DpOp → Machine.Sum
  | .and => aluAnd s a o
  | .eor => aluEor s a o
  | .sub => aluSub s a o
  | .rsb => aluRsb s a o
  | .add => aluAdd s a o
  | .adc => aluAdc s a o
  | .sbc => aluSbc s a o
  | .rsc => aluRsc s a o
  | .orr => aluOrr s a o
  | .mov => aluMov s o
  | .bic => aluBic s a o
  | .mvn => aluMvn s o

/-- The operation of the model that each comparison uses. -/
def testOf (s : State) (a : Word) (o : Shifted) : DpTest → Machine.Sum
  | .tst => aluAnd s a o
  | .teq => aluEor s a o
  | .cmp => aluSub s a o
  | .cmn => aluAdd s a o

theorem addWithCarry_not_flag (a b : Word) (c : Bool) : addWithCarry a (~~~b) c = minus a b (!c) := by
  rw [← addWithCarry_not_eq_minus, Bool.not_not]

theorem aluOf_eq_result (s : State) (a : Word) (o : Shifted) (op : DpOp) : aluOf s a o op = op.result s a o := by
  cases op with
  | and | eor | orr | mov | bic | mvn => rfl
  | sub => exact addWithCarry_not_flag a o.value true
  | rsb => exact addWithCarry_not_flag o.value a true
  | add | adc => exact addWithCarry_eq_plus a o.value _
  | sbc => exact addWithCarry_not_flag a o.value s.flagC
  | rsc => exact addWithCarry_not_flag o.value a s.flagC

theorem testOf_eq_result (s : State) (a : Word) (o : Shifted) (op : DpTest) : testOf s a o op = op.result s a o := by
  cases op with
  | tst | teq => rfl
  | cmp => exact addWithCarry_not_flag a o.value true
  | cmn => exact addWithCarry_eq_plus a o.value _

section
variable {cond : Cond} {s : State} (hc : condPassed cond s = true) (sBit : Bool) (rn rd : Reg)
include hc

/-- An immediate operand, or a register shifted by an immediate: no register is shut out. -/
theorem exec_dp_passed (op : DpOp) {o : Operand} (ho : ∀ rs k m, o ≠ .shReg rs k m) :
    exec (op.instr cond sBit rn rd o) s = dpFinish s sBit rd (op.result s (s.reg rn) (o.eval s)) := by
  rw [← aluOf_eq_result]
  cases o with
  | imm r v => cases op <;> exact whenCondPc_passed hc _
  | shImm n k m => cases op <;> exact whenCondPc_passed hc _
  | shReg rs k m => exact absurd rfl (ho rs k m)

theorem exec_dp_shReg_passed (op : DpOp) {rs rm : Reg} (k : BitVec 2) (hn : rn ≠ 15) (hd : rd ≠ 15) (hs : rs ≠ 15)
    (hm : rm ≠ 15) : exec (op.instr cond sBit rn rd (.shReg rs k rm)) s =
      dpFinish s sBit rd (op.result s (s.reg rn) (s.opShReg rs k rm)) := by
  have four : (rn != 15 && rd != 15 && rs != 15 && rm != 15) = true := by
    simp only [Bool.and_eq_true, bne_iff_ne]
    exact ⟨⟨⟨hn, hd⟩, hs⟩, hm⟩
  have three : (rd != 15 && rs != 15 && rm != 15) = true := by
    simp only [Bool.and_eq_true, bne_iff_ne]
    exact ⟨⟨hd, hs⟩, hm⟩
  rw [← aluOf_eq_result]
  cases op with
  | mov | mvn => exact (whenCondPc_passed hc _).trans (by rw [three]; rfl)
  | _ => exact (whenCondPc_passed hc _).trans (by rw [four]; rfl)

theorem exec_test_passed (op : DpTest) {o : Operand} (ho : o.ok = true) (hn : o.okFirst rn = true) :
    exec (op.instr cond rn o) s = dpCompare s (op.result s (s.reg rn) (o.eval s)) := by
  rw [← testOf_eq_result]
  cases o with
  | imm r v => cases op <;> exact whenCond_passed hc _
  | shImm n k m => cases op <;> exact whenCond_passed hc _
  | shReg rs k m =>
    have three : (rn != 15 && rs != 15 && m != 15) = true := by
      simp only [Operand.ok, Operand.okFirst] at ho hn
      rw [Bool.and_assoc, ho, hn]; rfl
    cases op <;> exact (whenCond_passed hc _).trans (by rw [three]; rfl)

end

/-- The end of a data-processing instruction whose destination is not R15. -/
theorem computes_of_dpFinish {i : Instr} {s : State} {sBit : Bool} {rd : Reg} {r : Machine.Sum}
    (h : exec i s = dpFinish s sBit rd r) (hd : rd ≠ 15) : Computes i s rd sBit r := by
  rw [dpFinish, if_neg hd] at h
  cases sBit with
  | true => exact computes_of_setFlags h
  | false =>
    exact ⟨_, h, regIn_setReg_self s rd r.value, rfl, frame_advance (frame_setReg (frame_refl ..) r.value (by simp)), rfl⟩

/-- Settles O10: with a destination below R15 every operation and operand ends in `dpFinish`. -/
theorem dataProcessingResult : Obligations.DataProcessingResult := by
  unfold Obligations.DataProcessingResult
  intro op o cond sBit rn rd s hc hd ho hn
  refine computes_of_dpFinish ?_ hd
  cases o with
  | imm r v => exact exec_dp_passed hc sBit rn rd op nofun
  | shImm n k m => exact exec_dp_passed hc sBit rn rd op nofun
  | shReg rs k m =>
    simp only [Operand.ok, Operand.okFirst, Bool.and_eq_true, bne_iff_ne] at ho hn
    exact exec_dp_shReg_passed hc sBit rn rd op k hn hd ho.1 ho.2

/-- Settles O11: every comparison and operand ends in `dpCompare`. -/
theorem compareResult : Obligations.CompareResult := by
  unfold Obligations.CompareResult
  exact fun op o cond rn s hc ho hn => compares_of_dpCompare (exec_test_passed hc rn op ho hn)

theorem exceptionReturn_ok {s : State} {p : Word} (spsr : s.spsr = some p)
    (mode : isSoftwareMode (p.extractLsb' 0 5) = true) (v : Word) :
    s.exceptionReturn v = .next (({ s with cpsr := p, dbg := { s.dbg with sds := false } } : State).branchIndirect
      (v &&& (if p.getLsbD 5 then ~~~1 else ~~~3))) := by
  unfold State.exceptionReturn
  rw [spsr]
  dsimp only
  rw [if_pos mode, ← apply_ite (v &&& ·)]
  rfl

/-- Settles O12: into R15 `dpFinish` is `writePc` without S and `exceptionReturn` with it. -/
theorem dataProcessingToPc : Obligations.DataProcessingToPc := by
  unfold Obligations.DataProcessingToPc
  intro op o cond rn s hc ho v
  refine ⟨fun arm aligned => ?branch, fun p spsr mode => ?exceptionReturn⟩
  case branch =>
    refine ⟨s.branchIndirect v, ?_, rfl, rfl, frame_branchIndirect (frame_refl ..) v⟩
    rw [exec_dp_passed hc false rn 15 op ho]
    show s.writePc v = _
    rw [State.writePc, arm, if_neg Bool.false_ne_true, if_pos aligned]
  case exceptionReturn =>
    refine ⟨_, (exec_dp_passed hc true rn 15 op ho).trans (exceptionReturn_ok spsr mode v), rfl, rfl, ?_⟩
    exact { frame_branchIndirect (frame_refl _ _ _) _ with }

end Sys2Proof.DataOps

/-!
PROOF. The branches that exchange the state, the Thumb branches, the addresses of the transfers, the process id and the
transfers of the status registers (`40_arm_base` R542, R544, R550, R551, `41_dsp_thumb` R701, R702, R728 to R730,
`45_arm_loadstore` R581, R582, R605, `21_mmu` R282).
-/
namespace Sys2Proof.Transfers
open Sys2Proof Sys2Proof.Machine Sys2Proof.Spec Sys2Proof.ArmBase Sys2Proof.ThumbData

/-! Branches that exchange the state -/

/-- With bit 0 clear, clearing it changes nothing. -/
theorem and_not_one {v : Word} (h : v.getLsbD 0 = false) : v &&& ~~~1 = v := by
  have hbit : (1 : Word) = BitVec.twoPow 32 0 := by decide
  rw [hbit]
  ext i hi
  by_cases h0 : i = 0
  · subst h0
    simpa [BitVec.getLsbD_eq_getElem] using h
  · simp [BitVec.getElem_twoPow, h0]

theorem interwork_eq {s : State} {v : Word} (h : v.getLsbD 0 = true ∨ v.getLsbD 1 = false) :
    s.interwork v = .next ((s.setThumb (v.getLsbD 0)).branchIndirect (v &&& ~~~1)) := by
  rw [State.interwork]
  cases h0 : v.getLsbD 0 with
  | true => rfl
  | false =>
    have h1 : v.getLsbD 1 = false := h.resolve_left (by rw [h0]; exact Bool.false_ne_true)
    rw [h1, and_not_one h0]
    rfl

section
variable {i : Instr} {s u : State} {v : Word} (hcpsr : u.cpsr = s.cpsr)
include hcpsr

/-- An interworking branch without a link. -/
theorem exchanges_of_interwork (hframe : Frame s u [] noBytes) (h : exec i s = u.interwork v) : Exchanges i s v none :=
  fun hbits =>
    ⟨_, h.trans (interwork_eq hbits), rfl, congrArg (fun c => if v.getLsbD 0 then c ||| 0x20 else c &&& ~~~0x20) hcpsr,
      nofun, frame_branchIndirect (frame_setThumb hframe _) _⟩

/-- An interworking branch that saves the return address. -/
theorem exchanges_of_interwork_link {l : Word} (hframe : Frame s u [phys s 14] noBytes)
    (h : exec i s = (u.setReg 14 l).interwork v) : Exchanges i s v (some l) := by
  intro hbits
  have hmode : u.mode = s.mode := congrArg (fun c : Word => c.extractLsb' 0 5) hcpsr
  refine ⟨_, h.trans (interwork_eq hbits), rfl,
    congrArg (fun c => if v.getLsbD 0 then c ||| 0x20 else c &&& ~~~0x20) hcpsr, ?link,
    frame_branchIndirect (frame_setThumb (frame_setReg hframe l ?phys) _) _⟩
  case link =>
    rintro _ ⟨⟩
    rw [← hmode]
    exact regIn_setReg_self u 14 l
  case phys => simp [phys, hmode]

end

theorem condPassed_noteBranch (cond : Cond) (s : State) : condPassed cond s.noteBranch = condPassed cond s := by
  cases cond <;> rfl

theorem frame_noted (s : State) (ks : List (BitVec 5)) : Frame s s.noteBranch ks noBytes := frame_noteBranch (frame_refl ..)

/-- Settles O18: each of the four ends in the interworking branch, the two with a link after R14 was written. -/
theorem branchExchange : Obligations.BranchExchange := by
  unfold Obligations.BranchExchange
  intro cond rm h m s
  refine ⟨fun hc => ?bx, fun hc hm => ?blx, ?tBx, fun hm => ?tBlx⟩
  case bx =>
    exact exchanges_of_interwork (s := s) (u := s.noteBranch) rfl (frame_noted ..)
      (whenCond_passed ((condPassed_noteBranch cond s).trans hc) _)
  case blx =>
    have hne : (rm != 15) = true := bne_iff_ne.mpr hm
    exact exchanges_of_interwork_link (s := s) (u := s.noteBranch) rfl (frame_noted ..)
      ((whenCond_passed ((condPassed_noteBranch cond s).trans hc) _).trans (by rw [hne]; rfl))
  case tBx => exact exchanges_of_interwork (s := s) (u := s.noteBranch) rfl (frame_noted ..) rfl
  case tBlx =>
    have hne : (high h m != 15) = true := bne_iff_ne.mpr hm
    refine exchanges_of_interwork_link (s := s) (u := s.noteBranch) rfl (frame_noted ..) ?_
    rw [exec_tBlxReg, execTBlxReg, hne]
    rfl

/-! The Thumb branches -/

theorem pcRead_thumb {s : State} (h : s.thumb = true) : s.pcRead = s.pc + 4 := by simp [State.pcRead, h]

theorem nextPc_thumb {s : State} (h : s.thumb = true) : s.nextPc = s.pc + 2 := by simp [State.nextPc, h]

/-- In Thumb state the T bit is set already. -/
theorem cpsr_set_thumb {s : State} (h : s.thumb = true) : s.cpsr ||| 0x20 = s.cpsr := by
  have hbit : (0x20 : Word) = BitVec.twoPow 32 5 := by decide
  rw [hbit]
  ext i hi
  by_cases h5 : i = 5
  · subst h5
    simpa [State.thumb, BitVec.getLsbD_eq_getElem] using h
  · simp [BitVec.getElem_twoPow, h5]

theorem shiftLeft_one_eq (v : Word) : v <<< 1 = v * 2 := BitVec.shiftLeft_eq_mul_twoPow v 1
theorem shiftLeft_twelve_eq (v : Word) : v <<< 12 = v * 4096 := BitVec.shiftLeft_eq_mul_twoPow v 12

section
variable {i : Instr} {s : State} {v : Word} (hthumb : s.thumb = true)
include hthumb

/-- A direct branch that stays in Thumb state. -/
theorem branches_of_branchDirect (h : exec i s = .next (s.noteB.branchDirect v)) : Branches i s v none true :=
  ⟨_, h, rfl, (cpsr_set_thumb hthumb).symm, nofun, frame_branchDirect (frame_noteB (frame_refl ..)) _⟩

theorem branches_of_branchDirect_link {l : Word} (h : exec i s = .next ((s.noteB.setReg 14 l).branchDirect v)) :
    Branches i s v (some l) true := by
  refine ⟨_, h, rfl, (cpsr_set_thumb hthumb).symm, ?link,
    frame_branchDirect (frame_setReg (frame_noteB (frame_refl ..)) _ (List.mem_singleton.mpr rfl)) _⟩
  rintro _ ⟨⟩
  exact regIn_setReg_self s.noteB 14 _

end

/-- The second half of BLX(1): the link, then ARM state. -/
theorem branches_of_branchArm_link {i : Instr} {s : State} {v l : Word}
    (h : exec i s = .next (((s.noteBranch.setReg 14 l).setThumb false).branchIndirect v)) :
    Branches i s v (some l) false := by
  refine ⟨_, h, rfl, rfl, ?link,
    frame_branchIndirect (frame_setThumb (frame_setReg (frame_noted ..) _ (List.mem_singleton.mpr rfl)) _) _⟩
  rintro _ ⟨⟩
  exact regIn_setReg_self s.noteBranch 14 _

theorem frame_noteHalf {s t : State} {ks : List (BitVec 5)} {stored : Nat → Prop} (h : Frame s t ks stored) :
    Frame s t.noteHalf ks stored := { h with }

/-- Settles O42: the targets are those of the statement by arithmetic modulo 2^32. -/
theorem thumbBranches : Obligations.ThumbBranches := by
  unfold Obligations.ThumbBranches
  intro cond simm8 off11 off10 s hthumb
  have target (x : Word) : s.pcRead + x <<< 1 = s.pc + 4 + x * 2 := by rw [pcRead_thumb hthumb, shiftLeft_one_eq]
  refine ⟨fun hc => ?taken, fun hc => ?failed, ?b, ?half, ?bl, ?blx⟩
  case taken =>
    rw [← target]
    exact branches_of_branchDirect hthumb (whenCond_passed ((condPassed_noteB cond s).trans hc) _)
  case failed =>
    rw [← nextPc_thumb hthumb]
    exact ⟨_, whenCond_failed ((condPassed_noteB cond s).trans hc) _⟩
  case b =>
    rw [← target]
    exact branches_of_branchDirect hthumb rfl
  case half =>
    rw [← pcRead_thumb hthumb, ← shiftLeft_twelve_eq]
    exact ⟨_, rfl, regIn_setReg_self s.noteHalf 14 _, rfl, rfl,
      frame_advance (frame_setReg (frame_noteHalf (frame_refl ..)) _ (List.mem_singleton.mpr rfl))⟩
  case bl =>
    rw [← shiftLeft_one_eq]
    exact branches_of_branchDirect_link hthumb rfl
  case blx =>
    rw [← scaled_two]
    exact branches_of_branchArm_link rfl

/-! Addresses -/

theorem indexed_eq (p u w : Bool) (base off : Word) : indexed p u w base off =
    { addr := if p then (if u then base + off else base - off) else base
      wb := if p && !w then none else some (if u then base + off else base - off) } := by
  cases p <;> cases w <;> rfl

theorem halfOffset_eq (hi lo : BitVec 4) : halfOffset hi lo = BitVec.ofNat 32 (16 * hi.toNat + lo.toNat) := by
  have value : (hi ++ lo).toNat = 16 * hi.toNat + lo.toNat := by
    rw [BitVec.toNat_append, ← Nat.shiftLeft_add_eq_or_of_lt lo.isLt, Nat.shiftLeft_eq, Nat.mul_comm]
  exact BitVec.eq_of_toNat_eq (by rw [halfOffset, BitVec.toNat_setWidth, value, BitVec.toNat_ofNat])

/-- Settles O19: the four addressing modes written with a conditional. -/
theorem addressingModes : Obligations.AddressingModes := by
  unfold Obligations.AddressingModes
  intro s p u w i rn rm hi lo off n kind
  refine ⟨indexed_eq .., indexed_eq .., ?_, fun k => rfl⟩
  simp only [State.am3, indexed_eq, halfOffset_eq]

/-- Settles O59: the process id is written above the low 25 bits. -/
theorem processIdRemap : Obligations.ProcessIdRemap := by
  unfold Obligations.ProcessIdRemap State.pidRemap
  intro s va
  have top : (va.extractLsb' 25 7 = 0) ↔ va.toNat < 2 ^ 25 := by
    rw [← BitVec.toNat_inj]
    simp [BitVec.extractLsb'_toNat, Nat.shiftRight_eq_div_pow]
    omega
  refine ⟨fun h => ?_, fun h => if_neg fun e => absurd (top.mp e) (by omega)⟩
  rw [if_pos (top.mpr h), BitVec.toNat_append, ← Nat.shiftLeft_add_eq_or_of_lt (BitVec.isLt _)]
  have low : va.toNat < 33554432 := h
  simp [Nat.shiftLeft_eq, Nat.mod_eq_of_lt low]

/-- Settles O1: the decoder evaluated on each word. -/
theorem decodesSpecWords : Obligations.DecodesSpecWords := by
  unfold Obligations.DecodesSpecWords
  refine ⟨rfl, rfl, rfl, rfl, rfl, rfl, rfl, rfl, rfl, rfl, rfl, rfl, rfl⟩

/-! Status registers -/

section
variable {cond : Cond} {rd : Reg} {s : State}

theorem exec_mrs_passed (r : Bool) (hc : condPassed cond s = true) (hd : rd ≠ 15) : exec (.mrs cond r 15 rd 0 0) s =
    if r then
      match s.spsr with
      | some p => .next (s.setReg rd p).advance
      | none => .refused .noSpsr
    else .next (s.setReg rd s.cpsr).advance :=
  (whenCond_passed hc _).trans (by rw [bne_iff_ne.mpr hd]; rfl)

theorem exec_mrs_pc (r : Bool) (hc : condPassed cond s = true) : exec (.mrs cond r 15 15 0 0) s = .refused .pcOperand :=
  whenCond_passed hc _

end

theorem overlay_eq (m old v : Word) : overlay m old v = old &&& ~~~m ||| v &&& m := rfl

/-- In User mode only the flags and Q are selected. -/
theorem psrMask_flags (mask : BitVec 4) :
    psrMask mask &&& 0xF8000000 = if mask.getLsbD 3 then 0xF8000000 else 0 := by
  unfold psrMask
  cases mask.getLsbD 3 <;> cases mask.getLsbD 0 <;> rfl

/-- A new CPSR with the old T bit: the pc goes on by the size of an instruction of the present state. -/
theorem advance_cpsr {s : State} {c : Word} (h : c.getLsbD 5 = s.thumb) :
    ({ s with cpsr := c } : State).advance = { s with cpsr := c, pc := s.nextPc } := by
  have hpc : ({ s with cpsr := c } : State).nextPc = s.nextPc := by
    unfold State.nextPc State.thumb at *
    rw [h]
  rw [State.advance, hpc]

section
variable {s : State} (mask : BitVec 4) (v : Word)

/-- A write of the CPSR in User mode. -/
theorem writeCpsr_user (h : s.mode = modeUser) : s.writeCpsr mask v =
    .next { s with cpsr := overlay (if mask.getLsbD 3 then 0xF8000000 else 0) s.cpsr v, pc := s.nextPc } := by
  have unprivileged : s.privileged = false := by simp [State.privileged, h]
  have kept : (if mask.getLsbD 3 then 0xF8000000 else 0 : Word).getLsbD 5 = false := by
    cases mask.getLsbD 3 <;> rfl
  have thumb : (overlay (if mask.getLsbD 3 then 0xF8000000 else 0) s.cpsr v).getLsbD 5 = s.thumb := by
    rw [Keeping.overlay_getLsbD _ _ _ (by decide), kept]
    rfl
  rw [State.writeCpsr, unprivileged, psrMask_flags]
  exact congrArg Host.Outcome.next (advance_cpsr thumb)

/-- A write of the CPSR in the other modes, of a value that the control field allows. -/
theorem writeCpsr_privileged (h : s.mode ≠ modeUser)
    (control : mask.getLsbD 0 = true → v.getLsbD 5 = s.thumb ∧ isSoftwareMode (v.extractLsb' 0 5) = true ∧
      (s.dbg.sds = true → v.extractLsb' 0 5 ≠ modeUser)) :
    s.writeCpsr mask v = .next { s with cpsr := overlay (psrMask mask) s.cpsr v, pc := s.nextPc } := by
  have privileged : s.privileged = true := bne_iff_ne.mpr h
  have thumb : (overlay (psrMask mask) s.cpsr v).getLsbD 5 = s.thumb := by
    rw [Keeping.overlay_getLsbD _ _ _ (by decide), Keeping.psrMask_control mask (by decide)]
    cases hm : mask.getLsbD 0 with
    | false => rfl
    | true => exact (control hm).1
  have first : (!mask.getLsbD 0 || v.getLsbD 5 == s.thumb) = true := by
    cases hm : mask.getLsbD 0 with
    | false => rfl
    | true => simpa using (control hm).1
  have second : (!mask.getLsbD 0 || isSoftwareMode (v.extractLsb' 0 5)) = true := by
    cases hm : mask.getLsbD 0 with
    | false => rfl
    | true => exact (control hm).2.1
  have third : (!(mask.getLsbD 0 && s.dbg.sds && v.extractLsb' 0 5 == modeUser)) = true := by
    cases hm : mask.getLsbD 0 with
    | false => rfl
    | true =>
      cases hs : s.dbg.sds with
      | false => rfl
      | true => simpa using (control hm).2.2 hs
  rw [State.writeCpsr, privileged, first, second, third]
  exact congrArg Host.Outcome.next (advance_cpsr thumb)

theorem setSpsrOf_advance (b : Bank) : (s.setSpsrOf b v).advance = { s.setSpsrOf b v with pc := s.nextPc } := by
  unfold State.setSpsrOf
  cases b.spsrIndex <;> rfl

theorem writeSpsr_some {p : Word} (h : s.spsr = some p) : s.writeSpsr mask v =
    .next { s.setSpsrOf (bankOf s.mode) (overlay (psrMask mask) p v) with pc := s.nextPc } := by
  rw [State.writeSpsr, h]
  exact congrArg Host.Outcome.next (setSpsrOf_advance ..)

end

/-- The model writes the six constant bits above Rd as two fields, and the twelve below it as three. -/
theorem append_fifteen {n : Nat} (x : BitVec n) : x ++ 0#2 ++ 15#4 = x ++ 15#6 :=
  BitVec.append_assoc (x₁ := x) (x₂ := 0#2) (x₃ := 15#4)

theorem append_zeros {n : Nat} (x : BitVec n) : x ++ 0#4 ++ 0#4 ++ 0#4 = x ++ 0#12 :=
  (congrArg (· ++ 0#4) (BitVec.append_assoc (x₁ := x) (x₂ := 0#4) (x₃ := 0#4))).trans
    (BitVec.append_assoc (x₁ := x) (x₂ := 0#8) (x₃ := 0#4))

/-- Settles O31: both forms of MSR write the selected bits of the value over the old ones. -/
theorem statusTransfer : Obligations.StatusTransfer := by
  unfold Obligations.StatusTransfer
  intro cond mask rd rm rot imm s
  refine ⟨fun r => ?encoding, fun hc => ⟨fun hd => ⟨?cpsr, fun p hp => ?spsr, fun hp => ?noSpsr⟩, ?pc, ?msr⟩⟩
  case encoding =>
    simp only [encode, putBit, put_zero, put_setWidth, BitVec.setWidth_eq]
    exact congrArg Code.arm ((congrArg (· ++ rd ++ 0#4 ++ 0#4 ++ 0#4) (append_fifteen _)).trans (append_zeros _))
  case cpsr => exact writes_of_setReg (exec_mrs_passed false hc hd)
  case spsr => exact writes_of_setReg ((exec_mrs_passed true hc hd).trans (by rw [hp]; rfl))
  case noSpsr => exact (exec_mrs_passed true hc hd).trans (by rw [hp]; rfl)
  case pc =>
    rintro rfl r
    exact exec_mrs_pc r hc
  case msr =>
    intro i v hi flags control put
    have runs (r : Bool) : exec (i r) s = s.writePsr r mask v := by
      obtain ⟨rfl, rfl⟩ | ⟨rfl, rfl⟩ := hi
      · exact whenCond_passed hc _
      · exact whenCond_passed hc _
    exact ⟨fun h => (runs false).trans (writeCpsr_user mask v h),
      fun h allowed => (runs false).trans (writeCpsr_privileged mask v h allowed),
      fun p hp => (runs true).trans (writeSpsr_some mask v hp)⟩

end Sys2Proof.Transfers

/-!
PROOF. Conditional execution (`30_encoding` R452): an instruction whose condition fails only advances the pc.
-/
namespace Sys2Proof.Conditions
open Sys2Proof Sys2Proof.Machine Sys2Proof.Spec Sys2Proof.ArmBase Sys2Proof.Transfers

/-- An outcome that only advances the pc. -/
def Skips (s : State) (o : Host.Outcome State Fault Refusal) : Prop :=
  ∃ n, o = .next { s with pc := s.nextPc, note := n }

section
variable {c : Cond} {s : State} (h : condPassed c s = false)
include h

theorem skips_whenCond (body : Host.Outcome State Fault Refusal) : Skips s (whenCond c s body) :=
  ⟨_, whenCond_failed h body⟩

theorem skips_noteB (body : Host.Outcome State Fault Refusal) : Skips s (whenCond c s.noteB body) :=
  ⟨_, whenCond_failed ((condPassed_noteB c s).trans h) body⟩

theorem skips_noteBranch (body : Host.Outcome State Fault Refusal) : Skips s (whenCond c s.noteBranch body) :=
  ⟨_, whenCond_failed ((condPassed_noteBranch c s).trans h) body⟩

theorem skips_whenCondPc (toPc : Bool) (body : Host.Outcome State Fault Refusal) : Skips s (whenCondPc toPc c s body) := by
  rw [whenCondPc, h]
  cases toPc <;> exact ⟨_, rfl⟩

end

/-! The condition of an instruction -/

/-- The condition an instruction of the ARM set is written with. -/
def condOf : Instr → Option Cond
  | .mul c .. | .mla c .. | .umull c .. | .umlal c .. | .smull c .. | .smlal c .. | .swp c .. | .swpb c ..
  | .undefExt c .. | .strh c .. | .ldrd c .. | .strd c .. | .ldrh c .. | .ldrsb c .. | .ldrsh c ..
  | .mrs c .. | .msrReg c .. | .bx c .. | .blxReg c .. | .clz c .. | .qadd c .. | .qsub c .. | .qdadd c ..
  | .qdsub c .. | .bkpt c .. | .smlaXY c .. | .smlawY c .. | .smulwY c .. | .smlalXY c .. | .smulXY c ..
  | .undefMisc c .. | .andShImm c .. | .eorShImm c .. | .subShImm c .. | .rsbShImm c .. | .addShImm c ..
  | .adcShImm c .. | .sbcShImm c .. | .rscShImm c .. | .tstShImm c .. | .teqShImm c .. | .cmpShImm c ..
  | .cmnShImm c .. | .orrShImm c .. | .movShImm c .. | .bicShImm c .. | .mvnShImm c .. | .andShReg c ..
  | .eorShReg c .. | .subShReg c .. | .rsbShReg c .. | .addShReg c .. | .adcShReg c .. | .sbcShReg c ..
  | .rscShReg c .. | .tstShReg c .. | .teqShReg c .. | .cmpShReg c .. | .cmnShReg c .. | .orrShReg c ..
  | .movShReg c .. | .bicShReg c .. | .mvnShReg c .. | .msrImm c .. | .undefImm c .. | .andImm c ..
  | .eorImm c .. | .subImm c .. | .rsbImm c .. | .addImm c .. | .adcImm c .. | .sbcImm c .. | .rscImm c ..
  | .tstImm c .. | .teqImm c .. | .cmpImm c .. | .cmnImm c .. | .orrImm c .. | .movImm c .. | .bicImm c ..
  | .mvnImm c .. | .ldrtImm c .. | .ldrbtImm c .. | .strtImm c .. | .strbtImm c .. | .ldrImm c ..
  | .ldrbImm c .. | .strImm c .. | .strbImm c .. | .ldrtReg c .. | .ldrbtReg c .. | .strtReg c ..
  | .strbtReg c .. | .ldrReg c .. | .ldrbReg c .. | .strReg c .. | .strbReg c .. | .undefMedia c ..
  | .ldm c .. | .ldmUser c .. | .ldmReturn c .. | .stm c .. | .stmUser c .. | .b c .. | .bl c .. | .mar c ..
  | .mra c .. | .mcrr c .. | .mrrc c .. | .ldcP14 c .. | .stcP14 c .. | .ldc c .. | .stc c .. | .cdp c ..
  | .mia c .. | .miaph c .. | .miabb c .. | .miabt c .. | .miatb c .. | .miatt c .. | .mcrInvICacheBtb c ..
  | .mcrInvICacheLine c .. | .mcrInvBtb c .. | .mcrInvDCache c .. | .mcrInvDCacheLine c ..
  | .mcrInvCachesBtb c .. | .mcrCleanDLineMva c .. | .mcrCleanDLineSetWay c .. | .mcrCleanInvDLineMva c ..
  | .mcrCleanInvDLineSetWay c .. | .mcrInvL2Line c .. | .mcrCleanL2LineMva c .. | .mcrCleanL2LineSetWay c ..
  | .mcrCleanInvL2LineSetWay c .. | .mcrPrefetchFlush c .. | .mcrDataWriteBarrier c ..
  | .mcrDataMemoryBarrier c .. | .mcrDLineAllocate c .. | .mcrInvTlbs c .. | .mcrInvITlb c ..
  | .mcrInvITlbEntry c .. | .mcrInvDTlb c .. | .mcrInvDTlbEntry c .. | .mcrLockILine c ..
  | .mcrLockL2Line c .. | .mcrUnlockICache c .. | .mcrUnlockL2 c .. | .mcrAllocLockL2Line c ..
  | .mrcDLock c .. | .mcrDLock c .. | .mcrUnlockDCache c .. | .mcrLockILineLegacy c ..
  | .mcrUnlockICacheLegacy c .. | .mrcDLockLegacy c .. | .mcrDLockLegacy c .. | .mcrUnlockDCacheLegacy c ..
  | .mcrLockITlbEntry c .. | .mcrUnlockITlb c .. | .mcrLockDTlbEntry c .. | .mcrUnlockDTlb c ..
  | .mrcMainId c .. | .mcrMainId c .. | .mrcCacheType c .. | .mcrCacheType c .. | .mrcL2SystemId c ..
  | .mcrL2SystemId c .. | .mrcL2CacheType c .. | .mcrL2CacheType c .. | .mrcControl c .. | .mcrControl c ..
  | .mrcAuxControl c .. | .mcrAuxControl c .. | .mrcTtBase c .. | .mcrTtBase c .. | .mrcDacr c ..
  | .mcrDacr c .. | .mrcFsr c .. | .mcrFsr c .. | .mrcFar c .. | .mcrFar c .. | .mrcProcessId c ..
  | .mcrProcessId c .. | .mrcIbr0 c .. | .mcrIbr0 c .. | .mrcIbr1 c .. | .mcrIbr1 c .. | .mrcDbr0 c ..
  | .mcrDbr0 c .. | .mrcDbr1 c .. | .mcrDbr1 c .. | .mrcDbcon c .. | .mcrDbcon c .. | .mrcCpar c ..
  | .mcrCpar c .. | .mrcPmnc c .. | .mcrPmnc c .. | .mrcCcnt c .. | .mcrCcnt c .. | .mrcInten c ..
  | .mcrInten c .. | .mrcFlag c .. | .mcrFlag c .. | .mrcEvtsel c .. | .mcrEvtsel c .. | .mrcPmn0 c ..
  | .mcrPmn0 c .. | .mrcPmn1 c .. | .mcrPmn1 c .. | .mrcPmn2 c .. | .mcrPmn2 c .. | .mrcPmn3 c ..
  | .mcrPmn3 c .. | .mrcCclkcfg c .. | .mcrCclkcfg c .. | .mrcPwrmode c .. | .mcrPwrmode c .. | .mcrTx c ..
  | .mrcRx c .. | .mrcDcsr c .. | .mcrDcsr c .. | .mrcTbreg c .. | .mrcChkpt0 c .. | .mcrChkpt0 c ..
  | .mrcChkpt1 c .. | .mcrChkpt1 c .. | .mrcTxrxctrl c .. | .mcrTxrxctrl c .. | .mrcErrlog c ..
  | .mcrErrlog c .. | .mrcErradrl c .. | .mcrErradrl c .. | .mrcErradru c .. | .mcrErradru c ..
  | .mcrP15Other c .. | .mcrP14Other c .. | .mcrP7Other c .. | .mcrP0Other c .. | .mcr c ..
  | .mrcP15Other c .. | .mrcP14Other c .. | .mrcP7Other c .. | .mrcP0Other c .. | .mrc c .. | .swi c .. => some c
  | _ => none

theorem ofBits_bits (c : Cond) : Cond.ofBits c.bits = some c := by cases c <;> rfl

/-- Writing a field below does not touch the fields above it. -/
theorem extract_put {n k a m : Nat} (y : BitVec k) (x : BitVec n) (hk : k ≤ a) (hn : a + m ≤ n) :
    (put y x).extractLsb' a m = x.extractLsb' (a - k) m := by
  apply BitVec.eq_of_getLsbD_eq
  intro i hi
  have above : ¬ a + i < k := by omega
  have inside : a + i < n := by omega
  have low : y.getLsbD (a + i) = false := BitVec.getLsbD_of_ge _ _ (by omega)
  simp [put, BitVec.getLsbD_shiftLeft, hi, above, inside, low, -BitVec.getLsbD_eq_getElem]
  congr 1
  omega

theorem extract_cond (c : Cond) : (put c.bits (0 : Word)).extractLsb' 0 4 = c.bits := by cases c <;> rfl

/-- The first field of a word of the ARM set is its condition, or all ones. -/
theorem condField {i : Instr} {w : Word} (he : encode i = .arm w) : w.extractLsb' 28 4 = ((condOf i).map Cond.bits).getD 15 := by
  cases i with
  | tLslImm | tLsrImm | tAsrImm | tAddReg | tSubReg | tAddImm3 | tSubImm3 | tMovImm | tCmpImm | tAddImm8
  | tSubImm8 | tAnd | tEor | tLslReg | tLsrReg | tAsrReg | tAdc | tSbc | tRor | tTst | tNeg | tCmpReg | tCmn
  | tOrr | tMul | tBic | tMvn | tAddHigh | tCmpHigh | tMovHigh | tBx | tBlxReg | tLdrPc | tStrReg | tStrhReg
  | tStrbReg | tLdrsbReg | tLdrReg | tLdrhReg | tLdrbReg | tLdrshReg | tStrImm | tLdrImm | tStrbImm
  | tLdrbImm | tStrhImm | tLdrhImm | tStrSp | tLdrSp | tAddPcImm | tAddSpImm | tIncSp | tDecSp | tPush | tPop
  | tBkpt | tUndef1011 | tStmia | tLdmia | tSwi | tUndefCond | tBCond | tB | tBlxSuffix | tUndefBlx
  | tBlPrefix | tBlSuffix =>
    cases he
  | pldImm | pldReg | blxImm | ldc2 | stc2 | cdp2 | mcr2 | mrc2 | undefUncond =>
    obtain rfl := Code.arm.inj he
    simp only [putBit, extract_put, Nat.reduceLeDiff, Nat.reduceAdd, Nat.reduceSub]
    rfl
  | _ =>
    obtain rfl := Code.arm.inj he
    simp only [putBit, extract_put, Nat.reduceLeDiff, Nat.reduceAdd, Nat.reduceSub]
    exact extract_cond _

theorem skips_of_condOf {i : Instr} {c : Cond} {s : State} (hc : condOf i = some c)
    (hbkpt : ∀ c' hi lo, i ≠ .bkpt c' hi lo) (h : condPassed c s = false) : Skips s (exec i s) := by
  cases i with
  | bkpt => exact absurd rfl (hbkpt _ _ _)
  | b | bl =>
    obtain rfl := Option.some.inj hc
    exact skips_noteB h _
  | bx | blxReg =>
    obtain rfl := Option.some.inj hc
    exact skips_noteBranch h _
  | andShImm | eorShImm | subShImm | rsbShImm | addShImm | adcShImm | sbcShImm | rscShImm | orrShImm
  | movShImm | bicShImm | mvnShImm | andShReg | eorShReg | subShReg | rsbShReg | addShReg | adcShReg
  | sbcShReg | rscShReg | orrShReg | movShReg | bicShReg | mvnShReg | andImm | eorImm | subImm | rsbImm
  | addImm | adcImm | sbcImm | rscImm | orrImm | movImm | bicImm | mvnImm | ldrImm | ldrReg | ldm | ldmReturn =>
    obtain rfl := Option.some.inj hc
    exact skips_whenCondPc h _ _
  | pldImm | pldReg | blxImm | ldc2 | stc2 | cdp2 | mcr2 | mrc2 | undefUncond | tLslImm | tLsrImm | tAsrImm
  | tAddReg | tSubReg | tAddImm3 | tSubImm3 | tMovImm | tCmpImm | tAddImm8 | tSubImm8 | tAnd | tEor | tLslReg
  | tLsrReg | tAsrReg | tAdc | tSbc | tRor | tTst | tNeg | tCmpReg | tCmn | tOrr | tMul | tBic | tMvn
  | tAddHigh | tCmpHigh | tMovHigh | tBx | tBlxReg | tLdrPc | tStrReg | tStrhReg | tStrbReg | tLdrsbReg
  | tLdrReg | tLdrhReg | tLdrbReg | tLdrshReg | tStrImm | tLdrImm | tStrbImm | tLdrbImm | tStrhImm | tLdrhImm
  | tStrSp | tLdrSp | tAddPcImm | tAddSpImm | tIncSp | tDecSp | tPush | tPop | tBkpt | tUndef1011 | tStmia
  | tLdmia | tSwi | tUndefCond | tBCond | tB | tBlxSuffix | tUndefBlx | tBlPrefix | tBlSuffix =>
    cases hc
  | _ =>
    obtain rfl := Option.some.inj hc
    exact skips_whenCond h _

/-- Settles O8: the table of the conditions by definition, the rest by the condition each instruction is written with. -/
theorem conditionalExecution : Obligations.ConditionalExecution := by
  unfold Obligations.ConditionalExecution
  intro s
  refine ⟨⟨rfl, rfl, rfl, rfl, rfl, rfl, rfl, rfl, rfl, rfl, rfl, rfl, rfl, rfl, rfl⟩, rfl, ?arm, ?thumb⟩
  case arm =>
    intro i w c he hc hbkpt h
    have written : condOf i = some c := by
      rw [condField he] at hc
      cases hi : condOf i with
      | none => rw [hi] at hc; cases hc
      | some c' => rw [hi] at hc; exact (ofBits_bits c').symm.trans hc
    exact skips_of_condOf written hbkpt h
  case thumb => exact fun c _ h => skips_noteB h _

end Sys2Proof.Conditions

/-!
PROOF. The entry into an exception and what takes one: SWI, the undefined encodings, BKPT, the interrupts
(`60_exceptions` R881 to R892).
-/
namespace Sys2Proof.Exceptions
open Sys2Proof Sys2Proof.Machine Sys2Proof.Spec Sys2Proof.ArmBase

/-! The SPSRs of the banks -/

theorem spsrs_get_set (v : Vector Word 6) (k j : Fin 6) (x : Word) :
    (v.set k.val x k.isLt).get j = if k = j then x else v.get j := by
  have e : ∀ w : Vector Word 6, w.get j = w[j.val] := fun w => rfl
  rw [e, e, Vector.getElem_set]
  exact if_congr Fin.ext_iff.symm rfl rfl

theorem spsrIndex_inj : ∀ {b c : Bank}, b.spsrIndex = c.spsrIndex → b = c := by
  intro b c h
  cases b <;> cases c <;> simp [Bank.spsrIndex] at h ⊢

theorem spsrOf_setSpsrOf_self {s : State} {b : Bank} {k : Fin 6} (v : Word) (h : b.spsrIndex = some k) :
    (s.setSpsrOf b v).spsrOf b = some v := by
  simp [State.setSpsrOf, State.spsrOf, h, spsrs_get_set]

theorem spsrOf_setSpsrOf_other {s : State} {b c : Bank} (v : Word) (h : c ≠ b) : (s.setSpsrOf b v).spsrOf c = s.spsrOf c := by
  cases hb : b.spsrIndex with
  | none => simp [State.setSpsrOf, hb]
  | some k =>
    cases hc : c.spsrIndex with
    | none => simp [State.spsrOf, hc]
    | some j =>
      have hne : k ≠ j := fun e => h (spsrIndex_inj (by rw [hb, hc, e]))
      simp [State.setSpsrOf, State.spsrOf, hb, hc, spsrs_get_set, hne]

/-! The CPSR of an entry -/

section
variable (c : Word) (m : BitVec 5) (f : Bool)

theorem entryCpsr_irq : (entryCpsr c m f).getLsbD 7 = true := by
  unfold entryCpsr
  rw [BitVec.getLsbD_append, BitVec.getLsbD_append, BitVec.getLsbD_append, BitVec.getLsbD_append]
  simp

theorem entryCpsr_fiq : (entryCpsr c m f).getLsbD 6 = (f || c.getLsbD 6) := by
  unfold entryCpsr
  rw [BitVec.getLsbD_append, BitVec.getLsbD_append, BitVec.getLsbD_append]
  simp

theorem entryCpsr_rest : (entryCpsr c m f).extractLsb' 8 24 = c.extractLsb' 8 24 := by
  apply BitVec.eq_of_getLsbD_eq
  intro i hi
  unfold entryCpsr
  rw [BitVec.getLsbD_extractLsb', BitVec.getLsbD_append, BitVec.getLsbD_append, BitVec.getLsbD_append,
    BitVec.getLsbD_append]
  have h5 : ¬ 8 + i < 5 := by omega
  have h6 : ¬ 8 + i - 5 < 1 := by omega
  have h7 : ¬ 8 + i - 5 - 1 < 1 := by omega
  have h8 : ¬ 8 + i - 5 - 1 - 1 < 1 := by omega
  have h : 8 + i - 5 - 1 - 1 - 1 = i := by omega
  rw [if_neg h5, if_neg h6, if_neg h7, if_neg h8, h]
  simp [hi]

end

/-! The entry -/

/-- The bank of the mode an exception enters has an SPSR. -/
theorem bankOf_mode_spsrIndex (e : Exception) : ∃ k, (bankOf e.mode).spsrIndex = some k := by
  cases e <;> exact ⟨_, rfl⟩

theorem enters_enterException (s : State) (e : Exception) (link : Word) :
    Enters s (s.enterException e link) e.mode link ((e.number ++ (0 : BitVec 2)).setWidth 32) (e == .reset || e == .fiq) := by
  obtain ⟨k, hk⟩ := bankOf_mode_spsrIndex e
  have kept : (s.enterException e link).regs = (s.setRegIn e.mode 14 link).regs := by
    simp [State.enterException, State.setSpsrOf, hk]
  have banks : (s.enterException e link).spsrs = ((s.setRegIn e.mode 14 link).setSpsrOf (bankOf e.mode) s.cpsr).spsrs := rfl
  have spsr (b : Bank) : (s.enterException e link).spsrOf b =
      ((s.setRegIn e.mode 14 link).setSpsrOf (bankOf e.mode) s.cpsr).spsrOf b := rfl
  exact {
    link := by rw [State.regIn, kept]; exact regIn_setRegIn_self s e.mode 14 link
    saved := (spsr _).trans (spsrOf_setSpsrOf_self _ hk)
    mode := Keeping.entryCpsr_mode ..
    arm := Keeping.entryCpsr_thumb ..
    irq := entryCpsr_irq ..
    fiq := entryCpsr_fiq ..
    rest := entryCpsr_rest ..
    pc := rfl
    regs := fun j hj => by rw [kept, State.setRegIn_regs, regs_get_set, if_neg hj]
    spsrs := fun b hb => (spsr b).trans (spsrOf_setSpsrOf_other _ hb)
    acc0 := by simp [State.enterException, State.setSpsrOf, hk]
    mem := fun a => by simp [State.enterException, State.setSpsrOf, hk] }

/-- Settles O32: the entry of each exception with its row of the table. -/
theorem exceptionEntry : Obligations.ExceptionEntry := by
  unfold Obligations.ExceptionEntry
  intro s link
  exact ⟨enters_enterException s .reset link, enters_enterException s .undefined link,
    enters_enterException s .swi link, enters_enterException s .prefetchAbort link,
    enters_enterException s .dataAbort link, enters_enterException s .irq link, enters_enterException s .fiq link⟩

/-! Taking an exception with the debug functionality disabled -/

section
variable {s : State} (off : s.debugOn = false)
include off

theorem not_tracing : s.tracing = false := by rw [State.tracing, off, Bool.and_false]

theorem takeException_off {e : Exception} (he : e ≠ .reset) (link : Word) (counted : Bool) :
    s.takeException e link counted = s.enterException e link := by
  have untrapped : (s.enterException e link).vectorTrap e = s.enterException e link := by
    refine if_neg fun h => ?_
    have on : (s.enterException e link).debugOn = s.debugOn := by cases e <;> rfl
    have plain : (e == .reset) = false := by cases e <;> first | rfl | exact absurd rfl he
    simp [on, off, plain] at h
  rw [State.takeException, not_tracing off]
  exact untrapped

theorem raise_off {e : Exception} (he : e ≠ .reset) (link : Word) (normal : s.dbg.sds = false) :
    s.raise e link = .next (s.enterException e link) := by
  rw [State.raise, normal, takeException_off off he]
  rfl

theorem undefined_of_raise {i : Instr} (normal : s.dbg.sds = false) (h : exec i s = s.raiseUndefined) :
    Spec.Undefined i s :=
  ⟨_, h.trans (raise_off off (e := .undefined) nofun s.nextPc normal), enters_enterException s .undefined s.nextPc, rfl⟩

end

/-- Settles O33: with the debug functionality disabled, taking the exception is its entry. -/
theorem softwareInterrupt : Obligations.SoftwareInterrupt := by
  unfold Obligations.SoftwareInterrupt
  intro cond imm imm8 s off normal
  have taken : s.raise .swi s.nextPc = .next (s.enterException .swi s.nextPc) := raise_off off (e := .swi) nofun _ normal
  have entered := enters_enterException s .swi s.nextPc
  exact ⟨fun hc => ⟨_, (whenCond_passed hc _).trans taken, entered, rfl⟩, ⟨_, taken, entered, rfl⟩⟩

end Sys2Proof.Exceptions

/-!
PROOF. The data accesses with plain memory: the value each load of the model gives, what each store leaves in memory, and what
neither touches (`20_memory` R213, R221, R222).
-/
namespace Sys2Proof.Accesses
open Sys2Proof Sys2Proof.Machine Sys2Proof.Spec Sys2Proof.ArmBase

theorem direct_of_plain {s : State} (h : PlainMemory s) : s.Direct := ⟨h.mmu, h.dcache, h.buffers, h.l2Out, h.bus, h.debug⟩

/-! What an access leaves -/

/-- Only the bytes `stored` of memory, the note, the count of free values and the record of narrow accesses may differ. -/
structure Touched (s t : State) (stored : Nat → Prop) : Prop where
  frame : Frame s t [] stored
  cpsr : t.cpsr = s.cpsr
  pc : t.pc = s.pc

section
variable {s t : State} {stored : Nat → Prop} (h : Touched s t stored)
include h

theorem Touched.mode : t.mode = s.mode := congrArg (fun c : Word => c.extractLsb' 0 5) h.cpsr

theorem Touched.nextPc : t.nextPc = s.nextPc := by
  unfold State.nextPc State.thumb
  rw [h.cpsr, h.pc]

theorem Touched.regIn (m : BitVec 5) (n : Reg) : t.regIn m n = s.regIn m n := h.frame.regs _ List.not_mem_nil

theorem Touched.widen (ks : List (BitVec 5)) : Frame s t ks stored :=
  { h.frame with regs := fun k _ => h.frame.regs k List.not_mem_nil }

theorem Touched.phys (n : Reg) : phys t n = phys s n := congrArg (physIndex · n) h.mode

end

theorem touched_refl (s : State) (stored : Nat → Prop) : Touched s s stored := ⟨frame_refl .., rfl, rfl⟩

theorem touched_noteAccess (s : State) (stored : Nat → Prop) : Touched s s.noteAccess stored :=
  ⟨{ frame_refl s [] stored with }, rfl, rfl⟩

theorem touched_accessed (s : State) (n : Nat) (stored : Nat → Prop) : Touched s (s.accessed n).noteAccess stored :=
  ⟨{ frame_refl s [] stored with subWord := fun h => by simp [State.accessed, State.noteAccess, h] }, rfl, rfl⟩

theorem touched_drawn (s : State) (stored : Nat → Prop) : Touched s s.drawn stored :=
  ⟨{ frame_refl s [] stored with }, rfl, rfl⟩

/-- The registers, the caches and the rest of two accesses in a row; the bytes of both. -/
theorem Touched.trans {s t u : State} {p q : Nat → Prop} (h : Touched s t p) (k : Touched t u q) :
    Touched s u (fun a => p a ∨ q a) :=
  ⟨{ regs := fun j hj => (k.frame.regs j hj).trans (h.frame.regs j hj)
     mem := fun a ha => (k.frame.mem a fun e => ha (.inr e)).trans (h.frame.mem a fun e => ha (.inl e))
     spsrs := k.frame.spsrs.trans h.frame.spsrs
     acc0 := k.frame.acc0.trans h.frame.acc0
     cp15 := k.frame.cp15.trans h.frame.cp15
     pmu := k.frame.pmu.trans h.frame.pmu
     dbg := k.frame.dbg.trans h.frame.dbg
     err := k.frame.err.trans h.frame.err
     pwr := k.frame.pwr.trans h.frame.pwr
     itlb := k.frame.itlb.trans h.frame.itlb
     dtlb := k.frame.dtlb.trans h.frame.dtlb
     icache := k.frame.icache.trans h.frame.icache
     btb := k.frame.btb.trans h.frame.btb
     dcache := k.frame.dcache.trans h.frame.dcache
     buffers := k.frame.buffers.trans h.frame.buffers
     l2 := k.frame.l2.trans h.frame.l2
     l2Out := k.frame.l2Out.trans h.frame.l2Out
     stale := k.frame.stale.trans h.frame.stale
     subWord := fun e => k.frame.subWord (h.frame.subWord e)
     pins := k.frame.pins.trans h.frame.pins
     pendingAbort := k.frame.pendingAbort.trans h.frame.pendingAbort
     schedule := k.frame.schedule.trans h.frame.schedule
     cfg := k.frame.cfg.trans h.frame.cfg }, k.cpsr.trans h.cpsr, k.pc.trans h.pc⟩

theorem Touched.mono {s t : State} {p q : Nat → Prop} (h : Touched s t p) (hpq : ∀ a, p a → q a) : Touched s t q :=
  ⟨{ h.frame with mem := fun a ha => h.frame.mem a fun e => ha (hpq a e) }, h.cpsr, h.pc⟩

/-- A step that stores nothing before one that may. -/
theorem Touched.after {s t u : State} {q : Nat → Prop} (h : Touched s t noBytes) (k : Touched t u q) : Touched s u q :=
  (h.trans k).mono fun _ e => e.resolve_left id

/-! The alignment check -/

theorem toNat_and_mask (va : Word) {b : Nat} (hb : b ≤ 32) : (va &&& BitVec.ofNat 32 (2 ^ b - 1)).toNat = va.toNat % 2 ^ b := by
  have hle : 2 ^ b ≤ 2 ^ 32 := Nat.pow_le_pow_right (by decide) hb
  have hpos : 0 < 2 ^ b := Nat.two_pow_pos b
  rw [BitVec.toNat_and, BitVec.toNat_ofNat, Nat.mod_eq_of_lt (by omega), Nat.and_two_pow_sub_one_eq_mod]

/-- An access that passes the check. -/
theorem checkAligned_ok {s : State} {va : Word} {b : Nat} (hb : b ≤ 32) (h : alignedFor s va (2 ^ b) = true) :
    checkAligned va b s = .ok () s := by
  have passes : (s.ctrlBit 1 && va &&& BitVec.ofNat 32 (2 ^ b - 1) != 0) = false := by
    cases on : s.ctrlBit 1 with
    | false => rfl
    | true =>
      have multiple : va.toNat % 2 ^ b = 0 := by simpa [alignedFor, on] using h
      have zero : va &&& BitVec.ofNat 32 (2 ^ b - 1) = 0 :=
        BitVec.eq_of_toNat_eq ((toNat_and_mask va hb).trans multiple)
      rw [zero]
      rfl
  rw [checkAligned, bind_ok (get_ok s), passes]
  rfl

/-! Loads -/

/-- The two low bits of an address as a number. -/
theorem low_two (va : Word) : (va.extractLsb' 0 2).toNat = va.toNat % 4 := by simp [BitVec.extractLsb'_toNat]

section
variable {s : State} (plain : PlainMemory s) (va : Word)
include plain

theorem loadAligned_plain (user : Bool) :
    loadAligned va user s = .ok (memWord s.mem (wordAt s va)) s.noteAccess :=
  loadAligned_direct va user (direct_of_plain plain)

theorem loadWord_plain (user : Bool) (ha : alignedFor s va 4 = true) :
    loadWord va user s = .ok (loadedWord s va) s.noteAccess := by
  rw [loadWord, bind_ok (checkAligned_ok (by decide) ha), bind_ok (loadAligned_plain plain va user), low_two]
  rfl

end

/-! The place of an access in its block -/

/-- The word of a block that holds an address, in memory. -/
theorem lineWord_at (m : List Host.Cell) (mva : Word) :
    lineWord (memLine m (blockOf (mva.setWidth 36))) (mva.extractLsb' 2 3) = memWord m (mva.toNat / 4 * 4) := by
  have := mva.isLt
  rw [lineWord_memLine]
  congr 1
  simp only [blockOf, BitVec.extractLsb'_toNat, BitVec.toNat_setWidth, Nat.shiftRight_eq_div_pow]
  omega

theorem block_wordOffset (mva : Word) :
    (blockOf (mva.setWidth 36)).toNat * 32 + wordOffset mva = mva.toNat / 4 * 4 ∧ wordOffset mva + 4 ≤ 32 := by
  have := mva.isLt
  have low := aligned_toNat mva
  simp only [wordOffset, blockOf, BitVec.extractLsb'_toNat, BitVec.toNat_setWidth, Nat.shiftRight_eq_div_pow, low]
  omega

/-- What a store of `n` bytes at a lane of a word leaves in memory. -/
theorem memByte_store (m : List Host.Cell) (mva v : Word) {lane n : Nat} (h : lane + n ≤ 4) (b : Nat) :
    memByte (memWriteLine m (blockOf (mva.setWidth 36)) (byteMask (wordOffset mva + lane) n)
      (placeAt (wordOffset mva + lane) v)) b =
      if mva.toNat / 4 * 4 + lane ≤ b ∧ b < mva.toNat / 4 * 4 + lane + n then
        v.extractLsb' (8 * (b - (mva.toNat / 4 * 4 + lane))) 8
      else memByte m b := by
  obtain ⟨hplace, hfits⟩ := block_wordOffset mva
  rw [memByte_memWriteLine_placeAt v b (by omega) (by omega), ← Nat.add_assoc, hplace]

/-- Exclusive or with a number below four changes the place in the word only. -/
theorem toNat_xor_low (a : Word) {k : Nat} (h : k < 4) :
    (a ^^^ BitVec.ofNat 32 k).toNat = a.toNat / 4 * 4 + (a.toNat % 4 ^^^ k) := by
  have hk : (BitVec.ofNat 32 k).toNat = k := by simp; omega
  have hdiv : (a.toNat ^^^ k) / 4 = a.toNat / 4 := by
    have := Nat.xor_div_two_pow (a := a.toNat) (b := k) (n := 2)
    rw [this]
    simp; omega
  have hmod : (a.toNat ^^^ k) % 4 = a.toNat % 4 ^^^ k := by
    have := Nat.xor_mod_two_pow (a := a.toNat) (b := k) (n := 2)
    rw [this, Nat.mod_eq_of_lt h]
  rw [BitVec.toNat_xor, hk, ← hdiv, ← hmod]
  omega

theorem byteLane_lt (s : State) (a : Word) : s.byteLane a < 4 := by
  have := low_two a
  unfold State.byteLane
  dsimp only
  split <;> omega

/-- The byte of an address in memory: its lane in its word. -/
theorem byteAt_eq (s : State) (va : Word) :
    Spec.byteAt s va = (s.pidRemap va).toNat / 4 * 4 + s.byteLane (s.pidRemap va) := by
  have hlow := low_two (s.pidRemap va)
  have hxor : ∀ k : Fin 4, k.val ^^^ 3 = 3 - k.val := by decide
  unfold Spec.byteAt State.byteLane
  rw [hlow]
  cases s.bigEndian with
  | false =>
    show (s.pidRemap va).toNat = (s.pidRemap va).toNat / 4 * 4 + (s.pidRemap va).toNat % 4
    omega
  | true =>
    have := hxor ⟨(s.pidRemap va).toNat % 4, by omega⟩
    exact (toNat_xor_low _ (by decide)).trans (congrArg _ this)

/-- The process id does not touch the low 25 bits. -/
theorem pidRemap_low (s : State) (va : Word) : (s.pidRemap va).toNat % 2 ^ 25 = va.toNat % 2 ^ 25 := by
  unfold State.pidRemap
  split
  · rw [BitVec.toNat_append, ← Nat.shiftLeft_add_eq_or_of_lt (BitVec.isLt _), Nat.shiftLeft_eq, BitVec.extractLsb'_toNat]
    omega
  · rfl

theorem pidRemap_mod (s : State) (va : Word) : (s.pidRemap va).toNat % 4 = va.toNat % 4 := by
  have := pidRemap_low s va
  omega

theorem halfLane_cases (s : State) (a : Word) : s.halfLane a = 0 ∨ s.halfLane a = 2 := by
  unfold State.halfLane
  split <;> simp

theorem getLsbD_zero_eq (a : Word) : a.getLsbD 0 = decide (a.toNat % 4 % 2 = 1) := by
  rw [BitVec.getLsbD, Nat.testBit_zero]
  congr 2
  omega

theorem getLsbD_one_eq (a : Word) : a.getLsbD 1 = decide (2 ≤ a.toNat % 4) := by
  rw [BitVec.getLsbD, Nat.testBit_succ, Nat.testBit_zero, decide_eq_decide]
  omega

/-- The halfword of an even address in memory. -/
theorem halfAt_eq (s : State) {va : Word} (even : va.getLsbD 0 = false) :
    Spec.halfAt s va = (s.pidRemap va).toNat / 4 * 4 + s.halfLane (s.pidRemap va) := by
  have two : (s.pidRemap va).toNat % 4 = 0 ∨ (s.pidRemap va).toNat % 4 = 2 := by
    rw [getLsbD_zero_eq, decide_eq_false_iff_not] at even
    have := pidRemap_mod s va
    omega
  unfold Spec.halfAt State.halfLane State.highHalf
  rw [getLsbD_one_eq]
  have flipped := toNat_xor_low (s.pidRemap va) (k := 2) (by decide)
  cases s.bigEndian with
  | false =>
    show (s.pidRemap va).toNat = _
    rcases two with h | h <;> rw [h] <;> simp <;> omega
  | true =>
    refine flipped.trans ?_
    rcases two with h | h <;> rw [h] <;> simp

theorem alignedFor_multiple (s : State) {va : Word} {n : Nat} (h : va.toNat % n = 0) : alignedFor s va n = true := by
  rw [alignedFor, h]
  simp

theorem alignedFor_even (s : State) {va : Word} (even : va.getLsbD 0 = false) : alignedFor s va 2 = true := by
  rw [getLsbD_zero_eq, decide_eq_false_iff_not] at even
  exact alignedFor_multiple s (by omega)

/-! Narrow loads -/

/-- A halfword of a word is two bytes. -/
theorem extract_half (w : Word) (k : Nat) :
    w.extractLsb' (8 * k) 16 = w.extractLsb' (8 * (k + 1)) 8 ++ w.extractLsb' (8 * k) 8 := by
  apply BitVec.eq_of_getLsbD_eq
  intro i hi
  rw [BitVec.getLsbD_append]
  by_cases low : i < 8
  · simp [hi, low]
  · have : 8 * (k + 1) + (i - 8) = 8 * k + i := by omega
    simp [hi, low, this]
    omega

section
variable {s : State} (plain : PlainMemory s) (va : Word)
include plain

theorem loadByte_plain (user : Bool) :
    loadByte va user s = .ok (loadedByte s va) (s.accessed 1).noteAccess := by
  have direct := direct_of_plain plain
  unfold loadByte
  rw [bind_ok (get_ok s), bind_ok (translate_off _ _ _ direct.mmu), bind_ok (modify_ok _ _), watch_off _ _ _ direct.debug]
  refine (bind_ok (loadLine_direct _ _ _ _ (direct.accessed 1))).trans ?_
  rw [lineWord_at, memWord_byte _ _ _ (byteLane_lt s _), ← byteAt_eq]
  rfl

theorem loadHalf_plain (even : va.getLsbD 0 = false) :
    loadHalf va s = .ok (loadedHalf s va) (s.accessed 2).noteAccess := by
  have direct := direct_of_plain plain
  have passes : checkAligned va 1 s = .ok () s := checkAligned_ok (by decide) (alignedFor_even s even)
  have allowed : require (!va.getLsbD 0) .misaligned s = .ok () s := by rw [even]; rfl
  have lane := halfLane_cases s (s.pidRemap va)
  unfold loadHalf
  rw [bind_ok passes, bind_ok allowed, bind_ok (get_ok s), bind_ok (translate_off _ _ _ direct.mmu),
    bind_ok (modify_ok _ _), watch_off _ _ _ direct.debug]
  refine (bind_ok (loadLine_direct _ _ _ _ (direct.accessed 2))).trans ?_
  rw [lineWord_at, extract_half, memWord_byte _ _ _ (by omega), memWord_byte _ _ _ (by omega), ← Nat.add_assoc,
    ← halfAt_eq s even]
  rfl

end

/-! Stores -/

/-- After a store of the low `n` bytes of `v` at physical address `p`. -/
structure Stored (s t : State) (p n : Nat) (v : Word) : Prop where
  touched : Touched s t (bytes p n)
  value : ∀ k, k < n → memByte t.mem (p + k) = v.extractLsb' (8 * k) 8

/-- A write of `n` bytes, after what an access does beside it. -/
theorem stored_of_write {s t : State} {mem : List Host.Cell} {p n : Nat} {v : Word} (touched : Touched s t noBytes)
    (h : ∀ b, memByte mem b = if p ≤ b ∧ b < p + n then v.extractLsb' (8 * (b - p)) 8 else memByte s.mem b) :
    Stored s { t with mem := mem } p n v where
  touched := ⟨{ touched.frame with mem := fun a ha => (h a).trans (if_neg ha) }, touched.cpsr, touched.pc⟩
  value := fun j hj => by
    show memByte mem (p + j) = _
    rw [h, if_pos ⟨by omega, by omega⟩]
    congr 2
    omega

section
variable {s : State} (plain : PlainMemory s) (va : Word)
include plain

theorem storeAligned_plain (user : Bool) (v : Word) :
    ∃ t, storeAligned va user v s = .ok () t ∧ Stored s t (wordAt s va) 4 v := by
  obtain ⟨mem, h, hmem⟩ := storeAligned_direct va user v (direct_of_plain plain)
  exact ⟨_, h, stored_of_write (touched_noteAccess s _) hmem⟩

theorem storeWord_plain (user : Bool) (v : Word) (ha : alignedFor s va 4 = true) :
    ∃ t, storeWord va user v s = .ok () t ∧ Stored s t (wordAt s va) 4 v := by
  rw [storeWord, bind_ok (checkAligned_ok (by decide) ha)]
  exact storeAligned_plain plain va user v

theorem storeByte_plain (user : Bool) (v : Byte) :
    ∃ t, storeByte va user v s = .ok () t ∧ Stored s t (Spec.byteAt s va) 1 (v.setWidth 32) := by
  have direct := direct_of_plain plain
  unfold storeByte
  rw [bind_ok (get_ok s), bind_ok (translate_off _ _ _ direct.mmu), bind_ok (modify_ok _ _), watch_off _ _ _ direct.debug]
  have lane := byteLane_lt s (s.pidRemap va)
  refine ⟨_, storeLine_direct _ _ _ _ _ (direct.accessed 1), stored_of_write (touched_accessed s 1 _) fun b => ?_⟩
  rw [byteAt_eq]
  exact memByte_store s.mem _ _ (by omega) b

theorem storeHalf_plain (v : Half) (even : va.getLsbD 0 = false) :
    ∃ t, storeHalf va v s = .ok () t ∧ Stored s t (Spec.halfAt s va) 2 (v.setWidth 32) := by
  have direct := direct_of_plain plain
  have passes : checkAligned va 1 s = .ok () s := checkAligned_ok (by decide) (alignedFor_even s even)
  have allowed : require (!va.getLsbD 0) .misaligned s = .ok () s := by rw [even]; rfl
  have lane := halfLane_cases s (s.pidRemap va)
  unfold storeHalf
  rw [bind_ok passes, bind_ok allowed, bind_ok (get_ok s), bind_ok (translate_off _ _ _ direct.mmu),
    bind_ok (modify_ok _ _), watch_off _ _ _ direct.debug]
  refine ⟨_, storeLine_direct _ _ _ _ _ (direct.accessed 2), stored_of_write (touched_accessed s 2 _) fun b => ?_⟩
  rw [halfAt_eq s even]
  exact memByte_store s.mem _ _ (by omega) b

end

/-! The base register -/

section
variable {s t : State} {stored : Nat → Prop} {ks : List (BitVec 5)} (h : Frame s t ks stored) (mode : t.mode = s.mode)
include h mode

theorem frame_writeBack {rn : Reg} {wb : Option Word} (hks : ∀ k ∈ baseRegs s rn wb, k ∈ ks) :
    Frame s (t.writeBack rn wb) ks stored := by
  cases wb with
  | none => exact h
  | some b => exact frame_setReg h b (by rw [phys, mode]; exact hks _ (List.mem_singleton.mpr rfl))

end

theorem writeBack_cpsr (s : State) (rn : Reg) (wb : Option Word) : (s.writeBack rn wb).cpsr = s.cpsr := by
  cases wb <;> rfl

theorem writeBack_nextPc (s : State) (rn : Reg) (wb : Option Word) : (s.writeBack rn wb).nextPc = s.nextPc := by
  cases wb <;> rfl

/-- A register that is not the base keeps its value. -/
theorem regIn_writeBack_other (s : State) {rn r : Reg} (wb : Option Word) (hr : r ≠ 15) (hrn : wb = none ∨ rn ≠ 15)
    (hne : wb = none ∨ r ≠ rn) : (s.writeBack rn wb).regIn s.mode r = s.regIn s.mode r := by
  cases wb with
  | none => rfl
  | some b => exact regIn_setReg_other b (hrn.resolve_left nofun) hr (hne.resolve_left nofun)

theorem regIn_writeBack_base (s : State) (rn : Reg) (b : Word) : (s.writeBack rn (some b)).regIn s.mode rn = b :=
  regIn_setReg_self s rn b

/-! The ends of the loads and of the stores -/

/-- A load into a register below R15. -/
theorem loads_of_finishLoad {i : Instr} {s u : State} {rd rn : Reg} {wb : Option Word} {v : Word}
    (h : exec i s = finishLoad rd rn wb v u) (touched : Touched s u noBytes) (hd : rd ≠ 15) (hn : wb = none ∨ rn ≠ 15) :
    Loads i s rd rn wb v := by
  have loaded : Frame s (u.setReg rd v) (phys s rd :: baseRegs s rn wb) noBytes :=
    frame_setReg (touched.widen _) v (by rw [touched.phys]; exact List.mem_cons_self)
  by_cases own : wb.isSome = true ∧ rd = rn
  · obtain ⟨some, rfl⟩ := own
    obtain ⟨b, rfl⟩ := Option.isSome_iff_exists.mp some
    have runs : finishLoad rd rd (.some b) v u = .next (u.setReg rd (u.freeBits 32)).drawn.advance := by
      rw [finishLoad, if_neg hd]
      simp
    refine ⟨_, h.trans runs, fun e => ?_, fun b' _ hne => absurd rfl hne, touched.cpsr, touched.nextPc, ?_⟩
    · rcases e with e | e
      · cases e
      · exact absurd rfl e
    · have opened : Frame s (u.setReg rd (u.freeBits 32)) (phys s rd :: baseRegs s rd (.some b)) noBytes :=
        frame_setReg (touched.widen _) _ (by rw [touched.phys]; exact List.mem_cons_self)
      exact { opened with }
  · have other : wb = none ∨ rd ≠ rn := by
      cases wb with
      | none => exact .inl rfl
      | some b => exact .inr fun e => own ⟨rfl, e⟩
    have runs : finishLoad rd rn wb v u = .next ((u.setReg rd v).writeBack rn wb).advance := by
      have plain : (wb.isSome && rd == rn) = false := by
        rcases other with rfl | e
        · rfl
        · simp [e]
      rw [finishLoad, if_neg hd, plain]
      rfl
    refine ⟨_, h.trans runs, fun _ => ?_, fun b e _ => ?_, ?_, ?_, ?_⟩
    · rw [← touched.mode]
      exact (regIn_writeBack_other (u.setReg rd v) wb hd hn other).trans (regIn_setReg_self u rd v)
    · subst e
      rw [← touched.mode]
      exact regIn_writeBack_base (u.setReg rd v) rn b
    · exact (writeBack_cpsr ..).trans touched.cpsr
    · exact (writeBack_nextPc ..).trans touched.nextPc
    · exact frame_advance (frame_writeBack loaded touched.mode fun k hk => List.mem_cons_of_mem _ hk)

/-- A store: what memory holds, and the base. -/
theorem stores_of_finishStore {i : Instr} {s u : State} {rn : Reg} {wb : Option Word} {p n : Nat} {v : Option Word}
    (h : exec i s = finishStore rn wb () u) (touched : Touched s u (bytes p n))
    (value : ∀ x, v = some x → ∀ k, k < n → memByte u.mem (p + k) = x.extractLsb' (8 * k) 8) :
    Stores i s rn wb p n v := by
  refine ⟨_, h, fun x hx k hk => ?_, fun b e => ?_, (writeBack_cpsr ..).trans touched.cpsr,
    (writeBack_nextPc ..).trans touched.nextPc, ?_⟩
  · refine Eq.trans ?_ (value x hx k hk)
    cases wb <;> rfl
  · subst e
    rw [← touched.mode]
    exact regIn_writeBack_base u rn b
  · exact frame_advance (frame_writeBack (touched.widen _) touched.mode fun k hk => hk)

end Sys2Proof.Accesses

/-!
PROOF. The loads and stores of one register with plain memory (`45_arm_loadstore` R585 to R596, `41_dsp_thumb` R703 to R719).
-/
namespace Sys2Proof.Singles
open Sys2Proof Sys2Proof.Machine Sys2Proof.Spec Sys2Proof.ArmBase Sys2Proof.ThumbData Sys2Proof.Transfers Sys2Proof.Accesses

/-! The forms that are predictable -/

theorem indexed_wb (p u w : Bool) (base off : Word) : (indexed p u w base off).wb = none ∨ ¬ (p = true ∧ w = false) := by
  cases p <;> cases w <;> simp [indexed]

section
variable {p w : Bool} {rn : Reg} (body : Host.Outcome State Fault Refusal)

theorem destOk {rd : Reg} (h : rd ≠ 15) : orRefuse (rd != 15) .pcOperand body = body :=
  congrArg (orRefuse · _ _) (bne_iff_ne.mpr h)

theorem am2ImmOk_of (h : am2Imm p w rn) : am2ImmOk p w rn body = body := by
  have ok : (p && !w || rn != 15) = true := by
    obtain ⟨rfl, rfl⟩ | h := h
    · rfl
    · rw [bne_iff_ne.mpr h, Bool.or_true]
  rw [am2ImmOk, ok]
  rfl

theorem am2RegOk_of {rm : Reg} (h : am2Reg p w rn rm) : am2RegOk p w rn rm body = body := by
  obtain ⟨hm, h⟩ := h
  have ok : (p && !w || rn != 15 && rm != rn) = true := by
    obtain ⟨rfl, rfl⟩ | ⟨hn, hne⟩ := h
    · rfl
    · rw [bne_iff_ne.mpr hn, bne_iff_ne.mpr hne, Bool.and_self, Bool.or_true]
  rw [am2RegOk, bne_iff_ne.mpr hm, ok]
  rfl

theorem am3Ok_of {i : Bool} {hi lo : Reg} (h : am3 p i w rn hi lo) : am3Ok p i w rn hi lo body = body := by
  obtain ⟨hoff, hform, hbase⟩ := h
  have bits : (i || hi == 0) = true := by
    obtain rfl | ⟨rfl, -⟩ := hoff
    · rfl
    · simp
  have operand : (i || lo != 15) = true := by
    obtain rfl | ⟨-, hlo⟩ := hoff
    · rfl
    · rw [bne_iff_ne.mpr hlo, Bool.or_true]
  have form : (p || !w) = true := by
    obtain rfl | rfl := hform
    · rfl
    · exact Bool.or_true p
  have base : (p && !w || rn != 15) = true := by
    obtain ⟨rfl, rfl⟩ | hbase := hbase
    · rfl
    · rw [bne_iff_ne.mpr hbase, Bool.or_true]
  rw [am3Ok, bits, form, operand, base]
  rfl

end

section
variable (s : State) {p u w : Bool} {rn : Reg}

theorem am2Imm_base {off : BitVec 12} (h : am2Imm p w rn) : (s.am2Imm p u w rn off).wb = none ∨ rn ≠ 15 :=
  (indexed_wb p u w _ _).imp_right fun e => h.resolve_left e

theorem am2Reg_base {n : BitVec 5} {kind : BitVec 2} {rm : Reg} (h : am2Reg p w rn rm) :
    (s.am2Reg p u w rn n kind rm).wb = none ∨ rn ≠ 15 :=
  (indexed_wb p u w _ _).imp_right fun e => (h.2.resolve_left e).1

theorem am3_base {i : Bool} {hi lo : Reg} (h : am3 p i w rn hi lo) : (s.am3 p u i w rn hi lo).wb = none ∨ rn ≠ 15 :=
  (indexed_wb p u w _ _).imp_right fun e => h.2.2.resolve_left e

end

/-! Loads -/

section
variable {i : Instr} {s : State} {rd rn : Reg} {a : Address} (plain : PlainMemory s) (hd : rd ≠ 15)
  (hn : a.wb = none ∨ rn ≠ 15)
include plain hd hn

theorem loads_word {user : Bool} (h : exec i s = loadWordTo user rd rn a s) (ha : Spec.alignedFor s a.addr 4 = true) :
    Loads i s rd rn a.wb (loadedWord s a.addr) := by
  refine loads_of_finishLoad (h.trans ?_) (touched_noteAccess s _) hd hn
  rw [loadWordTo, bne_iff_ne.mpr hd]
  exact withValue_ok (loadWord_plain plain a.addr user ha)

theorem loads_byte {user : Bool} (h : exec i s = loadByteTo user rd rn a s) :
    Loads i s rd rn a.wb ((loadedByte s a.addr).setWidth 32) :=
  loads_of_finishLoad (h.trans (withValue_ok (loadByte_plain plain a.addr user))) (touched_accessed s 1 _) hd hn

theorem loads_signedByte (h : exec i s = loadSignedByteTo rd rn a s) :
    Loads i s rd rn a.wb ((loadedByte s a.addr).signExtend 32) :=
  loads_of_finishLoad (h.trans (withValue_ok (loadByte_plain plain a.addr false))) (touched_accessed s 1 _) hd hn

theorem loads_half (h : exec i s = loadHalfTo rd rn a s) (even : a.addr.getLsbD 0 = false) :
    Loads i s rd rn a.wb ((loadedHalf s a.addr).setWidth 32) :=
  loads_of_finishLoad (h.trans (withValue_ok (loadHalf_plain plain a.addr even))) (touched_accessed s 2 _) hd hn

theorem loads_signedHalf (h : exec i s = loadSignedHalfTo rd rn a s) (even : a.addr.getLsbD 0 = false) :
    Loads i s rd rn a.wb ((loadedHalf s a.addr).signExtend 32) :=
  loads_of_finishLoad (h.trans (withValue_ok (loadHalf_plain plain a.addr even))) (touched_accessed s 2 _) hd hn

end

theorem low_ne_pc : ∀ d : BitVec 3, low d ≠ 15 := by decide

theorem scaled_one {w : Nat} (imm : BitVec w) : scaled imm 1 = imm.setWidth 32 * 2 := BitVec.shiftLeft_eq_mul_twoPow _ 1

/-- Settles O20: each form passes its checks and ends in a word load. -/
theorem loadWordResult : Obligations.LoadWordResult := by
  unfold Obligations.LoadWordResult
  intro cond p u w rn rd rm off n kind a b d imm5 imm8 s plain
  have thumb {i : Instr} {va : Word} (h : exec i s = loadWordTo false (low d) 0 (plainAddress va) s)
      (ha : Spec.alignedFor s va 4 = true) : Loads i s (low d) 0 none (loadedWord s va) :=
    loads_word (a := plainAddress va) plain (low_ne_pc d) (.inl rfl) h ha
  refine ⟨fun hc hd => ⟨fun ok ha => ?imm, fun ok ha => ?reg, fun ok ha => ?userImm, fun ok ha => ?userReg⟩,
    fun ha => ?pc, fun ha => thumb rfl ha, fun ha => ?offset, fun ha => ?sp⟩
  case imm =>
    exact loads_word plain hd (am2Imm_base s ok) ((whenCondPc_passed hc _).trans (am2ImmOk_of _ ok)) ha
  case reg =>
    exact loads_word plain hd (am2Reg_base s ok) ((whenCondPc_passed hc _).trans (am2RegOk_of _ ok)) ha
  case userImm =>
    exact loads_word (user := true) plain hd (am2Imm_base s ok)
      ((whenCond_passed hc _).trans ((destOk _ hd).trans (am2ImmOk_of _ ok))) ha
  case userReg =>
    exact loads_word (user := true) plain hd (am2Reg_base s ok)
      ((whenCond_passed hc _).trans ((destOk _ hd).trans (am2RegOk_of _ ok))) ha
  case pc =>
    rw [← scaled_two] at ha ⊢
    exact thumb rfl ha
  case offset =>
    rw [← scaled_two] at ha ⊢
    exact thumb rfl ha
  case sp =>
    rw [← scaled_two] at ha ⊢
    exact thumb rfl ha

/-- Settles O21: each form passes its checks and ends in a byte or halfword load. -/
theorem loadNarrowResult : Obligations.LoadNarrowResult := by
  unfold Obligations.LoadNarrowResult
  intro cond p u w i rn rd rm hi lo off n kind a b d imm5 s plain e sum
  have hlow := low_ne_pc d
  refine ⟨fun hc hd => ⟨fun ok => ?imm, fun ok => ?reg, fun ok => ?userImm, fun ok => ?userReg,
    fun ok => ⟨?signedByte, fun even => ⟨?half, ?signedHalf⟩⟩⟩, ?tByte, ?tByteImm, ?tSigned, fun even => ⟨?tHalf, ?tSignedHalf⟩,
    fun even => ?tHalfImm⟩
  case imm =>
    exact loads_byte (user := false) plain hd (am2Imm_base s ok)
      ((whenCond_passed hc _).trans ((destOk _ hd).trans (am2ImmOk_of _ ok)))
  case reg =>
    exact loads_byte (user := false) plain hd (am2Reg_base s ok)
      ((whenCond_passed hc _).trans ((destOk _ hd).trans (am2RegOk_of _ ok)))
  case userImm =>
    exact loads_byte (user := true) plain hd (am2Imm_base s ok)
      ((whenCond_passed hc _).trans ((destOk _ hd).trans (am2ImmOk_of _ ok)))
  case userReg =>
    exact loads_byte (user := true) plain hd (am2Reg_base s ok)
      ((whenCond_passed hc _).trans ((destOk _ hd).trans (am2RegOk_of _ ok)))
  case signedByte =>
    exact loads_signedByte plain hd (am3_base s ok)
      ((whenCond_passed hc _).trans ((destOk _ hd).trans (am3Ok_of _ ok)))
  case half =>
    exact loads_half plain hd (am3_base s ok)
      ((whenCond_passed hc _).trans ((destOk _ hd).trans (am3Ok_of _ ok))) even
  case signedHalf =>
    exact loads_signedHalf plain hd (am3_base s ok)
      ((whenCond_passed hc _).trans ((destOk _ hd).trans (am3Ok_of _ ok))) even
  case tByte => exact loads_byte (a := plainAddress sum) (user := false) plain hlow (.inl rfl) rfl
  case tByteImm =>
    rw [← scaled_zero imm5]
    exact loads_byte (a := plainAddress (s.reg (low a) + scaled imm5 0)) (user := false) plain hlow (.inl rfl) rfl
  case tSigned => exact loads_signedByte (a := plainAddress sum) plain hlow (.inl rfl) rfl
  case tHalf => exact loads_half (a := plainAddress sum) plain hlow (.inl rfl) rfl even
  case tSignedHalf => exact loads_signedHalf (a := plainAddress sum) plain hlow (.inl rfl) rfl even
  case tHalfImm =>
    rw [← scaled_one] at even ⊢
    exact loads_half (a := plainAddress (s.reg (low a) + scaled imm5 1)) plain hlow (.inl rfl) rfl even

/-! Stores -/

section
variable (s : State) (rd rn : Reg) (wb : Option Word)

theorem touched_storeRead : Touched s (s.storeRead rd rn wb) noBytes := by
  unfold State.storeRead
  split
  · exact touched_drawn s _
  · exact touched_refl s _

theorem plain_storeRead {s : State} (h : PlainMemory s) : PlainMemory (s.storeRead rd rn wb) := by
  unfold State.storeRead
  split
  · exact ⟨h.mmu, h.dcache, h.buffers, h.l2Out, h.bus, h.debug⟩
  · exact h

/-- Reading the value to be stored does not touch CP15, so the addresses are the same after it. -/
theorem storeRead_cp15 : (s.storeRead rd rn wb).cp15 = s.cp15 := by
  unfold State.storeRead
  split <;> rfl

theorem storedReg_eq {x : Word} (h : storedReg s rd rn wb = some x) : s.storeValue rd rn wb = x := by
  unfold storedReg at h
  unfold State.storeValue
  split at h
  · cases h
  · next e => rw [if_neg e]; exact Option.some.inj h

theorem storedValue_eq {x : Word} (h : storedValue s rd rn wb = some x) :
    (if rd = 15 then s.storePc else s.storeValue rd rn wb) = x := by
  unfold storedValue at h
  unfold State.storeValue
  split at h
  · cases h
  · next e =>
    split at h
    · next hd => rw [if_pos hd]; exact Option.some.inj h
    · next hd =>
      rw [if_neg hd, if_neg e, State.reg, if_neg hd]
      exact Option.some.inj h

end

/-- The bytes of a value are those of its low part. -/
theorem extract_setWidth (x : Word) {m k : Nat} (h : 8 * k + 8 ≤ m) (hm : m ≤ 32) :
    ((x.setWidth m).setWidth 32).extractLsb' (8 * k) 8 = x.extractLsb' (8 * k) 8 := by
  apply BitVec.eq_of_getLsbD_eq
  intro i hi
  simp only [BitVec.getLsbD_extractLsb', BitVec.getLsbD_setWidth]
  simp [hi, show 8 * k + i < 32 by omega, show 8 * k + i < m by omega]

section
variable {i : Instr} {s : State} {rd rn : Reg} {a : Address} (plain : PlainMemory s)
include plain

theorem stores_word {user : Bool} {v : Option Word} (h : exec i s = storeWordFrom user rd rn a s)
    (ha : Spec.alignedFor s a.addr 4 = true)
    (hv : ∀ x, v = some x → (if rd = 15 then s.storePc else s.storeValue rd rn a.wb) = x) :
    Stores i s rn a.wb (wordAt s a.addr) 4 v := by
  have hcp := storeRead_cp15 s rd rn a.wb
  have ha' : Spec.alignedFor (s.storeRead rd rn a.wb) a.addr 4 = true := by
    rw [Spec.alignedFor, State.ctrlBit, hcp]; exact ha
  have place : wordAt (s.storeRead rd rn a.wb) a.addr = wordAt s a.addr := by
    unfold wordAt State.pidRemap; rw [hcp]
  obtain ⟨t, runs, stored⟩ := storeWord_plain (plain_storeRead rd rn a.wb plain) a.addr user
    (if rd = 15 then s.storePc else s.storeValue rd rn a.wb) ha'
  rw [place] at stored
  exact stores_of_finishStore (h.trans (withValue_ok runs)) ((touched_storeRead s rd rn a.wb).after stored.touched)
    fun x hx k hk => by rw [← hv x hx]; exact stored.value k hk

theorem stores_byte {user : Bool} {v : Option Word} (h : exec i s = storeByteFrom user rd rn a s)
    (hv : ∀ x, v = some x → s.storeValue rd rn a.wb = x) : Stores i s rn a.wb (Spec.byteAt s a.addr) 1 v := by
  have hcp := storeRead_cp15 s rd rn a.wb
  have place : Spec.byteAt (s.storeRead rd rn a.wb) a.addr = Spec.byteAt s a.addr := by
    unfold Spec.byteAt State.pidRemap State.bigEndian State.ctrlBit; rw [hcp]
  obtain ⟨t, runs, stored⟩ := storeByte_plain (plain_storeRead rd rn a.wb plain) a.addr user
    ((s.storeValue rd rn a.wb).setWidth 8)
  rw [place] at stored
  exact stores_of_finishStore (h.trans (withValue_ok runs)) ((touched_storeRead s rd rn a.wb).after stored.touched)
    fun x hx k hk => by
      rw [← hv x hx, ← extract_setWidth (m := 8) _ (by omega) (by omega)]
      exact stored.value k hk

theorem stores_half {v : Option Word} (h : exec i s = storeHalfFrom rd rn a s) (even : a.addr.getLsbD 0 = false)
    (hv : ∀ x, v = some x → s.storeValue rd rn a.wb = x) : Stores i s rn a.wb (Spec.halfAt s a.addr) 2 v := by
  have hcp := storeRead_cp15 s rd rn a.wb
  have place : Spec.halfAt (s.storeRead rd rn a.wb) a.addr = Spec.halfAt s a.addr := by
    unfold Spec.halfAt State.pidRemap State.bigEndian State.ctrlBit; rw [hcp]
  obtain ⟨t, runs, stored⟩ := storeHalf_plain (plain_storeRead rd rn a.wb plain) a.addr
    ((s.storeValue rd rn a.wb).setWidth 16) even
  rw [place] at stored
  exact stores_of_finishStore (h.trans (withValue_ok runs)) ((touched_storeRead s rd rn a.wb).after stored.touched)
    fun x hx k hk => by
      rw [← hv x hx, ← extract_setWidth (m := 16) _ (by omega) (by omega)]
      exact stored.value k hk

end

theorem storeValue_thumb (s : State) (rd : Reg) : ∀ x, some (s.reg rd) = some x → s.storeValue rd 0 none = x :=
  fun _ h => Option.some.inj h

/-- Settles O22: each form passes its checks and ends in a word store. -/
theorem storeWordResult : Obligations.StoreWordResult := by
  unfold Obligations.StoreWordResult
  intro cond p u w rn rd rm off n kind a b d imm5 imm8 s plain
  have thumb {i : Instr} {va : Word} (h : exec i s = storeWordFrom false (low d) 0 (plainAddress va) s)
      (ha : Spec.alignedFor s va 4 = true) : Stores i s 0 none (wordAt s va) 4 (some (s.reg (low d))) :=
    stores_word (a := plainAddress va) plain h ha fun x hx => by
      rw [if_neg (low_ne_pc d)]; exact storeValue_thumb s (low d) x hx
  have value (a : Address) (x : Word) := storedValue_eq s rd rn a.wb (x := x)
  refine ⟨fun hc => ⟨fun ok ha => ?imm, fun ok ha => ?reg, fun ok ha => ?userImm, fun ok ha => ?userReg⟩,
    fun ha => thumb rfl ha, fun ha => ?offset, fun ha => ?sp⟩
  case imm => exact stores_word (user := false) plain ((whenCond_passed hc _).trans (am2ImmOk_of _ ok)) ha (value _)
  case reg => exact stores_word (user := false) plain ((whenCond_passed hc _).trans (am2RegOk_of _ ok)) ha (value _)
  case userImm => exact stores_word (user := true) plain ((whenCond_passed hc _).trans (am2ImmOk_of _ ok)) ha (value _)
  case userReg => exact stores_word (user := true) plain ((whenCond_passed hc _).trans (am2RegOk_of _ ok)) ha (value _)
  case offset =>
    rw [← scaled_two] at ha ⊢
    exact thumb rfl ha
  case sp =>
    rw [← scaled_two] at ha ⊢
    exact thumb rfl ha

/-- Settles O23: each form passes its checks and ends in a byte or halfword store. -/
theorem storeNarrowResult : Obligations.StoreNarrowResult := by
  unfold Obligations.StoreNarrowResult
  intro cond p u w i rn rd rm hi lo off n kind a b d imm5 s plain sum x
  have value (a : Address) (x : Word) := storedReg_eq s rd rn a.wb (x := x)
  have thumb := storeValue_thumb s (low d)
  refine ⟨fun hc => ⟨fun hd ok => ?imm, fun hd ok => ?reg, fun ok => ?userImm, fun ok => ?userReg⟩,
    fun hc ok even => ?half, ?tByte, ?tByteImm, fun even => ?tHalf, fun even => ?tHalfImm⟩
  case imm =>
    exact stores_byte (user := false) plain ((whenCond_passed hc _).trans ((destOk _ hd).trans (am2ImmOk_of _ ok))) (value _)
  case reg =>
    exact stores_byte (user := false) plain ((whenCond_passed hc _).trans ((destOk _ hd).trans (am2RegOk_of _ ok))) (value _)
  case userImm => exact stores_byte (user := true) plain ((whenCond_passed hc _).trans (am2ImmOk_of _ ok)) (value _)
  case userReg => exact stores_byte (user := true) plain ((whenCond_passed hc _).trans (am2RegOk_of _ ok)) (value _)
  case half => exact stores_half plain ((whenCond_passed hc _).trans (am3Ok_of _ ok)) even (value _)
  case tByte => exact stores_byte (a := plainAddress sum) (user := false) (rd := low d) plain rfl thumb
  case tByteImm =>
    rw [← scaled_zero imm5]
    exact stores_byte (a := plainAddress (s.reg (low a) + scaled imm5 0)) (user := false) (rd := low d) plain rfl thumb
  case tHalf => exact stores_half (a := plainAddress sum) (rd := low d) plain rfl even thumb
  case tHalfImm =>
    rw [← scaled_one] at even ⊢
    exact stores_half (a := plainAddress (s.reg (low a) + scaled imm5 1)) (rd := low d) plain rfl even thumb

end Sys2Proof.Singles

/-!
PROOF. The doublewords, the swaps and the load into R15 with plain memory (`45_arm_loadstore` R585, R597, R598, R615, R616).
-/
namespace Sys2Proof.Pairs
open Sys2Proof Sys2Proof.Machine Sys2Proof.Spec Sys2Proof.ArmBase Sys2Proof.Transfers Sys2Proof.Accesses Sys2Proof.Singles

/-! Two accesses in a row -/

/-- After an access memory is still plain. -/
theorem plain_of_touched {s t : State} {stored : Nat → Prop} (h : PlainMemory s) (k : Touched s t stored) : PlainMemory t where
  mmu := by rw [← h.mmu, State.mmuOn, State.mmuOn, State.ctrlBit, State.ctrlBit, k.frame.cp15]
  dcache := by rw [k.frame.dcache, h.dcache]
  buffers := by rw [k.frame.buffers, h.buffers]
  l2Out := by rw [k.frame.l2Out, h.l2Out]
  bus := by rw [k.frame.cfg, h.bus]
  debug := by rw [← h.debug, State.debugOn, State.debugOn, State.dcsrBit, State.dcsrBit, k.frame.dbg]

theorem wordAt_of_touched {s t : State} {stored : Nat → Prop} (k : Touched s t stored) (va : Word) : wordAt t va = wordAt s va := by
  unfold wordAt State.pidRemap
  rw [k.frame.cp15]

/-- A word in memory from its bytes. -/
theorem memWord_of_bytes {m : List Host.Cell} {p : Nat} {v : Word}
    (h : ∀ k, k < 4 → memByte m (p + k) = v.extractLsb' (8 * k) 8) : memWord m p = v := by
  have bytes : ∀ k, k < 4 → (memWord m p).extractLsb' (8 * k) 8 = v.extractLsb' (8 * k) 8 := fun k hk =>
    (memWord_byte m p k hk).trans (h k hk)
  apply BitVec.eq_of_getLsbD_eq
  intro i hi
  have byte := congrArg (fun b : BitVec 8 => b.getLsbD (i % 8)) (bytes (i / 8) (by omega))
  simp only [BitVec.getLsbD_extractLsb'] at byte
  rw [Nat.div_add_mod] at byte
  simpa [Nat.mod_lt] using byte

/-- A word that a step leaves alone. -/
theorem memWord_congr {m m' : List Host.Cell} {p : Nat} (h : ∀ k, k < 4 → memByte m' (p + k) = memByte m (p + k)) :
    memWord m' p = memWord m p :=
  memWord_of_bytes fun k hk => (h k hk).trans (memWord_byte m p k hk).symm

/-! Doublewords -/

theorem wordAt_mod (s : State) (va : Word) : wordAt s va % 4 = 0 ∧ wordAt s va / 4 = (s.pidRemap va).toNat / 4 := by
  rw [wordAt, aligned_toNat]
  omega

/-- The two words of a doubleword lie in different places. -/
theorem wordAt_halves (s : State) {va : Word} (h : va.toNat % 8 = 0) :
    wordAt s va % 8 = 0 ∧ wordAt s (va + 4) % 8 = 4 := by
  have low := pidRemap_low s va
  have high := pidRemap_low s (va + 4)
  have sum : (va + 4).toNat % 8 = 4 := by rw [BitVec.toNat_add]; simp; omega
  obtain ⟨h1, h2⟩ := wordAt_mod s va
  obtain ⟨h3, h4⟩ := wordAt_mod s (va + 4)
  omega

section
variable {s : State} (plain : PlainMemory s) {va : Word} (h : va.toNat % 8 = 0)
include plain h

omit plain in
theorem checkDouble_plain : checkDouble va s = .ok () s := by
  have passes : checkAligned va 3 s = .ok () s := checkAligned_ok (by decide) (alignedFor_multiple s h)
  have zero : va.extractLsb' 0 3 = 0 := BitVec.eq_of_toNat_eq (by simpa [BitVec.extractLsb'_toNat] using h)
  have allowed : require (va.extractLsb' 0 3 == 0) .misaligned s = .ok () s := by rw [zero]; rfl
  rw [checkDouble, bind_ok passes, allowed]

theorem loadDouble_plain : ∃ t, loadDouble va s = .ok (memWord s.mem (wordAt s va), memWord s.mem (wordAt s (va + 4))) t ∧
    Touched s t noBytes := by
  have first := touched_noteAccess s noBytes
  refine ⟨s.noteAccess.noteAccess, ?_, first.after (touched_noteAccess _ _)⟩
  rw [loadDouble, bind_ok (checkDouble_plain h), bind_ok (loadAligned_plain plain va false),
    bind_ok (loadAligned_plain (plain_of_touched plain first) (va + 4) false)]
  rfl

theorem storeDouble_plain (a b : Word) : ∃ t, storeDouble va a b s = .ok () t ∧
    Touched s t (fun x => bytes (wordAt s va) 4 x ∨ bytes (wordAt s (va + 4)) 4 x) ∧
    memWord t.mem (wordAt s va) = a ∧ memWord t.mem (wordAt s (va + 4)) = b := by
  obtain ⟨t, runs, first⟩ := storeAligned_plain plain va false a
  obtain ⟨u, runs', second⟩ := storeAligned_plain (plain_of_touched plain first.touched) (va + 4) false b
  rw [wordAt_of_touched first.touched] at second
  obtain ⟨low, high⟩ := wordAt_halves s h
  refine ⟨u, ?_, first.touched.trans second.touched, memWord_of_bytes fun k hk => ?_, memWord_of_bytes second.value⟩
  · rw [storeDouble, bind_ok (checkDouble_plain h), bind_ok runs, runs']
  · rw [second.touched.frame.mem _ fun e => ?_, first.value k hk]
    obtain ⟨e1, e2⟩ := e
    omega

end

theorem add_one_ne_self : ∀ r : Reg, r + 1 ≠ r := by decide

/-- An even register below R14 and the one after it. -/
theorem even_pair : ∀ {r : Reg}, r.getLsbD 0 = false → r ≠ 14 → r ≠ 15 ∧ r + 1 ≠ 15 := by decide

section
variable {p i w : Bool} {rn rd lo : Reg} (h : doubleRegs p i w rn rd lo)
include h

theorem doubleOk_of (s : State) (body : Host.Outcome State Fault Refusal) : doubleOk p i w rn rd lo s body = body := by
  obtain ⟨even, hd, base, off⟩ := h
  have first : (p && !w || rn != rd && rn != rd + 1) = true := by
    obtain ⟨rfl, rfl⟩ | ⟨h1, h2⟩ := base
    · rfl
    · rw [bne_iff_ne.mpr h1, bne_iff_ne.mpr h2, Bool.and_self, Bool.or_true]
  have second : (i || lo != rd && lo != rd + 1) = true := by
    obtain rfl | ⟨h1, h2⟩ := off
    · rfl
    · rw [bne_iff_ne.mpr h1, bne_iff_ne.mpr h2, Bool.and_self, Bool.or_true]
  rw [doubleOk, even, bne_iff_ne.mpr hd, first, second]
  rfl

theorem double_base (s : State) {u : Bool} {hi : Reg} :
    (s.am3 p u i w rn hi lo).wb = none ∨ (rn ≠ rd ∧ rn ≠ rd + 1) :=
  (indexed_wb p u w _ _).imp_right fun e => h.2.2.1.resolve_left e

end

/-- Settles O24: both words by one aligned access each, which do not overlap. -/
theorem doublewordResult : Obligations.DoublewordResult := by
  unfold Obligations.DoublewordResult
  intro cond p u w i rn rd hi lo s plain hc e ok regs aligned
  obtain ⟨hd, hd1⟩ := even_pair regs.1 regs.2.1
  have hne := add_one_ne_self rd
  have base := am3_base s (u := u) ok
  have other := double_base regs s (u := u) (hi := hi)
  refine ⟨?load, ?store⟩
  case load =>
    obtain ⟨t, runs, touched⟩ := loadDouble_plain plain aligned
    let loaded := (t.setReg rd (memWord s.mem (wordAt s e.addr))).setReg (rd + 1) (memWord s.mem (wordAt s (e.addr + 4)))
    obtain ⟨first, second, -⟩ := setReg_pair t (memWord s.mem (wordAt s e.addr)) (memWord s.mem (wordAt s (e.addr + 4)))
      hd hd1 hne.symm
    have mode : loaded.mode = s.mode := touched.mode
    have frame : Frame s loaded (phys s rd :: phys s (rd + 1) :: baseRegs s rn e.wb) noBytes :=
      frame_setReg (frame_setReg (touched.widen _) _ (by rw [touched.phys]; exact List.mem_cons_self)) _
        (by rw [show phys (t.setReg rd _) (rd + 1) = phys s (rd + 1) from touched.phys _]
            exact List.mem_cons_of_mem _ List.mem_cons_self)
    refine ⟨_, (whenCond_passed hc _).trans ((doubleOk_of regs s _).trans ((am3Ok_of _ ok).trans (withValue_ok runs))),
      ?_, ?_, fun b hb => ?_, (writeBack_cpsr ..).trans touched.cpsr, (writeBack_nextPc ..).trans touched.nextPc,
      frame_advance (frame_writeBack frame mode fun k hk => List.mem_cons_of_mem _ (List.mem_cons_of_mem _ hk))⟩
    · rw [← mode]
      exact (regIn_writeBack_other loaded _ hd base (other.imp_right fun h => h.1.symm)).trans first
    · rw [← mode]
      exact (regIn_writeBack_other loaded _ hd1 base (other.imp_right fun h => h.2.symm)).trans second
    · have hb : (s.am3 p u i w rn hi lo).wb = some b := hb
      rw [← mode, hb]
      exact regIn_writeBack_base loaded rn b
  case store =>
    obtain ⟨t, runs, touched, first, second⟩ := storeDouble_plain plain aligned (s.reg rd) (s.reg (rd + 1))
    have mem : (t.writeBack rn e.wb).advance.mem = t.mem := by cases e.wb <;> rfl
    refine ⟨_, (whenCond_passed hc _).trans ((doubleOk_of regs s _).trans ((am3Ok_of _ ok).trans (withValue_ok runs))),
      (congrArg (memWord · _) mem).trans first, (congrArg (memWord · _) mem).trans second, fun b hb => ?_,
      (writeBack_cpsr ..).trans touched.cpsr, (writeBack_nextPc ..).trans touched.nextPc,
      frame_advance (frame_writeBack (touched.widen _) touched.mode fun k hk => hk)⟩
    have hb : (s.am3 p u i w rn hi lo).wb = some b := hb
    rw [← touched.mode]
    exact (congrArg (fun wb => (t.writeBack rn wb).advance.regIn t.mode rn) hb).trans (regIn_writeBack_base t rn b)

/-! Swaps -/

theorem swapFence_plain {s : State} (h : s.Direct) (m : Mapped) : s.swapFence m = s := by
  unfold State.swapFence
  split
  · exact drainBuffers_empty h.buffers h.l2Out
  · exact releaseLine_empty _ h.buffers

/-- The read and the write of a swap of `n` bytes at a lane of the word that holds an address. -/
theorem swapWord_plain {s : State} (plain : PlainMemory s) (mva v : Word) {lane n : Nat} (h : lane + n ≤ 4) :
    ∃ t, swapWord mva n (byteMask (wordOffset mva + lane) n) (placeAt (wordOffset mva + lane) v) s =
        .ok (memWord s.mem (mva.toNat / 4 * 4)) t ∧ Stored s t (mva.toNat / 4 * 4 + lane) n v := by
  have direct := direct_of_plain plain
  have accessed := direct.accessed n
  have noted := accessed.noteAccess
  refine ⟨_, ?_, stored_of_write ((touched_accessed s n _).after (touched_noteAccess _ _)) fun b => memByte_store s.mem mva v h b⟩
  unfold swapWord
  rw [bind_ok (get_ok s), bind_ok (translate_off _ _ _ direct.mmu), bind_ok (modify_ok _ _), watch_off _ _ _ direct.debug]
  refine (bind_ok (loadLine_direct _ _ _ _ accessed)).trans ?_
  rw [bind_ok (modify_ok _ _), releaseHeld_empty noted.buffers]
  refine (bind_ok (storeLine_direct _ _ _ _ _ noted)).trans ?_
  have quiet (m : List Host.Cell) : State.Direct { (s.accessed n).noteAccess.noteAccess with mem := m } :=
    ⟨noted.mmu, noted.dcache, noted.buffers, noted.l2Out, noted.bus, noted.debug⟩
  rw [bind_ok (modify_ok _ _), swapFence_plain (quiet _), lineWord_at]
  rfl

theorem wordAt_eq (s : State) (va : Word) : wordAt s va = (s.pidRemap va).toNat / 4 * 4 := aligned_toNat _

theorem swapWordAt_plain {s : State} (plain : PlainMemory s) (va v : Word) (ha : Spec.alignedFor s va 4 = true) :
    ∃ t, swapWordAt va v s = .ok (loadedWord s va) t ∧ Stored s t (wordAt s va) 4 v := by
  obtain ⟨t, runs, stored⟩ := swapWord_plain plain (s.pidRemap va &&& ~~~3) v (lane := 0) (n := 4) (by decide)
  have place : (s.pidRemap va &&& ~~~3).toNat / 4 * 4 = wordAt s va := by
    have := (wordAt_mod s va).1
    unfold wordAt at *
    omega
  rw [place, Nat.add_zero] at runs stored
  refine ⟨t, ?_, stored⟩
  rw [swapWordAt, bind_ok (checkAligned_ok (by decide) ha), bind_ok (get_ok s), bind_ok runs, low_two]
  rfl

theorem swapByteAt_plain {s : State} (plain : PlainMemory s) (va : Word) (v : Byte) :
    ∃ t, swapByteAt va v s = .ok (loadedByte s va) t ∧ Stored s t (Spec.byteAt s va) 1 (v.setWidth 32) := by
  have lane := byteLane_lt s (s.pidRemap va)
  obtain ⟨t, runs, stored⟩ := swapWord_plain plain (s.pidRemap va) (v.setWidth 32) (lane := s.byteLane (s.pidRemap va))
    (n := 1) (by omega)
  rw [← byteAt_eq] at stored
  refine ⟨t, ?_, stored⟩
  have value : (memWord s.mem ((s.pidRemap va).toNat / 4 * 4)).extractLsb' (8 * s.byteLane (s.pidRemap va)) 8 =
      loadedByte s va := by rw [memWord_byte _ _ _ lane, ← byteAt_eq]; rfl
  rw [swapByteAt, bind_ok (get_ok s), bind_ok runs, value]
  rfl

/-- The end of a swap. -/
theorem swaps_of_setReg {i : Instr} {s t : State} {rd : Reg} {v w : Word} {p n : Nat} {x : Word}
    (h : exec i s = .next (t.setReg rd v).advance) (stored : Stored s t p n w)
    (value : ∀ k, k < n → w.extractLsb' (8 * k) 8 = x.extractLsb' (8 * k) 8) : Swaps i s rd v p n x := by
  refine ⟨_, h, ?_, fun k hk => (stored.value k hk).trans (value k hk), stored.touched.cpsr, stored.touched.nextPc,
    frame_advance (frame_setReg (stored.touched.widen _) v (by rw [stored.touched.phys]; exact List.mem_cons_self))⟩
  rw [← stored.touched.mode]
  exact regIn_setReg_self t rd v

/-- Settles O29: the word that holds the address is read, and its bytes are written, in one access. -/
theorem swapResult : Obligations.SwapResult := by
  unfold Obligations.SwapResult
  intro cond rn rd rm s plain hc hn hd hm hnm hnd
  have operands : (rd != 15 && rm != 15 && rn != 15) = true := by
    rw [bne_iff_ne.mpr hd, bne_iff_ne.mpr hm, bne_iff_ne.mpr hn]; rfl
  have apart : (rn != rm && rn != rd) = true := by rw [bne_iff_ne.mpr hnm, bne_iff_ne.mpr hnd]; rfl
  refine ⟨fun ha => ?word, ?byte⟩
  case word =>
    obtain ⟨t, runs, stored⟩ := swapWordAt_plain plain (s.reg rn) (s.reg rm) ha
    refine swaps_of_setReg ((whenCond_passed hc _).trans ?_) stored fun k hk => rfl
    rw [operands, apart]
    exact withValue_ok runs
  case byte =>
    obtain ⟨t, runs, stored⟩ := swapByteAt_plain plain (s.reg rn) ((s.reg rm).setWidth 8)
    refine swaps_of_setReg ((whenCond_passed hc _).trans ?_) stored fun k hk => extract_setWidth _ (by omega) (by omega)
    rw [operands, apart]
    exact withValue_ok runs

end Sys2Proof.Pairs

/-!
PROOF. The multiple transfers with plain memory and process id 0 (`45_arm_loadstore` R605 to R610, `41_dsp_thumb` R724 to
R727).
-/
namespace Sys2Proof.Multiples
open Sys2Proof Sys2Proof.Machine Sys2Proof.Spec Sys2Proof.ArmBase Sys2Proof.Transfers Sys2Proof.Accesses Sys2Proof.Singles Sys2Proof.Pairs

/-! The registers of a list -/

theorem mem_listRegs {list : BitVec 16} {r : Reg} : r ∈ listRegs list ↔ list.getLsbD r.toNat = true := by
  unfold listRegs
  simp only [List.mem_map, List.mem_filter, List.mem_range]
  constructor
  · rintro ⟨k, ⟨hk, hbit⟩, rfl⟩
    rwa [BitVec.toNat_ofNat, Nat.mod_eq_of_lt hk]
  · intro h
    exact ⟨r.toNat, ⟨r.isLt, h⟩, BitVec.ofNat_toNat 4 r⟩

theorem nodup_listRegs (list : BitVec 16) : (listRegs list).Nodup := by
  refine List.Nodup.map_on ?_ ((List.nodup_range).filter _)
  intro a ha b hb h
  have := congrArg BitVec.toNat h
  simp only [List.mem_filter, List.mem_range] at ha hb
  simpa [BitVec.toNat_ofNat, Nat.mod_eq_of_lt ha.1, Nat.mod_eq_of_lt hb.1] using this

theorem length_listRegs (list : BitVec 16) : (listRegs list).length = listCount 16 list := by
  rw [listRegs, List.length_map, listCount, List.countP_eq_length_filter]

theorem listRegs_ne_nil {list : BitVec 16} (h : list ≠ 0) : listRegs list ≠ [] := by
  intro e
  refine h (BitVec.eq_of_getLsbD_eq fun i hi => ?_)
  have none : BitVec.ofNat 4 i ∉ listRegs list := by rw [e]; exact List.not_mem_nil
  rw [mem_listRegs, BitVec.toNat_ofNat, Nat.mod_eq_of_lt (by omega)] at none
  simpa using none

/-- More zeros above a list do not change its count. -/
theorem listCount_low (tl : BitVec 8) : listCount 16 (lowList tl) = listCount 8 tl := by
  have low : (List.range 8).countP (fun k => (lowList tl).getLsbD k) = (List.range 8).countP fun k => tl.getLsbD k := by
    refine List.countP_congr fun k hk => ?_
    have : k < 16 := by simp at hk; omega
    simp [lowList, this]
  have high : ((List.range 8).map (8 + ·)).countP (fun k => (lowList tl).getLsbD k) = 0 := by
    simp [lowList, List.countP_eq_zero]
  have halves : List.range 16 = List.range 8 ++ (List.range 8).map (8 + ·) := List.range_add (n := 8) (m := 8)
  rw [listCount, halves, List.countP_append, low, high]
  rfl

/-- With R15 the list has one register more, the last. -/
theorem listRegs_pc (regs : BitVec 15) : listRegs ((1 : BitVec 1) ++ regs) = listRegs ((0 : BitVec 1) ++ regs) ++ [15] := by
  have low (x : BitVec 1) : (List.range 15).filter (fun k => (x ++ regs).getLsbD k) =
      (List.range 15).filter fun k => regs.getLsbD k := by
    refine List.filter_congr fun k hk => ?_
    rw [BitVec.getLsbD_append, if_pos (List.mem_range.mp hk)]
  have top (x : BitVec 1) : (x ++ regs).getLsbD 15 = x.getLsbD 0 := by rw [BitVec.getLsbD_append]; rfl
  have last : List.range 16 = List.range 15 ++ [15] := List.range_succ (n := 15)
  rw [listRegs, listRegs, last, List.filter_append, List.filter_append, low, low,
    List.map_append, List.map_append, List.filter_cons, List.filter_cons, top, top]
  simp

/-! The words of a block -/

/-- The words in memory of a block of `n` words. -/
def blockWords (s : State) (start : Word) (n : Nat) : List Word := (List.range n).map fun k => memWord s.mem (blockWord start k)

theorem getElem?_blockWords (s : State) (start : Word) {n k : Nat} (h : k < n) :
    (blockWords s start n)[k]? = some (memWord s.mem (blockWord start k)) := by
  simp [blockWords, h]

theorem blockWord_zero (start : Word) : blockWord start 0 = (start &&& ~~~3).toNat := by simp [blockWord]

theorem blockWord_succ (start : Word) (k : Nat) : blockWord start (k + 1) = blockWord (start + 4) k := by
  have : BitVec.ofNat 32 (4 * (k + 1)) = 4#32 + BitVec.ofNat 32 (4 * k) := by
    rw [Nat.mul_succ, Nat.add_comm, BitVec.ofNat_add]
  rw [blockWord, blockWord, this, ← BitVec.add_assoc]
  rfl

theorem blockWords_succ (s : State) (start : Word) (n : Nat) :
    blockWords s start (n + 1) = memWord s.mem (blockWord start 0) :: blockWords s (start + 4) n := by
  simp [blockWords, List.range_succ_eq_map, blockWord_succ]

theorem blockWords_congr {s t : State} (h : t.mem = s.mem) (start : Word) (n : Nat) :
    blockWords t start n = blockWords s start n := by
  simp only [blockWords, h]

theorem getLastD_blockWords (s : State) (start : Word) (n : Nat) :
    (blockWords s start (n + 1)).getLastD 0 = memWord s.mem (blockWord start n) := by
  simp [blockWords, List.range_succ]

theorem pidRemap_zero {s : State} (h : s.cp15.pid = 0) (va : Word) : s.pidRemap va = va := by
  unfold State.pidRemap
  split
  · next e =>
    rw [h, ← e]
    apply BitVec.eq_of_getLsbD_eq
    intro i hi
    rw [BitVec.getLsbD_append]
    split
    · next low => simp [low]
    · next high =>
      have : 25 + (i - 25) = i := by omega
      simp [this, show i - 25 < 7 by omega]
  · rfl

theorem wordAt_pid {s : State} (h : s.cp15.pid = 0) (va : Word) : wordAt s va = blockWord va 0 := by
  rw [wordAt, pidRemap_zero h, blockWord_zero]

theorem loadList_cons {m base : BitVec 5} {va w : Word} {done rest : List Reg} {r : Reg} {s t u : State} {ws : List Word}
    (h : loadAligned va false s = .ok w t) (k : loadList m base (va + 4) (done ++ [r]) rest t = .ok ws u) :
    loadList m base va done (r :: rest) s = .ok (w :: ws) u := by
  simp only [loadList, h, k]

/-- The words of a list, by one aligned load each. -/
theorem loadList_plain {s : State} (plain : PlainMemory s) (pid : s.cp15.pid = 0) (m base : BitVec 5) (va : Word)
    (done rs : List Reg) :
    ∃ t, loadList m base va done rs s = .ok (blockWords s va rs.length) t ∧ Touched s t noBytes ∧ t.mem = s.mem := by
  induction rs generalizing s va done with
  | nil => exact ⟨s, rfl, touched_refl s _, rfl⟩
  | cons r rest ih =>
    have first := touched_noteAccess s noBytes
    obtain ⟨t, runs, touched, mem⟩ := ih (plain_of_touched plain first) pid (va + 4) (done ++ [r])
    refine ⟨t, ?_, first.after touched, mem⟩
    rw [loadList_cons (loadAligned_plain plain va false) runs, wordAt_pid pid, List.length_cons, blockWords_succ]
    rfl

theorem loadMultiple_plain {s : State} (plain : PlainMemory s) (pid : s.cp15.pid = 0) (m base : BitVec 5) {start : Word}
    (ha : Spec.alignedFor s start 4 = true) (list : BitVec 16) :
    ∃ t, loadMultiple m base start list s = .ok (blockWords s start (listRegs list).length) t ∧ Touched s t noBytes := by
  obtain ⟨t, runs, touched, -⟩ := loadList_plain plain pid m base start [] (listRegs list)
  exact ⟨t, (bind_ok (checkAligned_ok (by decide) ha)).trans runs, touched⟩

/-! Writing a list of registers -/

section
variable (m : BitVec 5)

theorem setList_cpsr (s : State) (rs : List Reg) (ws : List Word) : (s.setList m rs ws).cpsr = s.cpsr := by
  induction rs generalizing s ws with
  | nil => rfl
  | cons r rest ih =>
    cases ws with
    | nil => rfl
    | cons w rest' =>
      rw [State.setList, ih]
      split <;> rfl

theorem setList_pc (s : State) (rs : List Reg) (ws : List Word) : (s.setList m rs ws).pc = s.pc := by
  induction rs generalizing s ws with
  | nil => rfl
  | cons r rest ih =>
    cases ws with
    | nil => rfl
    | cons w rest' =>
      rw [State.setList, ih]
      split <;> rfl

theorem frame_setRegIn {s t : State} {ks : List (BitVec 5)} {stored : Nat → Prop} (h : Frame s t ks stored) {n : Reg}
    (v : Word) (hn : physIndex m n ∈ ks) : Frame s (t.setRegIn m n v) ks stored :=
  { h with
    regs := fun k hk => by
      have hne : k ≠ physIndex m n := fun e => hk (e ▸ hn)
      rw [State.setRegIn_regs, regs_get_set, if_neg hne, h.regs k hk] }

theorem frame_setList {s t : State} {ks : List (BitVec 5)} {stored : Nat → Prop} (h : Frame s t ks stored) (rs : List Reg)
    (ws : List Word) (hks : ∀ r ∈ rs, r ≠ 15 → physIndex m r ∈ ks) : Frame s (t.setList m rs ws) ks stored := by
  induction rs generalizing t ws with
  | nil => exact h
  | cons r rest ih =>
    cases ws with
    | nil => exact h
    | cons w rest' =>
      refine ih ?_ rest' fun r' hr' => hks r' (List.mem_cons_of_mem _ hr')
      split
      · exact h
      · next hr => exact frame_setRegIn m h w (hks r List.mem_cons_self hr)

/-- A register outside the list keeps its value. -/
theorem regIn_setList_other (s : State) {r : Reg} (hr : r ≠ 15) (rs : List Reg) (ws : List Word) (h : r ∉ rs) :
    (s.setList m rs ws).regIn m r = s.regIn m r := by
  induction rs generalizing s ws with
  | nil => rfl
  | cons r' rest ih =>
    cases ws with
    | nil => rfl
    | cons w rest' =>
      have hne : r ≠ r' := fun e => h (e ▸ List.mem_cons_self)
      have hrest : r ∉ rest := fun e => h (List.mem_cons_of_mem _ e)
      rw [State.setList, ih _ _ hrest]
      split
      · rfl
      · next hr' => exact regIn_setRegIn_other (lt_fifteen hr') (lt_fifteen hr) hne

/-- A register of the list receives its word. -/
theorem regIn_setList (s : State) {rs : List Reg} (nodup : rs.Nodup) {ws : List Word} {k : Nat} {r : Reg} {w : Word}
    (hr : r ≠ 15) (hk : rs[k]? = some r) (hw : ws[k]? = some w) : (s.setList m rs ws).regIn m r = w := by
  induction rs generalizing s ws k with
  | nil => cases hk
  | cons r' rest ih =>
    obtain ⟨hnot, hrest⟩ := List.nodup_cons.mp nodup
    cases ws with
    | nil => cases hw
    | cons w' rest' =>
      cases k with
      | zero =>
        obtain rfl : r' = r := Option.some.inj hk
        obtain rfl : w' = w := Option.some.inj hw
        rw [State.setList, if_neg hr, regIn_setList_other m _ hr _ _ hnot]
        exact regIn_setRegIn_self ..
      | succ k => exact ih _ hrest hk hw

end

end Sys2Proof.Multiples

/-!
PROOF. The multiple loads and the load into R15 (`45_arm_loadstore` R585, R606 to R608, `41_dsp_thumb` R725, R727).
-/
namespace Sys2Proof.Multiples
open Sys2Proof Sys2Proof.Machine Sys2Proof.Spec Sys2Proof.ArmBase Sys2Proof.Transfers Sys2Proof.Accesses Sys2Proof.Singles Sys2Proof.Pairs
  Sys2Proof.DataOps

/-- After the registers of a list and the base were written, before the pc moves. -/
structure Loaded (s t : State) (m : BitVec 5) (rn : Reg) (wb : Option Word) (start : Word) (list : BitVec 16) : Prop where
  regs : ∀ k r, (listRegs list)[k]? = some r → r ≠ 15 → (wb = none ∨ r ≠ rn) →
    t.regIn m r = memWord s.mem (blockWord start k)
  base : ∀ b, wb = some b → list.getLsbD rn.toNat = false → t.regIn s.mode rn = b
  cpsr : t.cpsr = s.cpsr
  pc : t.pc = s.pc
  frame : ∀ ks : List (BitVec 5), (∀ r ∈ listRegs list, r ≠ 15 → physIndex m r ∈ ks) → (∀ k ∈ baseRegs s rn wb, k ∈ ks) →
    Frame s t ks noBytes

section
variable {s u : State} (touched : Touched s u noBytes) (m : BitVec 5) (start : Word) (list : BitVec 16)
include touched

/-- The registers of the list. -/
theorem loaded_setList (rn : Reg) :
    Loaded s (u.setList m (listRegs list) (blockWords s start (listRegs list).length)) m rn none start list where
  regs := fun k r hk hr _ => by
    have lt : k < (listRegs list).length := (List.getElem?_eq_some_iff.mp hk).1
    exact regIn_setList m u (nodup_listRegs list) hr hk (getElem?_blockWords s start lt)
  base := nofun
  cpsr := (setList_cpsr ..).trans touched.cpsr
  pc := (setList_pc ..).trans touched.pc
  frame := fun ks hks _ => frame_setList m (touched.widen ks) _ _ hks

end

section
variable {s t : State} {rn : Reg} {start : Word} {list : BitVec 16} (h : Loaded s t s.mode rn none start list) (hn : rn ≠ 15)
include h

theorem Loaded.mode : t.mode = s.mode := congrArg (fun c : Word => c.extractLsb' 0 5) h.cpsr

include hn

/-- The base, written after the registers. -/
theorem Loaded.setBase (v : Word) (b : Option Word) (hv : ∀ x, b = some x → list.getLsbD rn.toNat = false → v = x)
    (hb : b.isSome = true) : Loaded s (t.setReg rn v) s.mode rn b start list where
  regs := fun k r hk hr hne => by
    have hne : r ≠ rn := hne.resolve_left fun e => by rw [e] at hb; cases hb
    rw [← h.regs k r hk hr (.inl rfl), ← h.mode]
    exact regIn_setReg_other v hn hr hne
  base := fun x hx hlist => by
    rw [← hv x hx hlist, ← h.mode]
    exact regIn_setReg_self t rn v
  cpsr := h.cpsr
  pc := h.pc
  frame := fun ks hks hbase => by
    refine frame_setReg (h.frame ks hks nofun) v (hbase _ ?_)
    obtain ⟨x, rfl⟩ := Option.isSome_iff_exists.mp hb
    rw [phys, h.mode]
    exact List.mem_singleton.mpr rfl

theorem Loaded.writeBackList (wb : Option Word) :
    Loaded s (t.writeBackList rn wb (list.getLsbD rn.toNat)) s.mode rn wb start list := by
  cases wb with
  | none => exact h
  | some b =>
    cases own : list.getLsbD rn.toNat with
    | false => exact h.setBase hn b (some b) (fun x hx _ => Option.some.inj hx) rfl
    | true =>
      have opened := h.setBase hn (t.freeBits 32) (some b) (fun x _ e => by rw [own] at e; cases e) rfl
      exact { opened with frame := fun ks hks hbase => { opened.frame ks hks hbase with } }

end

/-- Going on after a load of registers below R15. -/
theorem loadsList_of_loaded {i : Instr} {s t : State} {m : BitVec 5} {rn : Reg} {wb : Option Word} {start : Word}
    {list : BitVec 16} (h : exec i s = .next t.advance) (loaded : Loaded s t m rn wb start list)
    (below : list.getLsbD 15 = false) : LoadsList i s m rn wb start list := by
  have nextPc : t.nextPc = s.nextPc := by
    unfold State.nextPc State.thumb
    rw [loaded.cpsr, loaded.pc]
  have notPc {r : Reg} (hr : r ∈ listRegs list) : r ≠ 15 := by
    rintro rfl
    rw [mem_listRegs] at hr
    exact Bool.false_ne_true (below.symm.trans hr)
  refine ⟨_, h, fun k r hk hne => loaded.regs k r hk (notPc (List.mem_of_getElem? hk)) hne, loaded.base, loaded.cpsr, nextPc,
    frame_advance (loaded.frame _ (fun r hr _ => ?_) fun k hk => List.mem_append_right _ hk)⟩
  exact List.mem_append_left _ (List.mem_map_of_mem hr)

/-! The instructions -/

section
variable {rn : Reg} {list : BitVec 16} (hn : rn ≠ 15) (hl : list ≠ 0) (body : Host.Outcome State Fault Refusal)
include hn hl

theorem listOk_of : listOk rn list body = body := by
  rw [listOk, bne_iff_ne.mpr hn, bne_iff_ne.mpr hl]
  rfl

end

section
variable {s : State} (plain : PlainMemory s) (pid : s.cp15.pid = 0) (p u w : Bool) {rn : Reg} (list : BitVec 16)
  (ha : Spec.alignedFor s (listAt s p u rn list).1 4 = true)
include plain pid ha

/-- LDM(1), POP: the list and the base are written, then the pc. -/
theorem loadMultipleTo_plain (hn : rn ≠ 15) :
    ∃ t, Loaded s t s.mode rn (listBase w (listAt s p u rn list).2) (listAt s p u rn list).1 list ∧
      loadMultipleTo p u w rn list s = if list.getLsbD 15 then
        t.interwork ((blockWords s (listAt s p u rn list).1 (listRegs list).length).getLastD 0) else .next t.advance := by
  obtain ⟨t, runs, touched⟩ := loadMultiple_plain plain pid s.mode (physIndex s.mode rn) ha list
  have loaded := (loaded_setList touched s.mode (listAt s p u rn list).1 list rn).writeBackList hn
    (listBase w (listAt s p u rn list).2)
  refine ⟨_, loaded, (withValue_ok runs).trans ?_⟩
  rw [finishLdm, touched.mode]
  rfl

end

/-- The list of the Thumb stack forms without the link. -/
theorem stackList_false (tl : BitVec 8) (link : Reg) : stackList false tl link = lowList tl := BitVec.or_zero

theorem lowList_ne_zero {tl : BitVec 8} (h : tl ≠ 0) : lowList tl ≠ 0 := by
  intro e
  have value := congrArg BitVec.toNat e
  rw [lowList, BitVec.toNat_setWidth, Nat.mod_eq_of_lt (Nat.lt_trans tl.isLt (by decide))] at value
  exact h (BitVec.eq_of_toNat_eq value)

theorem lowList_high (tl : BitVec 8) {k : Nat} (h : 8 ≤ k) : (lowList tl).getLsbD k = false := by
  rw [lowList, BitVec.getLsbD_setWidth, BitVec.getLsbD_of_ge _ _ h, Bool.and_false]

/-- A Thumb register is in a list when its bit is set. -/
theorem lowList_low (tl : BitVec 8) (a : BitVec 3) : (lowList tl).getLsbD (low a).toNat = tl.getLsbD a.toNat := by
  have ha : a.toNat < 8 := a.isLt
  have hlow : (low a).toNat = a.toNat := by rw [low, BitVec.toNat_setWidth, Nat.mod_eq_of_lt (by omega)]
  rw [hlow, lowList, BitVec.getLsbD_setWidth]
  simp; omega

/-- LDMIA writes the base before the registers, and only a base that is not among them. -/
theorem loaded_setList_base {s u : State} (touched : Touched s u noBytes) (start : Word) {list : BitVec 16} {rn : Reg}
    (hn : rn ≠ 15) (hlist : list.getLsbD rn.toNat = false) (b : Word) :
    Loaded s ((u.setReg rn b).setList s.mode (listRegs list) (blockWords s start (listRegs list).length)) s.mode rn (some b)
      start list where
  regs := fun k r hk hr _ => by
    have lt : k < (listRegs list).length := (List.getElem?_eq_some_iff.mp hk).1
    exact regIn_setList s.mode _ (nodup_listRegs list) hr hk (getElem?_blockWords s start lt)
  base := fun x hx _ => by
    have outside : rn ∉ listRegs list := by rw [mem_listRegs, hlist]; exact Bool.false_ne_true
    rw [regIn_setList_other s.mode _ hn _ _ outside, ← Option.some.inj hx, ← touched.mode]
    exact regIn_setReg_self u rn b
  cpsr := (setList_cpsr ..).trans touched.cpsr
  pc := (setList_pc ..).trans touched.pc
  frame := fun ks hks hbase =>
    frame_setList s.mode (frame_setReg (touched.widen ks) b (by
      rw [touched.phys]; exact hbase _ (List.mem_singleton.mpr rfl))) _ _ hks

/-- Settles O25: one load for each register of the list, then the base. -/
theorem loadMultipleResult : Obligations.LoadMultipleResult := by
  unfold Obligations.LoadMultipleResult
  intro cond p u w rn list a tl s plain pid
  refine ⟨fun hc hn hl below ha => ?ldm, fun hl ha => ?pop, fun hl ha => ?ldmia, rfl, rfl⟩
  case ldm =>
    obtain ⟨t, loaded, runs⟩ := loadMultipleTo_plain plain pid p u w list ha hn
    rw [below] at runs
    exact loadsList_of_loaded ((whenCondPc_passed hc _).trans ((listOk_of hn hl _).trans runs)) loaded below
  case pop =>
    have below := lowList_high tl (k := 15) (by decide)
    obtain ⟨t, loaded, runs⟩ := loadMultipleTo_plain (rn := 13) plain pid false true true (lowList tl) ha (by decide)
    rw [below] at runs
    rw [← listCount_low]
    refine loadsList_of_loaded (Eq.trans ?_ runs) loaded below
    rw [exec_tPop, execTPop, stackList_false, bne_iff_ne.mpr (lowList_ne_zero hl)]
    rfl
  case ldmia =>
    have below := lowList_high tl (k := 15) (by decide)
    obtain ⟨t, runs, touched⟩ := loadMultiple_plain plain pid s.mode (physIndex s.mode (low a)) ha (lowList tl)
    have nonempty : (lowList tl != 0) = true := bne_iff_ne.mpr (lowList_ne_zero hl)
    have bit : (lowList tl).getLsbD a.toNat = tl.getLsbD a.toNat := by
      rw [lowList, BitVec.getLsbD_setWidth, decide_eq_true (Nat.lt_trans a.isLt (by decide)), Bool.true_and]
    have runs' : exec (.tLdmia a tl) s = finishLdmia a (s.reg (low a) + BitVec.ofNat 32 (4 * listCount 8 tl)) (lowList tl)
        (blockWords s (s.reg (low a)) (listRegs (lowList tl)).length) t := by
      rw [← listCount_low]
      exact (congrArg (orRefuse · _ _) nonempty).trans (withValue_ok runs)
    rw [finishLdmia, bit, touched.mode] at runs'
    cases own : tl.getLsbD a.toNat with
    | true =>
      rw [own] at runs'
      exact loadsList_of_loaded runs' (loaded_setList touched s.mode _ (lowList tl) (low a)) below
    | false =>
      rw [own] at runs'
      have outside : (lowList tl).getLsbD (low a).toNat = false := (lowList_low tl a).trans own
      exact loadsList_of_loaded runs' (loaded_setList_base touched _ (low_ne_pc a) outside _) below

/-! Loads of R15 -/

theorem setThumb_cpsr_of {s t : State} (b : Bool) (h : t.cpsr = s.cpsr) :
    (t.setThumb b).cpsr = if b then s.cpsr ||| 0x20 else s.cpsr &&& ~~~0x20 := by rw [State.setThumb_cpsr, h]

/-- LDR into R15. -/
theorem loadsPc_of_loadWordTo {i : Instr} {s : State} (plain : PlainMemory s) {rn : Reg} {a : Address}
    (h : exec i s = loadWordTo false 15 rn a s) (aligned : a.addr.toNat % 4 = 0) :
    LoadsPc i s rn a.wb (memWord s.mem (wordAt s a.addr)) := by
  intro hbits
  have touched := touched_noteAccess s noBytes
  have low : a.addr.extractLsb' 0 2 = 0 := BitVec.eq_of_toNat_eq ((low_two a.addr).trans aligned)
  have value : loadedWord s a.addr = memWord s.mem (wordAt s a.addr) := by
    rw [loadedWord, aligned]
    exact ThumbData.rotateRight_of_mod_eq_zero rfl
  have runs : exec i s = (s.noteAccess.writeBack rn a.wb).interwork (memWord s.mem (wordAt s a.addr)) := by
    rw [h, loadWordTo, low, beq_self_eq_true, Bool.or_true, orRefuse_true,
      withValue_ok (loadWord_plain plain a.addr false (alignedFor_multiple s aligned)), finishLoad, if_pos rfl, value]
  rw [interwork_eq hbits] at runs
  refine ⟨_, runs, rfl, ?_, fun b hb => ?_, frame_branchIndirect (frame_setThumb (frame_writeBack (touched.widen _)
    touched.mode fun k hk => hk) _) _⟩
  · exact setThumb_cpsr_of _ (writeBack_cpsr ..)
  · rw [hb]
    exact regIn_writeBack_base s.noteAccess rn b

theorem pc_ne_zero (regs : BitVec 15) : (1 : BitVec 1) ++ regs ≠ (0 : BitVec 16) := by
  intro e
  have top := congrArg (fun x : BitVec 16 => x.getLsbD 15) e
  rw [BitVec.getLsbD_append] at top
  cases top

theorem pc_last (regs : BitVec 15) : ((1 : BitVec 1) ++ regs).getLsbD 15 = true := by
  rw [BitVec.getLsbD_append]
  rfl

theorem listCount_fifteen (regs : BitVec 15) : (listRegs ((0 : BitVec 1) ++ regs)).length = listCount 15 regs := by
  have low : (List.range 15).countP (fun k => ((0 : BitVec 1) ++ regs).getLsbD k) =
      (List.range 15).countP fun k => regs.getLsbD k :=
    List.countP_congr fun k hk => by rw [BitVec.getLsbD_append, if_pos (List.mem_range.mp hk)]
  have top : ((0 : BitVec 1) ++ regs).getLsbD 15 = false := by rw [BitVec.getLsbD_append]; rfl
  have last : List.range 16 = List.range 15 ++ [15] := List.range_succ (n := 15)
  rw [length_listRegs, listCount, last, List.countP_append, low, List.countP_singleton, top]
  rfl

/-- The list of PUSH and POP with the low registers as a list of fifteen. -/
theorem lowList_eq (tl : BitVec 8) : lowList tl = (0 : BitVec 1) ++ (tl.setWidth 15 : BitVec 15) := by
  apply BitVec.eq_of_getLsbD_eq
  intro i hi
  rw [lowList, BitVec.getLsbD_append, BitVec.getLsbD_setWidth]
  split
  · next low => simp [hi, low]
  · next high => simp [BitVec.getLsbD_of_ge tl i (by omega)]

theorem stackList_true (tl : BitVec 8) : stackList true tl 15 = (1 : BitVec 1) ++ (tl.setWidth 15 : BitVec 15) := by
  apply BitVec.eq_of_getLsbD_eq
  intro i hi
  have bit : (1#16 <<< 15).getLsbD i = decide (i = 15) := by
    have all : ∀ i : Fin 16, (1#16 <<< 15).getLsbD i.val = decide (i.val = 15) := by decide
    exact all ⟨i, hi⟩
  rw [stackList, if_pos rfl, BitVec.getLsbD_or, show (15 : Reg).toNat = 15 from rfl, bit, BitVec.getLsbD_append,
    BitVec.getLsbD_setWidth]
  split
  · next low => simp [hi, low, Nat.ne_of_lt low]
  · next high => simp [show i = 15 by omega]

/-- The interworking branch at the end of a multiple load. -/
theorem gives_of_interwork {i : Instr} {s t : State} {v : Word} (h : exec i s = t.interwork v)
    (hbits : v.getLsbD 0 = true ∨ v.getLsbD 1 = false) (cpsr : t.cpsr = s.cpsr) (P : State → Prop)
    (hP : P ((t.setThumb (v.getLsbD 0)).branchIndirect (v &&& ~~~1))) :
    Gives i s fun t => t.pc = v &&& ~~~1 ∧ t.cpsr = (if v.getLsbD 0 then s.cpsr ||| 0x20 else s.cpsr &&& ~~~0x20) ∧ P t :=
  ⟨_, h.trans (interwork_eq hbits), rfl, setThumb_cpsr_of _ cpsr, hP⟩

/-- The registers of a list with R15 that are not R15. -/
theorem mem_listRegs_pc {regs : BitVec 15} {r : Reg} (h : r ∈ listRegs ((1 : BitVec 1) ++ regs)) (hr : r ≠ 15) :
    r ∈ listRegs ((0 : BitVec 1) ++ regs) := by
  rw [listRegs_pc, List.mem_append] at h
  exact h.resolve_right fun e => hr (List.mem_singleton.mp e)

/-- Settles O26: the words of the registers, then the interworking branch to the last one. -/
theorem loadToPc : Obligations.LoadToPc := by
  unfold Obligations.LoadToPc
  intro cond p u w rn rm off n kind regs tl s plain
  refine ⟨fun hc => ⟨fun ok aligned => ?imm, fun ok aligned => ?reg⟩, fun pid => ⟨?ldm, ?pop⟩⟩
  case imm => exact loadsPc_of_loadWordTo plain ((whenCondPc_passed hc _).trans (am2ImmOk_of _ ok)) aligned
  case reg => exact loadsPc_of_loadWordTo plain ((whenCondPc_passed hc _).trans (am2RegOk_of _ ok)) aligned
  case ldm =>
    intro list start v hc hn ha hbits
    obtain ⟨t, loaded, runs⟩ := loadMultipleTo_plain plain pid p u w list ha hn
    have last : (blockWords s start (listRegs list).length).getLastD 0 = v := by
      rw [listRegs_pc, List.length_append, listCount_fifteen]
      exact getLastD_blockWords ..
    rw [pc_last, if_pos rfl, last] at runs
    refine gives_of_interwork (i := .ldm cond p u w rn list) (s := s) ((whenCondPc_passed hc _).trans ((listOk_of hn (pc_ne_zero regs) _).trans runs)) hbits
      loaded.cpsr _ ⟨fun k r hk hr hne => loaded.regs k r hk hr ?_, fun hw hlist => loaded.base _ ?_ hlist, ?_⟩
    · exact hne.imp_left fun e => by rw [e]; rfl
    · rw [hw]; rfl
    · exact frame_branchIndirect (frame_setThumb (loaded.frame _
        (fun r hr hne => List.mem_append_left _ (List.mem_map_of_mem (mem_listRegs_pc hr hne)))
        fun k hk => List.mem_append_right _ hk) _) _
  case pop =>
    intro start v ha hbits
    have parts : listRegs (stackList true tl 15) = listRegs (lowList tl) ++ [15] := by
      rw [stackList_true, listRegs_pc, lowList_eq]
    have size : (listRegs (stackList true tl 15)).length = listCount 8 tl + 1 := by
      rw [parts, List.length_append, length_listRegs, listCount_low]; rfl
    obtain ⟨t, loaded, runs⟩ := loadMultipleTo_plain (rn := 13) plain pid false true true (stackList true tl 15) ha (by decide)
    have last : (blockWords s start (listRegs (stackList true tl 15)).length).getLastD 0 = v := by
      rw [size]; exact getLastD_blockWords ..
    have isPc : (stackList true tl 15).getLsbD 15 = true := by rw [stackList_true]; exact pc_last _
    have nonempty : (stackList true tl 15 != 0) = true := by rw [stackList_true]; exact bne_iff_ne.mpr (pc_ne_zero _)
    rw [isPc, if_pos rfl] at runs
    have below {r : Reg} (hr : r ∈ listRegs (lowList tl)) : r.toNat < 8 := by
      by_contra h
      rw [mem_listRegs, lowList_high tl (by omega)] at hr
      cases hr
    have base : (listAt s false true 13 (stackList true tl 15)).2 = start + BitVec.ofNat 32 (4 * listCount 8 tl + 4) := by
      show s.reg 13 + BitVec.ofNat 32 (4 * listCount 16 (stackList true tl 15)) = _
      rw [← length_listRegs, size]
      rfl
    have outside : (stackList true tl 15).getLsbD 13 = false := by
      rw [stackList_true, BitVec.getLsbD_append, if_pos (by decide), BitVec.getLsbD_setWidth,
        BitVec.getLsbD_of_ge tl 13 (by decide)]
      rfl
    refine gives_of_interwork (i := .tPop true tl) (s := s) (v := v) ?_ hbits loaded.cpsr _
      ⟨fun k r hk => loaded.regs k r ?_ ?_ (.inr ?_), ?_, ?_⟩
    · rw [← last]
      exact (congrArg (orRefuse · _ _) nonempty).trans runs
    · rw [parts, List.getElem?_append_left (List.getElem?_eq_some_iff.mp hk).1, hk]
    · rintro rfl
      exact absurd (below (List.mem_of_getElem? hk)) (by decide)
    · rintro rfl
      exact absurd (below (List.mem_of_getElem? hk)) (by decide)
    · exact loaded.base _ (congrArg some base) outside
    · refine frame_branchIndirect (frame_setThumb (loaded.frame _ (fun r hr hne => ?_) fun k hk => ?_) _) _
      · rw [parts, List.mem_append] at hr
        exact List.mem_cons_of_mem _ (List.mem_map_of_mem (hr.resolve_right fun e => hne (List.mem_singleton.mp e)))
      · rw [List.mem_singleton.mp hk]
        exact List.mem_cons_self

end Sys2Proof.Multiples

/-!
PROOF. The multiple stores, and the forms with the registers of User mode (`45_arm_loadstore` R607 to R610, `41_dsp_thumb` R724,
R726).
-/
namespace Sys2Proof.Multiples
open Sys2Proof Sys2Proof.Machine Sys2Proof.Spec Sys2Proof.ArmBase Sys2Proof.Transfers Sys2Proof.Accesses Sys2Proof.Singles Sys2Proof.Pairs
  Sys2Proof.DataOps

/-! Storing the words of a block -/

theorem blockWord_eq (start : Word) {k : Nat} (h : k < 2 ^ 30) :
    blockWord start k = (start.toNat + 4 * k) % 2 ^ 32 / 4 * 4 := by
  rw [blockWord, aligned_toNat, BitVec.toNat_add, BitVec.toNat_ofNat, Nat.mod_eq_of_lt (b := 2 ^ 32) (a := 4 * k) (by omega)]

/-- Two words of a block of at most sixteen do not overlap. -/
theorem blockWord_apart (start : Word) {k : Nat} (h : k < 16) : blockWord start (k + 1) ≠ blockWord start 0 := by
  rw [blockWord_eq start (k := k + 1) (by omega), blockWord_eq start (k := 0) (by decide)]
  have := start.isLt
  omega

theorem blockWord_aligned (start : Word) (k : Nat) : blockWord start k % 4 = 0 := by
  rw [blockWord, aligned_toNat]
  omega

theorem block_succ (start : Word) (n a : Nat) :
    (bytes (blockWord start 0) 4 a ∨ block (start + 4) n a) → block start (n + 1) a := by
  rintro (h | ⟨k, hk, h⟩)
  · exact ⟨0, by omega, h⟩
  · exact ⟨k + 1, by omega, by rw [blockWord_succ]; exact h⟩

/-- The words of a block, by one aligned store each. -/
theorem storeWords_plain {s : State} (plain : PlainMemory s) (pid : s.cp15.pid = 0) (start : Word) (ws : List Word)
    (hlen : ws.length ≤ 16) :
    ∃ t, storeWords start ws s = .ok () t ∧ Touched s t (block start ws.length) ∧
      ∀ k w, ws[k]? = some w → ∀ j, j < 4 → memByte t.mem (blockWord start k + j) = w.extractLsb' (8 * j) 8 := by
  induction ws generalizing s start with
  | nil => exact ⟨s, rfl, touched_refl s _, nofun⟩
  | cons w rest ih =>
    have hrest : rest.length ≤ 16 := Nat.le_of_succ_le hlen
    obtain ⟨t, runs, first⟩ := storeAligned_plain plain start false w
    rw [wordAt_pid pid] at first
    obtain ⟨u, runs', touched, values⟩ := ih (plain_of_touched plain first.touched)
      (by rw [first.touched.frame.cp15]; exact pid) (start + 4) hrest
    refine ⟨u, (bind_ok runs).trans runs', (first.touched.trans touched).mono (block_succ start _), fun k v hk j hj => ?_⟩
    cases k with
    | zero =>
      obtain rfl : w = v := Option.some.inj hk
      rw [touched.frame.mem _ fun e => ?_, first.value j hj]
      obtain ⟨k, hk', h1, h2⟩ := e
      have apart := blockWord_apart start (k := k) (by omega)
      have hk0 := blockWord_aligned start 0
      have hk1 := blockWord_aligned start (k + 1)
      rw [← blockWord_succ] at h1 h2
      omega
    | succ k =>
      rw [blockWord_succ]
      exact values k v hk j hj

/-! The values stored -/

section
variable (s : State) (m : BitVec 5) (rn : Reg) (wBit : Bool) (list : BitVec 16)

theorem length_stmValues : (s.stmValues m rn wBit list).length = (listRegs list).length := by
  unfold State.stmValues
  cases listRegs list with
  | nil => rfl
  | cons r rest => simp

theorem getElem?_stmValues {k : Nat} {r : Reg} (h : (listRegs list)[k]? = some r) :
    (s.stmValues m rn wBit list)[k]? = some (s.stmValue m rn wBit (k == 0) r) := by
  unfold State.stmValues
  cases e : listRegs list with
  | nil => rw [e] at h; cases h
  | cons r' rest =>
    rw [e] at h
    cases k with
    | zero => rw [Option.some.inj h]; rfl
    | succ k =>
      have h : rest[k]? = some r := h
      simp [h]

theorem stmValue_eq {wb : Option Word} (hw : wb.isSome = wBit) {k : Nat} {r : Reg} (h : wb = none ∨ r ≠ rn ∨ k = 0) :
    s.stmValue m rn wBit (k == 0) r =
      if r = 15 then s.pc + (if Config.storePcTwelve then 12 else 8) else s.regIn m r := by
  have given : (wBit && r == rn && !(k == 0)) = false := by
    obtain rfl | h | rfl := h
    · rw [← hw]; rfl
    · rw [beq_eq_false_iff_ne.mpr h, Bool.and_false, Bool.false_and]
    · simp
  rw [State.stmValue, given]
  rfl

end

theorem length_listRegs_le (list : BitVec 16) : (listRegs list).length ≤ 16 := by
  rw [length_listRegs, listCount]
  exact List.countP_le_length

/-- The end of a multiple store. -/
theorem storesList_of_storeMultiple {i : Instr} {s u : State} (plain : PlainMemory s) (pid : s.cp15.pid = 0)
    (touched : Touched s u noBytes) {m : BitVec 5} {rn : Reg} {wBit : Bool} {wb : Option Word} (hw : wb.isSome = wBit)
    {start : Word} {list : BitVec 16} (ha : Spec.alignedFor s start 4 = true)
    (h : exec i s = withValue false (storeMultiple start (s.stmValues m rn wBit list)) u (finishStore rn wb)) :
    StoresList i s m rn wb start list := by
  have ha' : Spec.alignedFor u start 4 = true := by
    rw [Spec.alignedFor, State.ctrlBit, touched.frame.cp15]
    exact ha
  have len : (s.stmValues m rn wBit list).length ≤ 16 := by
    rw [length_stmValues]
    exact length_listRegs_le list
  obtain ⟨t, runs, stored, values⟩ := storeWords_plain (plain_of_touched plain touched)
    (by rw [touched.frame.cp15]; exact pid) start _ len
  rw [length_stmValues] at stored
  have all := touched.after stored
  have runs' : storeMultiple start (s.stmValues m rn wBit list) u = .ok () t :=
    (bind_ok (checkAligned_ok (by decide) ha')).trans runs
  refine ⟨_, h.trans (withValue_ok runs'), fun k r hk hr j hj => ?_, fun b hb => ?_, (writeBack_cpsr ..).trans all.cpsr,
    (writeBack_nextPc ..).trans all.nextPc, frame_advance (frame_writeBack (all.widen _) all.mode fun k hk => hk)⟩
  · have mem : (t.writeBack rn wb).advance.mem = t.mem := by cases wb <;> rfl
    rw [mem, values k _ (getElem?_stmValues s m rn wBit list hk) j hj, stmValue_eq s m rn wBit hw hr]
  · subst hb
    rw [← all.mode]
    exact regIn_writeBack_base t rn b

theorem listBase_isSome (w : Bool) (b : Word) : (listBase w b).isSome = w := by cases w <;> rfl

/-- Settles O27: one store for each register of the list, then the base. -/
theorem storeMultipleResult : Obligations.StoreMultipleResult := by
  unfold Obligations.StoreMultipleResult
  intro cond p u w r rn list a tl s plain pid
  have drawn := touched_drawn s noBytes
  refine ⟨fun hc hn hl ha => ?stm, ?push, fun hl ha => ?stmia, rfl⟩
  case stm =>
    exact storesList_of_storeMultiple plain pid drawn (listBase_isSome w _) ha
      ((whenCond_passed hc _).trans (listOk_of hn hl _))
  case push =>
    intro pushed start hl ha
    have link : stackList r tl 14 = pushed := by cases r <;> rfl
    refine storesList_of_storeMultiple (wBit := true) plain pid drawn rfl ha ?_
    rw [exec_tPush, execTPush, link, bne_iff_ne.mpr hl]
    rfl
  case stmia =>
    rw [← listCount_low]
    exact storesList_of_storeMultiple (wBit := true) plain pid drawn rfl ha (if_neg (lowList_ne_zero hl))

/-! User registers, and the return from an exception -/

theorem regs_ne_zero {regs : BitVec 15} (h : regs ≠ 0) : (0 : BitVec 1) ++ regs ≠ (0 : BitVec 16) := by
  intro e
  refine h (BitVec.eq_of_getLsbD_eq fun i hi => ?_)
  have bit := congrArg (fun x : BitVec 16 => x.getLsbD i) e
  rw [BitVec.getLsbD_append, if_pos hi] at bit
  simpa using bit

theorem Loaded.spsr {s t : State} {rn : Reg} {wb : Option Word} {start : Word} {list : BitVec 16}
    (h : Loaded s t s.mode rn wb start list) : t.spsr = s.spsr := by
  have frame : Frame s t ((listRegs list).map (physIndex s.mode) ++ baseRegs s rn wb) noBytes :=
    h.frame _ (fun r hr _ => List.mem_append_left _ (List.mem_map_of_mem hr)) fun k hk => List.mem_append_right _ hk
  unfold State.spsr State.spsrOf State.mode
  rw [h.cpsr, frame.spsrs]

/-- Settles O28: the lists as in the other forms, with the registers of User mode, or before a return from an exception. -/
theorem exceptionMultiple : Obligations.ExceptionMultiple := by
  unfold Obligations.ExceptionMultiple
  intro cond p u w rn list regs s psr plain pid hc hn spsr
  have hasSpsr : s.spsr.isSome = true := by rw [spsr]; rfl
  refine ⟨fun hl ha => ?ldmUser, fun hl ha => ?stmUser, ?ldmReturn⟩
  case ldmUser =>
    have below : ((0 : BitVec 1) ++ regs : BitVec 16).getLsbD 15 = false := by rw [BitVec.getLsbD_append]; rfl
    obtain ⟨t, runs, touched⟩ := loadMultiple_plain plain pid modeUser (physIndex s.mode rn) ha ((0 : BitVec 1) ++ regs)
    refine loadsList_of_loaded ?_ (loaded_setList touched modeUser _ _ rn) below
    exact (whenCond_passed hc _).trans ((listOk_of hn (regs_ne_zero hl) _).trans
      ((congrArg (orRefuse · _ _) hasSpsr).trans (withValue_ok runs)))
  case stmUser =>
    refine storesList_of_storeMultiple (wBit := false) plain pid (touched_refl s _) rfl ha ?_
    exact (whenCond_passed hc _).trans ((listOk_of hn hl _).trans (congrArg (orRefuse · _ _) hasSpsr))
  case ldmReturn =>
    intro list start mode ha
    obtain ⟨t, runs, touched⟩ := loadMultiple_plain plain pid s.mode (physIndex s.mode rn) ha list
    have loaded := (loaded_setList touched s.mode start list rn).writeBackList hn (listBase w (listAt s p u rn list).2)
    have last : (blockWords s start (listRegs list).length).getLastD 0 =
        memWord s.mem (blockWord start (listCount 15 regs)) := by
      rw [listRegs_pc, List.length_append, listCount_fifteen]
      exact getLastD_blockWords ..
    have finish : exec (.ldmReturn cond p u w rn regs) s =
        ((t.setList t.mode (listRegs list) (blockWords s start (listRegs list).length)).writeBackList rn
          (listBase w (listAt s p u rn list).2) (list.getLsbD rn.toNat)).exceptionReturn
          ((blockWords s start (listRegs list).length).getLastD 0) :=
      (whenCondPc_passed hc _).trans ((listOk_of hn (pc_ne_zero regs) _).trans
        ((congrArg (orRefuse · _ _) hasSpsr).trans (withValue_ok runs)))
    rw [touched.mode, last, exceptionReturn_ok (loaded.spsr.trans spsr) mode] at finish
    have frame := loaded.frame ((listRegs ((0 : BitVec 1) ++ regs)).map (physIndex s.mode) ++
        baseRegs s rn (listBase w (listAt s p u rn list).2))
      (fun r hr hne => List.mem_append_left _ (List.mem_map_of_mem (mem_listRegs_pc hr hne)))
      fun k hk => List.mem_append_right _ hk
    refine ⟨_, finish, rfl, rfl, fun k r hk hr hne => loaded.regs k r hk hr ?_,
      fun hw hlist => loaded.base _ (by rw [hw]; rfl) hlist, ?_⟩
    · exact hne.imp_left fun e => by rw [e]; rfl
    · exact { frame with dbg := congrArg (fun d : Debug => { d with sds := false }) frame.dbg }

end Sys2Proof.Multiples

/-!
PROOF. The undefined encodings, BKPT, the interrupts and reset (`60_exceptions` R885 to R892, `70_reset_and_hazards` R1101).
-/
namespace Sys2Proof.Exceptions
open Sys2Proof Sys2Proof.Machine Sys2Proof.Spec Sys2Proof.ArmBase Sys2Proof.Accesses Sys2Proof.Pairs

/-! Undefined encodings -/

section
variable {s : State} (n : Nat) (body : Host.Outcome State Fault Refusal)

theorem needCp_allowed (h : s.cp15.cpar.getLsbD n = true) : needCp n s body = body := if_pos h

theorem needCp_denied (h : s.cp15.cpar.getLsbD n = false) : needCp n s body = s.raiseUndefined :=
  if_neg (by rw [h]; exact Bool.false_ne_true)

end

theorem am5Ok_of {p u w : Bool} {rn : Reg} (h : (p || u || w) = true) (hn : w = false ∨ rn ≠ 15)
    (body : Host.Outcome State Fault Refusal) : am5Ok p u w rn body = body := by
  have base : (!w || rn != 15) = true := by
    obtain rfl | hn := hn
    · rfl
    · rw [bne_iff_ne.mpr hn, Bool.or_true]
  rw [am5Ok, h, base]
  rfl

/-- CDP, MCRR and MRRC to a coprocessor that does not exist, or to one that `CPAR` denies. -/
theorem absentForm_undefined {s : State} {c : BitVec 4} (h : s.cp15.cpar.getLsbD 0 = false ∨ c ≠ 0) :
    absentForm c s = s.raiseUndefined := by
  unfold absentForm
  split
  · next hc => exact needCp_denied 0 _ (h.resolve_right fun e => e hc)
  · rfl

section
variable {s : State} {p u w : Bool} {a c : BitVec 4} {r8 : BitVec 8}

theorem absentLoad_undefined (h : s.cp15.cpar.getLsbD c.toNat = false ∨ c = 0 ∨ c = 15) :
    absentLoad p u w a c r8 s = s.raiseUndefined := by
  unfold absentLoad
  split
  · rfl
  · next hc =>
    simp only [Bool.or_eq_true, decide_eq_true_eq, not_or] at hc
    exact needCp_denied _ _ (h.resolve_right fun e => e.elim hc.1 hc.2)

theorem absentLoad_loads (h : s.cp15.cpar.getLsbD c.toNat = true) (hc : c ≠ 0) (form : (p || u || w) = true)
    (base : w = false ∨ a ≠ 15) : absentLoad p u w a c r8 s =
      withValue false (loadCoprocessor (s.am5 p u w a r8).addr) s fun _ s1 => s1.raiseUndefined := by
  have bound : s.cp15.cpar.getLsbD 15 = false := BitVec.getLsbD_of_ge _ _ (by decide)
  have hc15 : c ≠ 15 := by
    rintro rfl
    exact Bool.false_ne_true (bound.symm.trans h)
  have takes : ¬ (decide (c = 0) || decide (c = 15)) = true := by
    simp only [Bool.or_eq_true, decide_eq_true_eq, not_or]
    exact ⟨hc, hc15⟩
  rw [absentLoad, if_neg takes, needCp_allowed _ _ h, am5Ok_of form base]

end

theorem loadCoprocessor_plain {s : State} (plain : PlainMemory s) {va : Word} (ha : Spec.alignedFor s va 4 = true) :
    loadCoprocessor va s = .ok (memWord s.mem (wordAt s va)) s.noteAccess :=
  (bind_ok (checkAligned_ok (by decide) ha)).trans (loadAligned_plain plain va false)

/-- Settles O34: each of them ends in `raiseUndefined`. -/
theorem undefinedEncodings : Obligations.UndefinedEncodings := by
  unfold Obligations.UndefinedEncodings
  intro cond r17 r2 r20 r1 p u n w a b c d e o3 o3' r8 r10 r12 r28 s off normal
  have undefined {i : Instr} (h : exec i s = s.raiseUndefined) : Spec.Undefined i s := undefined_of_raise off normal h
  have passed {i : Instr} {body : Host.Outcome State Fault Refusal} (hc : condPassed cond s = true)
      (h : exec i s = whenCond cond s body) (hb : body = s.raiseUndefined) : Spec.Undefined i s :=
    undefined (h.trans ((whenCond_passed hc _).trans hb))
  refine ⟨fun hc => ⟨passed hc rfl rfl, passed hc rfl rfl, passed hc rfl rfl, passed hc rfl rfl, passed hc rfl rfl,
    passed hc rfl rfl, passed hc rfl rfl, fun h => passed hc rfl (absentLoad_undefined h), fun h hc0 form base => ?ldc,
    fun h => ⟨passed hc rfl (absentForm_undefined h), passed hc rfl (absentForm_undefined h),
      passed hc rfl (absentForm_undefined h)⟩,
    fun odd => ⟨passed hc rfl (if_pos odd), passed hc rfl (if_pos odd)⟩⟩, undefined rfl, undefined rfl, undefined rfl,
    undefined rfl, undefined rfl, undefined rfl, undefined rfl, undefined rfl, undefined rfl⟩
  case ldc =>
    have runs : exec (.ldc cond p u n w a b c r8) s =
        withValue false (loadCoprocessor (s.am5 p u w a r8).addr) s fun _ s1 => s1.raiseUndefined :=
      (whenCond_passed hc _).trans (absentLoad_loads h hc0 form base)
    refine ⟨fun plain ha => ?_, fun fs dom f s1 stopped => ?_⟩
    · have loaded : exec (.ldc cond p u n w a b c r8) s = s.noteAccess.raiseUndefined :=
        runs.trans (withValue_ok (loadCoprocessor_plain plain ha))
      have taken : s.noteAccess.raiseUndefined = .next (s.noteAccess.enterException .undefined s.nextPc) :=
        raise_off (s := s.noteAccess) off (e := .undefined) nofun s.nextPc normal
      exact ⟨_, loaded.trans taken, { enters_enterException s.noteAccess .undefined s.nextPc with }, rfl⟩
    · rw [runs, withValue, stopped]
      rfl

/-! Breakpoints -/

/-- The cause that a debug exception records. -/
theorem recordDebug_moe (s : State) (moe : BitVec 3) :
    (s.recordDebug moe).dbg.dcsr.extractLsb' 2 3 = moe ∧ (s.recordDebug moe).dbg.dcsr.getLsbD 0 = false := by
  constructor
  · apply BitVec.eq_of_getLsbD_eq
    intro i hi
    rw [BitVec.getLsbD_extractLsb', State.recordDebug]
    dsimp only
    rw [BitVec.getLsbD_append, BitVec.getLsbD_append, BitVec.getLsbD_append, if_neg (by omega), if_neg (by omega),
      if_pos (by omega)]
    simp only [hi, decide_true, Bool.true_and]
    congr 1
    omega
  · rw [State.recordDebug]
    dsimp only
    rw [BitVec.getLsbD_append]
    rfl

theorem debugFsr_bit (s : State) : s.debugFsr.cp15.fsr.getLsbD 9 = true := by
  rw [State.debugFsr]
  dsimp only
  rw [BitVec.getLsbD_or]
  exact Bool.or_true _

/-- What the entry into DEBUG mode leaves. -/
theorem enterDebugMode_halt {s : State} (halt : s.haltMode = true) (moe : BitVec 3) (link : Word) :
    let t := s.enterDebugMode moe link
    t.mode = 0b10101 ∧ t.thumb = false ∧ t.cpsr.getLsbD 7 = true ∧ t.cpsr.getLsbD 6 = true ∧ t.pc = 0 ∧
      t.regIn 0b10101 14 = link ∧ t.spsrOf .dbg = some s.cpsr ∧ t.dbg.sds = true ∧ t.dbg.dcsr.extractLsb' 2 3 = moe ∧
      t.dbg.dcsr.getLsbD 0 = false ∧ t.cp15 = s.cp15 ∧
      (∀ k : BitVec 5, k ≠ physIndex 0b10101 14 → t.regs.get k.toFin = s.regs.get k.toFin) ∧
      (∀ a, memByte t.mem a = memByte s.mem a) := by
  intro t
  have entered : t = { ((s.recordDebug moe).setRegIn modeDebug 14 link).setSpsrOf .dbg s.cpsr with
      cpsr := entryCpsr s.cpsr modeDebug true, pc := 0, dbg := { (s.recordDebug moe).dbg with sds := true }
      note := { s.note with flow := .exception, entries := s.note.entries + 1 } } := by
    show s.enterDebugMode moe link = _
    unfold State.enterDebugMode
    rw [halt]
    rfl
  obtain ⟨cause, clear⟩ := recordDebug_moe s moe
  rw [entered]
  exact ⟨Keeping.entryCpsr_mode .., Keeping.entryCpsr_thumb .., entryCpsr_irq .., entryCpsr_fiq .., rfl,
    regIn_setRegIn_self (s.recordDebug moe) modeDebug 14 link, spsrOf_setSpsrOf_self (b := .dbg) s.cpsr rfl, rfl, cause, clear,
    rfl, fun k hk => (regs_get_set (v := s.regs)).trans (if_neg hk), fun _ => rfl⟩

/-- Settles O35: the breakpoint is the debug exception of the mode, or the next instruction. -/
theorem breakpoint : Obligations.Breakpoint := by
  unfold Obligations.Breakpoint
  intro hi lo imm8 i s hi'
  have runs : exec i s = .next s.softwareBreakpoint := by
    obtain rfl | rfl := hi'
    · rfl
    · rfl
  refine ⟨fun quiet => ?none, fun on normal monitor => ?monitor, fun on normal halt => ?halt⟩
  case none =>
    have inactive : (s.debugOn && !s.dbg.sds) = false := by
      obtain h | h := quiet <;> rw [h]
      · rfl
      · exact Bool.and_false _
    rw [State.softwareBreakpoint, inactive] at runs
    exact runs
  case monitor =>
    rw [State.softwareBreakpoint, on, normal, Bool.not_false, Bool.and_self, if_pos rfl, State.debugException, monitor,
      if_neg Bool.false_ne_true, State.enterMonitor] at runs
    have entered := enters_enterException (s.recordDebug 0b011).debugFsr .prefetchAbort (s.pc + 4)
    obtain ⟨cause, clear⟩ := recordDebug_moe s 0b011
    exact ⟨_, runs, { entered with }, debugFsr_bit (s.recordDebug 0b011), rfl, cause, clear⟩
  case halt =>
    rw [State.softwareBreakpoint, on, normal, Bool.not_false, Bool.and_self, if_pos rfl, State.debugException, halt,
      if_pos rfl] at runs
    exact ⟨_, runs, enterDebugMode_halt halt 0b011 (s.pc + 4)⟩

/-! Interrupts -/

/-- With the counters and the trace buffer disabled, and no branch for the branch target buffer, a step is recorded only by what
it discards. -/
theorem account_unrecorded {s0 s : State} (hp : s0.pmu.e = false) (ht : s0.tracing = false)
    (hb : (s0.btbOn && s.note.isB) = false) : s0.account s = s0.dropFetched s := by
  have trace : s0.traceStep s = s := by rw [State.traceStep, ht]; rfl
  have btb : s0.btbStep s = s := by rw [State.btbStep, hb]; rfl
  have count : s0.countStep s = s := by rw [State.countStep, hp]; rfl
  rw [State.account, trace, btb, count]

theorem enters_dropFetched {s s0 t : State} {m : BitVec 5} {link vector : Word} {f : Bool}
    (h : Enters s t m link vector f) : Enters s (s0.dropFetched t) m link vector f := by
  unfold State.dropFetched
  split
  · exact h
  · exact { h with }

/-- With an empty schedule the core steps. -/
theorem step_core {s : State} (h : s.schedule = []) : step s = coreStep false { s with note := Note.empty } := by
  obtain ⟨⟩ := s
  cases h
  rfl

section
variable {s : State} (running : s.inReset = false) (awake : s.asleep = false) (hold : Bool)
include running awake

theorem coreStep_event {t : State} (h : s.awake.takeEvent hold = some t) : coreStep hold s = .next (s.awake.account t) := by
  rw [coreStep, running, awake, Bool.or_self, if_neg Bool.false_ne_true]
  dsimp only
  rw [h]

theorem coreStep_run (h : s.awake.takeEvent hold = none) (k : s.awake.settleView.takeInstrBreak = none) :
    coreStep hold s = runInstr s.awake.settleView := by
  rw [coreStep, running, awake, Bool.or_self, if_neg Bool.false_ne_true]
  dsimp only
  rw [h]
  dsimp only
  rw [k]

end

/-- A step that takes an interrupt, with nothing of a higher rank pending. -/
theorem step_interrupt {s : State} (e : Exception) (he : e ≠ .reset) (hs : s.schedule = []) (running : s.inReset = false)
    (awake : s.asleep = false) (off : s.debugOn = false) (hp : s.pmu.e = false)
    (taken : ({ s with note := Note.empty } : State).awake.takeEvent false =
      some (({ s with note := Note.empty } : State).awake.takeException e (s.pc + 4) false)) :
    ∃ t, step s = .next t ∧ Enters s t e.mode (s.pc + 4) ((e.number ++ (0 : BitVec 2)).setWidth 32)
      (e == .reset || e == .fiq) := by
  let s0 := ({ s with note := Note.empty } : State).awake
  have tracing : s0.tracing = false := not_tracing (s := s0) off
  have entered : Enters s (s0.enterException e (s.pc + 4)) e.mode (s.pc + 4) ((e.number ++ (0 : BitVec 2)).setWidth 32)
      (e == .reset || e == .fiq) := { enters_enterException s0 e (s.pc + 4) with }
  have branch : (s0.btbOn && (s0.enterException e (s.pc + 4)).note.isB) = false := by
    have : (s0.enterException e (s.pc + 4)).note.isB = false := by cases e <;> rfl
    rw [this, Bool.and_false]
  have runs := (step_core hs).trans (coreStep_event (s := { s with note := Note.empty }) running awake false taken)
  rw [takeException_off (s := s0) off he, account_unrecorded (s0 := s0) hp tracing branch] at runs
  exact ⟨_, runs, enters_dropFetched entered⟩

/-- Settles O37: the ranks above the interrupts are idle, and FIQ stands before IRQ. -/
theorem interruptEntry : Obligations.InterruptEntry := by
  unfold Obligations.InterruptEntry
  intro s hs running hit pending jtag off normal hp
  let s0 := ({ s with note := Note.empty } : State).awake
  have full : s0.fullNow = false := by
    show (s.dbg.pendFull && s.debugOn && _) = false
    rw [off, Bool.and_false, Bool.false_and]
  have soc : s0.socNow = false := by
    show (s.pins.soc && s.debugOn && _) = false
    rw [off, Bool.and_false, Bool.false_and]
  have event : s0.takeEvent false =
      if s.pins.fiq && !s.cpsr.getLsbD 6 then some (s0.takeException .fiq (s.pc + 4) false)
      else if s.pins.irq && !s.cpsr.getLsbD 7 then some (s0.takeException .irq (s.pc + 4) false) else none := by
    have hit' : s0.dbg.hit = false := hit
    have pending' : s0.pendingAbort = none := pending
    have jtag' : s0.jtagNow = false := jtag
    have normal' : s0.dbg.sds = false := normal
    rw [State.takeEvent, hit', pending', jtag', full, soc, normal']
    simp only [Bool.and_true, Bool.not_false]
    rfl
  refine ⟨fun fiq enabled => ?fiq, fun noFiq irq enabled => ?irq⟩
  case fiq =>
    have awake : s.asleep = false := by rw [State.asleep, fiq, Bool.not_true, Bool.and_false]
    refine step_interrupt .fiq nofun hs running awake off hp (event.trans ?_)
    rw [fiq, enabled]
    rfl
  case irq =>
    have awake : s.asleep = false := by rw [State.asleep, irq, Bool.not_true, Bool.and_false, Bool.false_and]
    have masked : (s.pins.fiq && !s.cpsr.getLsbD 6) = false := by
      obtain h | h := noFiq <;> rw [h]
      · rfl
      · exact Bool.and_false _
    refine step_interrupt .irq nofun hs running awake off hp (event.trans ?_)
    rw [masked, irq, enabled]
    rfl

/-! The step that runs an instruction -/

theorem btbOn_off {s : State} (h : s.ctrlBit 11 = false) : s.btbOn = false := by rw [State.btbOn, h]; rfl

theorem btbStale_off {s : State} (h : s.ctrlBit 11 = false) : s.btbStale = false := by
  rw [State.btbStale, btbOn_off h]; rfl

/-- With the branch target buffer disabled, what was fetched earlier is discarded where control flow changes. -/
theorem dropFetched_off {s0 : State} (h : s0.ctrlBit 11 = false) (t : State) : s0.dropFetched t =
    { t with stale := if t.note.flow = .sequential ∨ t.note.flow = .idle then t.stale else [] } := by
  have unpredicted : s0.btbPredicted t = false := by rw [State.btbPredicted, btbOn_off h]; rfl
  rw [State.dropFetched, unpredicted, Bool.or_false]
  by_cases flow : t.note.flow = .sequential ∨ t.note.flow = .idle
  · rw [if_pos (by simpa using flow), if_pos flow]
  · rw [if_neg (by simpa using flow), if_neg flow]

/-- Settles O4: with nothing due the core fetches, decodes and executes. -/
theorem stepRunsInstruction : Obligations.StepRunsInstruction := by
  unfold Obligations.StepRunsInstruction
  intro s s0 s1 c hs running awake quiet hs0 unbroken fetched
  subst hs0
  have runs := (step_core hs).trans
    (coreStep_run (s := { s with note := Note.empty }) running awake false quiet unbroken)
  rw [runInstr, fetched] at runs
  refine ⟨fun stale => ?now, fun t ht => ⟨?next, btbStale_off, fun hp ht hb => ?record⟩, fun f hf => ?fault, fun r hr => ?refused⟩
  case now =>
    have fresh : ({ s with note := Note.empty } : State).awake.stale = [] := stale
    rw [settleView_now fresh]
    exact ⟨rfl, fetchNext_now fresh⟩
  case next =>
    refine runs.trans ?_
    dsimp only
    rw [ht, State.guardBtb]
    split <;> rfl
  case record =>
    rw [account_unrecorded hp ht (by rw [btbOn_off hb]; rfl), dropFetched_off hb]
  case fault => exact runs.trans (by dsimp only; rw [hf]; rfl)
  case refused => exact runs.trans (by dsimp only; rw [hr]; rfl)

/-! Reset -/

theorem clear_bit (v : Word) : (v &&& ~~~1).getLsbD 0 = false := by
  rw [BitVec.getLsbD_and]
  exact Bool.and_false _

/-- What the reset sequence gives the control registers and the units. -/
theorem resetCore_units (s : State) :
    s.resetCore.cpsr.extractLsb' 0 8 = 0xD3 ∧ s.resetCore.cp15.ibr0.getLsbD 0 = false ∧
      s.resetCore.cp15.ibr1.getLsbD 0 = false ∧ s.resetCore.dbg.dcsr &&& 0x8000007F = 0 := by
  refine ⟨?_, ?_, ?_, ?_⟩
  · dsimp only [State.resetCore]
    exact BitVec.extractLsb'_append_eq_right
  · dsimp only [State.resetCore, resetCp15]
    exact clear_bit _
  · dsimp only [State.resetCore, resetCp15]
    exact clear_bit _
  · dsimp only [State.resetCore, resetDebug]
    rw [BitVec.and_assoc]
    exact BitVec.and_zero

/-- Settles O38: both states are written out field by field. -/
theorem resetSequence : Obligations.ResetSequence := by
  unfold Obligations.ResetSequence
  refine ⟨?after, fun s => ?kept⟩
  case after =>
    rintro t (rfl | ⟨s, rfl⟩)
    · refine ⟨rfl, rfl, rfl, rfl, rfl, rfl, rfl, rfl, rfl, rfl, rfl, rfl, rfl, rfl, rfl, rfl, rfl, rfl, rfl, rfl, rfl, rfl, rfl,
        rfl, rfl, rfl, rfl, rfl, rfl, rfl, rfl, rfl⟩
    · obtain ⟨mode, ibr0, ibr1, dcsr⟩ := resetCore_units s
      dsimp only [State.resetCore, resetCp15, resetPmu, resetDebug] at *
      exact ⟨mode, rfl, rfl, rfl, rfl, rfl, rfl, rfl, ibr0, ibr1, rfl, rfl, rfl, rfl, dcsr, rfl, rfl, rfl, rfl, rfl, rfl, rfl,
        rfl, rfl, rfl, rfl, rfl, rfl, rfl, rfl, rfl, rfl⟩
  case kept =>
    dsimp only [State.resetCore, resetDebug]
    exact ⟨rfl, rfl, rfl, rfl, rfl, rfl, rfl, rfl, rfl, rfl⟩

end Sys2Proof.Exceptions

/-!
PROOF. The alignment check comes first in every access of more than a byte: what it stops ends the instruction with a data abort
(`20_memory` R221, `60_exceptions` R900, R901).
-/
namespace Sys2Proof.Misaligned
open Sys2Proof Sys2Proof.Machine Sys2Proof.Spec Sys2Proof.ArmBase Sys2Proof.Accesses Sys2Proof.Singles Sys2Proof.Pairs
  Sys2Proof.Multiples Sys2Proof.Exceptions

/-! The check -/

theorem bind_error {α β : Type} {m : Exec α} {k : α → Exec β} {s t : State} {e : Stop} (h : m s = .error e t) :
    (m >>= k) s = .error e t := by
  change EStateM.bind m k s = _
  simp [EStateM.bind, h]

/-- The fault status of an alignment abort; bit 1 is free. -/
def alignmentStatus (s : State) : BitVec 5 := (0 : BitVec 3) ++ s.freeBits 1 ++ (1 : BitVec 1)

theorem checkAligned_error {s : State} {va : Word} {b : Nat} (hb : b ≤ 32) (on : s.ctrlBit 1 = true)
    (h : va.toNat % 2 ^ b ≠ 0) :
    checkAligned va b s = .error (.abort (alignmentStatus s) none (some (s.pidRemap va))) s.drawn := by
  have nonzero : va &&& BitVec.ofNat 32 (2 ^ b - 1) ≠ 0 := by
    intro e
    exact h ((toNat_and_mask va hb).symm.trans (congrArg BitVec.toNat e))
  rw [checkAligned, bind_ok (get_ok s), on, bne_iff_ne.mpr nonzero]
  rfl

/-! The accesses that begin with it -/

/-- What the alignment check of `va` stops, stops `m`. -/
def Checks {α : Type} (m : Exec α) (va : Word) (b : Nat) : Prop :=
  ∀ s e t, checkAligned va b s = .error e t → m s = .error e t

section
variable {α β : Type} {va : Word} {b : Nat}

theorem checks_bind {k : Unit → Exec β} : Checks (checkAligned va b >>= k) va b := fun _ _ _ h => bind_error h

theorem Checks.bind {m : Exec α} {k : α → Exec β} (hm : Checks m va b) : Checks (m >>= k) va b :=
  fun s e t h => bind_error (hm s e t h)

theorem checks_loadWord (user : Bool) : Checks (loadWord va user) va 2 := checks_bind

theorem checks_storeWord (user : Bool) (v : Word) : Checks (storeWord va user v) va 2 := checks_bind

theorem checks_loadHalf : Checks (loadHalf va) va 1 := checks_bind

theorem checks_storeHalf (v : Half) : Checks (storeHalf va v) va 1 := checks_bind

theorem checks_loadDouble : Checks (loadDouble va) va 3 := Checks.bind checks_bind

theorem checks_storeDouble (v w : Word) : Checks (storeDouble va v w) va 3 := Checks.bind checks_bind

theorem checks_loadMultiple (m base : BitVec 5) (list : BitVec 16) : Checks (loadMultiple m base va list) va 2 := checks_bind

theorem checks_storeMultiple (ws : List Word) : Checks (storeMultiple va ws) va 2 := checks_bind

theorem checks_swapWordAt (v : Word) : Checks (swapWordAt va v) va 2 := checks_bind

theorem checks_loadCoprocessor : Checks (loadCoprocessor va) va 2 := checks_bind

theorem checks_storeCoprocessor (read : CpRead) : Checks (storeCoprocessor va read) va 2 := checks_bind

end

/-! The abort -/

/-- The fault status written: an alignment status, whose domain and bit 1 are free. -/
theorem alignment_fsr : ∀ (x : BitVec 1) (d : BitVec 4),
    ((0 : BitVec 21) ++ ((0 : BitVec 3) ++ x ++ (1 : BitVec 1)).extractLsb' 4 1 ++ (0 : BitVec 2) ++ d ++
      ((0 : BitVec 3) ++ x ++ (1 : BitVec 1)).extractLsb' 0 4) &&& (0x60D : Word) = 1 := by decide

/-- The state from which a data abort takes its exception. -/
def faulted (s : State) (fs : BitVec 5) (dom : Option (BitVec 4)) (far : Option Word) : State :=
  { s.writeFault fs dom far with dbg := { s.dbg with hit := false } }

theorem dataAbort_off {s : State} (off : s.debugOn = false) (normal : s.dbg.sds = false) (fs : BitVec 5)
    (dom : Option (BitVec 4)) (far : Option Word) (toPc : Bool) :
    s.dataAbort fs dom far toPc = (faulted s fs dom far).enterException .dataAbort (s.pc + 8) := by
  rw [State.dataAbort, normal]
  exact takeException_off (s := faulted s fs dom far) off (e := .dataAbort) nofun (s.pc + 8) (!toPc)

/-- The state of an alignment abort, after any number of free values read. -/
theorem misalignedAbort_of_dataAbort {i : Instr} {s : State} (n : Nat) {x : BitVec 1} {va : Word} {toPc : Bool}
    (off : s.debugOn = false) (normal : s.dbg.sds = false)
    (h : exec i s = .next (({ s with free := n } : State).dataAbort ((0 : BitVec 3) ++ x ++ (1 : BitVec 1)) none
      (some (s.pidRemap va)) toPc)) : MisalignedAbort i s va := by
  have entered := enters_enterException
    (faulted { s with free := n } ((0 : BitVec 3) ++ x ++ (1 : BitVec 1)) none (some (s.pidRemap va))) .dataAbort (s.pc + 8)
  exact ⟨_, h.trans (congrArg Host.Outcome.next (dataAbort_off (s := { s with free := n }) off normal ..)),
    { entered with }, alignment_fsr _ _, rfl, rfl⟩

theorem storeRead_cases (s : State) (rd rn : Reg) (wb : Option Word) :
    s.storeRead rd rn wb = s ∨ s.storeRead rd rn wb = s.drawn := by
  unfold State.storeRead
  split
  · exact .inr rfl
  · exact .inl rfl

section
variable {i : Instr} {s : State} {va : Word} {toPc : Bool} (off : s.debugOn = false) (normal : s.dbg.sds = false)
  (on : s.ctrlBit 1 = true)
include off normal on

theorem misalignedAbort_of {α : Type} {m : Exec α} {b : Nat} {s' : State}
    {k : α → State → Host.Outcome State Fault Refusal} (hm : Checks m va b) (hb : b ≤ 32) (h : va.toNat % 2 ^ b ≠ 0)
    (hs : s' = s ∨ s' = s.drawn) (runs : exec i s = withValue toPc m s' k) : MisalignedAbort i s va := by
  obtain ⟨n, rfl⟩ : ∃ n, s' = { s with free := n } := by
    obtain rfl | rfl := hs
    · exact ⟨_, rfl⟩
    · exact ⟨_, rfl⟩
  rw [withValue, hm _ _ _ (checkAligned_error (s := { s with free := n }) hb on h)] at runs
  exact misalignedAbort_of_dataAbort (n + 1) off normal runs

/-! The transfers of one register -/

variable {a : Address} (user : Bool) {rd rn : Reg}

theorem misaligned_loadWordTo (h : a.addr.toNat % 4 ≠ 0) (runs : exec i s = loadWordTo user rd rn a s) :
    MisalignedAbort i s a.addr := by
  have checked : (rd != 15 || s.ctrlBit 1 || a.addr.extractLsb' 0 2 == 0) = true := by rw [on, Bool.or_true, Bool.true_or]
  exact misalignedAbort_of off normal on (checks_loadWord user) (by decide) h (.inl rfl)
    (runs.trans (congrArg (orRefuse · _ _) checked))

theorem misaligned_storeWordFrom (h : a.addr.toNat % 4 ≠ 0) (runs : exec i s = storeWordFrom user rd rn a s) :
    MisalignedAbort i s a.addr :=
  misalignedAbort_of off normal on (checks_storeWord user _) (by decide) h (storeRead_cases s rd rn a.wb) runs

theorem misaligned_loadHalfTo (h : a.addr.toNat % 2 ≠ 0)
    (runs : exec i s = loadHalfTo rd rn a s ∨ exec i s = loadSignedHalfTo rd rn a s) : MisalignedAbort i s a.addr := by
  obtain runs | runs := runs
  · exact misalignedAbort_of off normal on checks_loadHalf (by decide) h (.inl rfl) runs
  · exact misalignedAbort_of off normal on checks_loadHalf (by decide) h (.inl rfl) runs

theorem misaligned_storeHalfFrom (h : a.addr.toNat % 2 ≠ 0) (runs : exec i s = storeHalfFrom rd rn a s) :
    MisalignedAbort i s a.addr :=
  misalignedAbort_of off normal on (checks_storeHalf _) (by decide) h (storeRead_cases s rd rn a.wb) runs

/-! The multiple transfers -/

variable {p u w : Bool} {list : BitVec 16}

theorem misaligned_loadMultipleTo (h : (listAt s p u rn list).1.toNat % 4 ≠ 0)
    (runs : exec i s = loadMultipleTo p u w rn list s) : MisalignedAbort i s (listAt s p u rn list).1 :=
  misalignedAbort_of off normal on (checks_loadMultiple _ _ _) (by decide) h (.inl rfl) runs

theorem misaligned_storeMultipleFrom (h : (listAt s p u rn list).1.toNat % 4 ≠ 0)
    (runs : exec i s = storeMultipleFrom p u w rn list s) : MisalignedAbort i s (listAt s p u rn list).1 :=
  misalignedAbort_of off normal on (checks_storeMultiple _) (by decide) h (.inr rfl) runs

end

theorem sub_words_mod (v : Word) (n : Nat) : (v - BitVec.ofNat 32 (4 * n)).toNat % 4 = v.toNat % 4 := by
  have := v.isLt
  rw [BitVec.toNat_sub, BitVec.toNat_ofNat]
  omega

/-! The coprocessor forms -/

theorem ldcRegister_isSome {crd : BitVec 4} (h : (ldcTarget crd).isSome = true) : ∃ write, ldcRegister crd = some write := by
  refine Option.isSome_iff_exists.mp ?_
  revert h
  revert crd
  unfold ldcTarget ldcRegister
  intro crd
  split_ifs <;> exact id

theorem stcRegister_isSome {s : State} {crd : BitVec 4} (h : (stcSource s crd).isSome = true) :
    ∃ read, stcRegister crd = some read := by
  refine Option.isSome_iff_exists.mp ?_
  revert h
  unfold stcSource stcRegister
  split_ifs <;> exact id

theorem needPrivilege_of {s : State} (h : s.privileged = true) (body : Host.Outcome State Fault Refusal) :
    needPrivilege s body = body := if_pos h

section
variable {cond : Cond} {s : State} {p u w : Bool} {rn crd : Reg} {r8 : BitVec 8} (hc : condPassed cond s = true)
  (priv : s.privileged = true)
include hc priv

theorem exec_ldcP14_passed {write : CpWrite} (found : ldcRegister crd = some write) (form : (p || u || w) = true)
    (base : w = false ∨ rn ≠ 15) : exec (.ldcP14 cond p u false w rn crd r8) s =
      withValue false (loadCoprocessor (s.am5 p u w rn r8).addr) s fun v s1 =>
        match write s1 v with
        | .ok s2 => .next (s2.baseUpdate rn (s.am5 p u w rn r8).wb).advance
        | .error r => .refused r := by
  refine (whenCond_passed hc _).trans ((needPrivilege_of priv _).trans ?_)
  rw [found]
  exact am5Ok_of form base _

theorem exec_stcP14_passed {read : CpRead} (found : stcRegister crd = some read) (form : (p || u || w) = true)
    (base : w = false ∨ rn ≠ 15) : exec (.stcP14 cond p u false w rn crd r8) s =
      withValue false (storeCoprocessor (s.am5 p u w rn r8).addr read) s fun _ s1 =>
        .next (s1.baseUpdate rn (s.am5 p u w rn r8).wb).advance := by
  refine (whenCond_passed hc _).trans ((needPrivilege_of priv _).trans ?_)
  rw [found]
  exact am5Ok_of form base _

end

/-- Settles O36: each form passes its own checks and comes to the alignment check. -/
theorem alignmentAbort : Obligations.AlignmentAbort := by
  unfold Obligations.AlignmentAbort
  intro cond p u w i rn rd rm hi lo off n kind list regs a b d imm5 tl off8 s debug normal on
  refine ⟨fun hc => ⟨?am2Imm, ?am2Reg, ?userImm, ?userReg, ?am3, fun hn => ⟨?list, ?ldmUser, ?ldmReturn⟩, ?swp, ?am5⟩,
    ⟨?thumbReg, ?thumbHalfReg⟩, ?thumbImm, ?thumbHalfImm, ?thumbSp, fun h => ⟨?pop, ?push⟩, ?thumbList⟩
  case am2Imm =>
    intro va form h
    simp only [List.forall_mem_cons, List.not_mem_nil, false_implies, implies_true, and_true]
    exact ⟨misaligned_loadWordTo debug normal on false h ((whenCondPc_passed hc _).trans (am2ImmOk_of _ form)),
      misaligned_storeWordFrom debug normal on false h ((whenCond_passed hc _).trans (am2ImmOk_of _ form))⟩
  case am2Reg =>
    intro va form h
    simp only [List.forall_mem_cons, List.not_mem_nil, false_implies, implies_true, and_true]
    exact ⟨misaligned_loadWordTo debug normal on false h ((whenCondPc_passed hc _).trans (am2RegOk_of _ form)),
      misaligned_storeWordFrom debug normal on false h ((whenCond_passed hc _).trans (am2RegOk_of _ form))⟩
  case userImm =>
    intro va hn hd h
    simp only [List.forall_mem_cons, List.not_mem_nil, false_implies, implies_true, and_true]
    exact ⟨misaligned_loadWordTo debug normal on true h
        ((whenCond_passed hc _).trans ((destOk _ hd).trans (am2ImmOk_of _ (.inr hn)))),
      misaligned_storeWordFrom debug normal on true h ((whenCond_passed hc _).trans (am2ImmOk_of _ (.inr hn)))⟩
  case userReg =>
    intro va form hd h
    simp only [List.forall_mem_cons, List.not_mem_nil, false_implies, implies_true, and_true]
    exact ⟨misaligned_loadWordTo debug normal on true h
        ((whenCond_passed hc _).trans ((destOk _ hd).trans (am2RegOk_of _ form))),
      misaligned_storeWordFrom debug normal on true h ((whenCond_passed hc _).trans (am2RegOk_of _ form))⟩
  case am3 =>
    intro va form
    simp only [List.forall_mem_cons, List.not_mem_nil, false_implies, implies_true, and_true]
    refine ⟨fun hd h => ⟨?_, ?_, ?_⟩, fun regs h => ⟨?_, ?_⟩⟩
    · exact misaligned_loadHalfTo debug normal on h
        (.inl ((whenCond_passed hc _).trans ((destOk _ hd).trans (am3Ok_of _ form))))
    · exact misaligned_loadHalfTo debug normal on h
        (.inr ((whenCond_passed hc _).trans ((destOk _ hd).trans (am3Ok_of _ form))))
    · exact misaligned_storeHalfFrom debug normal on h ((whenCond_passed hc _).trans (am3Ok_of _ form))
    · exact misalignedAbort_of debug normal on checks_loadDouble (by decide) h (.inl rfl)
        ((whenCond_passed hc _).trans ((doubleOk_of regs s _).trans (am3Ok_of _ form)))
    · exact misalignedAbort_of debug normal on (checks_storeDouble _ _) (by decide) h (.inl rfl)
        ((whenCond_passed hc _).trans ((doubleOk_of regs s _).trans (am3Ok_of _ form)))
  case list =>
    intro va hl h
    simp only [List.forall_mem_cons, List.not_mem_nil, false_implies, implies_true, and_true]
    exact ⟨⟨misaligned_loadMultipleTo debug normal on h ((whenCondPc_passed hc _).trans (listOk_of hn hl _)),
        misaligned_storeMultipleFrom debug normal on h ((whenCond_passed hc _).trans (listOk_of hn hl _))⟩,
      fun spsr => misalignedAbort_of debug normal on (checks_storeMultiple _) (by decide) h (.inl rfl)
        ((whenCond_passed hc _).trans ((listOk_of hn hl _).trans (congrArg (orRefuse · _ _) spsr)))⟩
  case ldmUser =>
    intro va hl spsr h
    exact misalignedAbort_of debug normal on (checks_loadMultiple _ _ _) (by decide) h (.inl rfl)
      ((whenCond_passed hc _).trans ((listOk_of hn (regs_ne_zero hl) _).trans (congrArg (orRefuse · _ _) spsr)))
  case ldmReturn =>
    intro va spsr h
    exact misalignedAbort_of debug normal on (checks_loadMultiple _ _ _) (by decide) h (.inl rfl)
      ((whenCondPc_passed hc _).trans ((listOk_of hn (pc_ne_zero regs) _).trans (congrArg (orRefuse · _ _) spsr)))
  case swp =>
    intro hn hd hm hnm hnd h
    have operands : (rd != 15 && rm != 15 && rn != 15) = true := by
      rw [bne_iff_ne.mpr hd, bne_iff_ne.mpr hm, bne_iff_ne.mpr hn]; rfl
    have apart : (rn != rm && rn != rd) = true := by rw [bne_iff_ne.mpr hnm, bne_iff_ne.mpr hnd]; rfl
    exact misalignedAbort_of debug normal on (checks_swapWordAt _) (by decide) h (.inl rfl)
      ((whenCond_passed hc _).trans ((congrArg (orRefuse · _ _) operands).trans (congrArg (orRefuse · _ _) apart)))
  case am5 =>
    intro va form base h
    refine ⟨fun priv known => ?_, fun priv known => ?_, fun allowed present => ?_⟩
    · obtain ⟨write, found⟩ := ldcRegister_isSome known
      have runs := exec_ldcP14_passed (s := s) (rn := rn) (r8 := off8) hc priv found form base
      exact misalignedAbort_of debug normal on checks_loadCoprocessor (by decide) h (.inl rfl) runs
    · obtain ⟨read, found⟩ := stcRegister_isSome known
      have runs := exec_stcP14_passed (s := s) (rn := rn) (r8 := off8) hc priv found form base
      exact misalignedAbort_of debug normal on (checks_storeCoprocessor read) (by decide) h (.inl rfl) runs
    · exact misalignedAbort_of debug normal on checks_loadCoprocessor (by decide) h (.inl rfl)
        ((whenCond_passed hc _).trans (absentLoad_loads allowed present form base))
  case thumbReg =>
    intro h
    simp only [List.forall_mem_cons, List.not_mem_nil, false_implies, implies_true, and_true]
    exact ⟨misaligned_loadWordTo debug normal on (a := plainAddress _) false h rfl,
      misaligned_storeWordFrom debug normal on (a := plainAddress _) false h rfl⟩
  case thumbHalfReg =>
    intro h
    simp only [List.forall_mem_cons, List.not_mem_nil, false_implies, implies_true, and_true]
    exact ⟨misaligned_loadHalfTo debug normal on (a := plainAddress _) h (.inl rfl),
      misaligned_loadHalfTo debug normal on (a := plainAddress _) h (.inr rfl),
      misaligned_storeHalfFrom debug normal on (a := plainAddress _) h rfl⟩
  case thumbImm =>
    rw [← ThumbData.scaled_two imm5]
    intro va h
    simp only [List.forall_mem_cons, List.not_mem_nil, false_implies, implies_true, and_true]
    exact ⟨misaligned_loadWordTo debug normal on (a := plainAddress va) false h rfl,
      misaligned_storeWordFrom debug normal on (a := plainAddress va) false h rfl⟩
  case thumbHalfImm =>
    rw [← scaled_one imm5]
    intro va h
    simp only [List.forall_mem_cons, List.not_mem_nil, false_implies, implies_true, and_true]
    exact ⟨misaligned_loadHalfTo debug normal on (a := plainAddress va) h (.inl rfl),
      misaligned_storeHalfFrom debug normal on (a := plainAddress va) h rfl⟩
  case thumbSp =>
    rw [← ThumbData.scaled_two tl]
    intro va h
    simp only [List.forall_mem_cons, List.not_mem_nil, false_implies, implies_true, and_true]
    exact ⟨misaligned_loadWordTo debug normal on (a := plainAddress va) false h rfl,
      misaligned_storeWordFrom debug normal on (a := plainAddress va) false h rfl⟩
  case pop =>
    intro hl
    have nonempty : stackList w tl 15 ≠ 0 := by
      cases w with
      | false => rw [stackList_false]; exact lowList_ne_zero (hl.resolve_right Bool.false_ne_true)
      | true => rw [stackList_true]; exact pc_ne_zero _
    exact misaligned_loadMultipleTo (p := false) (u := true) (w := true) (rn := 13) (list := stackList w tl 15) debug normal on h
      (congrArg (orRefuse · _ _) (bne_iff_ne.mpr nonempty))
  case push =>
    intro pushed hl
    have link : stackList w tl 14 = pushed := by cases w <;> rfl
    refine misaligned_storeMultipleFrom (p := true) (u := false) (w := true) (rn := 13) (list := pushed) debug normal on ?_ ?_
    · exact (sub_words_mod (s.reg 13) (listCount 16 pushed)).trans_ne h
    · rw [exec_tPush, execTPush, link, bne_iff_ne.mpr hl]
      rfl
  case thumbList =>
    intro hl h
    simp only [List.forall_mem_cons, List.not_mem_nil, false_implies, implies_true, and_true]
    exact ⟨misalignedAbort_of debug normal on (checks_loadMultiple _ _ _) (by decide) h (.inl rfl)
        (congrArg (orRefuse · _ _) (bne_iff_ne.mpr (lowList_ne_zero hl))),
      misaligned_storeMultipleFrom (p := false) (u := true) (w := true) (rn := low a) (list := lowList tl) debug normal on h
        (if_neg (lowList_ne_zero hl))⟩

end Sys2Proof.Misaligned

/-!
PROOF. Coprocessor 0: the multiply-accumulates and the transfers of the accumulator (`42_cp0_accumulator` R750 to R759).
-/
namespace Sys2Proof.Accumulator
open Sys2Proof Sys2Proof.Machine Sys2Proof.Spec Sys2Proof.ArmBase Sys2Proof.Exceptions

/-- The sum modulo 2^40 does not depend on how the accumulator is read. -/
theorem ofInt_add_toInt (p : Int) (a : BitVec 40) : BitVec.ofInt 40 (p + a.toInt) = BitVec.ofInt 40 (a.toNat + p) := by
  rw [BitVec.ofInt_add, BitVec.ofInt_add, BitVec.ofInt_toInt, BitVec.add_comm, BitVec.ofInt_natCast, BitVec.ofNat_toNat,
    BitVec.setWidth_eq]

section
variable {cond : Cond} {i : Instr} {s : State} (hc : condPassed cond s = true)
include hc

/-- The multiply-accumulates end in `miaFinish`. -/
theorem effect_of_miaFinish {rs rm : Reg} {p : Int} (allowed : s.cp15.cpar.getLsbD 0 = true) (hs : rs ≠ 15) (hm : rm ≠ 15)
    (h : exec i s = whenCond cond s (miaFinish 0 rs rm p s)) :
    Effect i s { s with acc0 := BitVec.ofInt 40 (s.acc0.toNat + p) } := by
  have operands : (rs != 15 && rm != 15) = true := by rw [bne_iff_ne.mpr hs, bne_iff_ne.mpr hm]; rfl
  rw [Effect, h, whenCond_passed hc, miaFinish, needCp_allowed _ _ allowed, operands, ← ofInt_add_toInt]
  rfl

end

/-- Settles O43: each of the six ends in `miaFinish`. -/
theorem multiplyAccumulate : Obligations.MultiplyAccumulate := by
  unfold Obligations.MultiplyAccumulate
  intro cond rs rm s hc allowed hs hm
  have ends {i : Instr} {p : Int} := effect_of_miaFinish (i := i) (p := p) hc allowed hs hm
  exact ⟨ends rfl, ends rfl, ends rfl, ends rfl, ends rfl, ends rfl⟩

/-! The transfers -/

/-- The conditions on the registers of MAR and MRA. -/
theorem both_ne_pc {hi lo : Reg} (hhi : hi ≠ 15) (hlo : lo ≠ 15) : (hi != 15 && lo != 15) = true := by
  rw [bne_iff_ne.mpr hhi, bne_iff_ne.mpr hlo]; rfl

/-- Settles O44: with access to coprocessor 0 only the register constraints are left. -/
theorem accumulatorTransfer : Obligations.AccumulatorTransfer := by
  unfold Obligations.AccumulatorTransfer
  intro cond hi lo s hc allowed hhi hlo
  have operands := both_ne_pc hhi hlo
  have mra : exec (.mra cond hi lo 0 0) s = orRefuse (hi != lo) .registerOverlap
      (.next ((s.setReg hi s.accHigh).setReg lo (s.acc0.extractLsb' 0 32)).advance) :=
    (whenCond_passed hc _).trans ((needCp_allowed _ _ allowed).trans (congrArg (orRefuse · _ _) operands))
  refine ⟨?mar, fun hne => ?mra, fun e => ?overlap⟩
  case mar => exact (whenCond_passed hc _).trans ((needCp_allowed _ _ allowed).trans (congrArg (orRefuse · _ _) operands))
  case mra =>
    obtain ⟨high, lowHalf, frame⟩ := setReg_pair s s.accHigh (s.acc0.extractLsb' 0 32) hhi hlo hne
    exact ⟨_, mra.trans (congrArg (orRefuse · _ _) (bne_iff_ne.mpr hne)), high, lowHalf, rfl, rfl, frame_advance frame⟩
  case overlap => exact mra.trans (congrArg (orRefuse · _ _) (bne_eq_false_iff_eq.mpr e))

/-! Access -/

/-- Settles O45: the access is checked first, then the bits of the form, then the accumulator. -/
theorem accumulatorAccess : Obligations.AccumulatorAccess := by
  unfold Obligations.AccumulatorAccess
  intro cond rs rm acc o1 o2 op4 hi lo crn rd crm sb s hc
  refine ⟨fun denied off normal => ?denied, fun allowed => ⟨?forms, fun bits => ?bits, fun other => ?other⟩⟩
  case denied =>
    have undefined {i : Instr} {body : Host.Outcome State Fault Refusal}
        (h : exec i s = whenCond cond s (needCp 0 s body)) : Spec.Undefined i s :=
      undefined_of_raise off normal (h.trans ((whenCond_passed hc _).trans (needCp_denied 0 _ denied)))
    simp only [List.forall_mem_cons, List.not_mem_nil, false_implies, implies_true, and_true]
    exact ⟨undefined rfl, undefined rfl, undefined rfl, undefined rfl, undefined rfl, undefined rfl, undefined rfl,
      undefined rfl, undefined rfl, undefined rfl⟩
  case forms =>
    have refused {i : Instr} (h : exec i s = whenCond cond s (needCp 0 s (.refused .coprocessorForm))) :
        exec i s = .refused .coprocessorForm :=
      h.trans ((whenCond_passed hc _).trans (needCp_allowed _ _ allowed))
    simp only [List.forall_mem_cons, List.not_mem_nil, false_implies, implies_true, and_true]
    exact ⟨refused rfl, refused rfl, refused rfl, refused rfl, refused rfl⟩
  case bits =>
    have refused {i : Instr} {body : Host.Outcome State Fault Refusal}
        (h : exec i s = whenCond cond s (needCp 0 s (orRefuse (sb == 0) .shouldBeBits body))) :
        exec i s = .refused .shouldBeBits :=
      h.trans ((whenCond_passed hc _).trans ((needCp_allowed _ _ allowed).trans
        (congrArg (orRefuse · _ _) (beq_eq_false_iff_ne.mpr bits))))
    simp only [List.forall_mem_cons, List.not_mem_nil, false_implies, implies_true, and_true]
    exact ⟨refused rfl, refused rfl⟩
  case other =>
    have refused {i : Instr} {body : Host.Outcome State Fault Refusal}
        (h : exec i s = whenCond cond s (needCp 0 s (orRefuse (acc == 0) .accumulator body))) :
        exec i s = .refused .accumulator :=
      h.trans ((whenCond_passed hc _).trans ((needCp_allowed _ _ allowed).trans
        (congrArg (orRefuse · _ _) (beq_eq_false_iff_ne.mpr other))))
    simp only [List.forall_mem_cons, List.not_mem_nil, false_implies, implies_true, and_true]
    exact ⟨refused rfl, refused rfl, refused rfl, refused rfl, refused rfl, refused rfl, refused rfl, refused rfl⟩

end Sys2Proof.Accumulator

/-!
PROOF. The registers of CP15, CP14 and CP7: for each readable one what the model's read gives, and the reads of the instructions
(`43_cp15_functions` R770, `44_cp14_cp7` R850, R860).
-/
namespace Sys2Proof.Registers
open Sys2Proof Sys2Proof.Machine Sys2Proof.Spec Sys2Proof.ArmBase Sys2Proof.Exceptions Sys2Proof.Singles Sys2Proof.Misaligned

/-! What a read of the model gives -/

/-- A read of the model in `s`, against a readable register: the defined bits of the value, and the state after it, where no
more than free values was read. -/
structure ReadsAs (e : ReadableRegister) (read : CpRead) (s : State) : Prop where
  value : (read s).1 &&& e.defined = e.value s &&& e.defined
  after : ∃ n, (read s).2 = { e.after s with free := n }
  cpsr : (e.after s).cpsr = s.cpsr
  pc : (e.after s).pc = s.pc

/-- Open bits, where the defined bits are closed. -/
theorem open_and_defined (v x : Word) {m d : Word} (h : m &&& d = 0) : ((v &&& ~~~m) ||| (x &&& m)) &&& d = v &&& d := by
  apply BitVec.eq_of_getLsbD_eq
  intro i hi
  have bit := congrArg (fun w : Word => w.getLsbD i) h
  simp only [BitVec.getLsbD_and, BitVec.getLsbD_or, BitVec.getLsbD_not, hi, decide_true, Bool.true_and] at bit ⊢
  rw [show (0 : Word).getLsbD i = false from BitVec.getLsbD_zero] at bit
  revert bit
  cases v.getLsbD i <;> cases x.getLsbD i <;> cases m.getLsbD i <;> cases d.getLsbD i <;> decide

section
variable {e : ReadableRegister} {s : State} (after : e.after s = s)
include after

theorem readsAs_plain (f : State → Word) (value : f s = e.value s) : ReadsAs e (plainRead f) s where
  value := congrArg (· &&& e.defined) value
  after := ⟨s.free, by rw [after]; rfl⟩
  cpsr := congrArg State.cpsr after
  pc := congrArg State.pc after

theorem readsAs_reserved (m : Word) (f : State → Word) (apart : m &&& e.defined = 0) (value : f s = e.value s) :
    ReadsAs e (reservedRead m f) s where
  value := (open_and_defined (f s) (s.freeBits 32) apart).trans (congrArg (· &&& e.defined) value)
  after := ⟨s.free + 1, by rw [after]; rfl⟩
  cpsr := congrArg State.cpsr after
  pc := congrArg State.pc after

end

/-! Reading into a register -/

section
variable {e : ReadableRegister} {read : CpRead} {s : State} (h : ReadsAs e read s)
include h

theorem ReadsAs.frame (ks : List (BitVec 5)) : Frame (e.after s) (read s).2 ks noBytes := by
  obtain ⟨n, after⟩ := h.after
  rw [after]
  exact { frame_refl (e.after s) ks noBytes with }

theorem ReadsAs.cpsr_after : (read s).2.cpsr = s.cpsr := by
  obtain ⟨n, after⟩ := h.after
  rw [after]
  exact h.cpsr

theorem ReadsAs.pc_after : (read s).2.pc = s.pc := by
  obtain ⟨n, after⟩ := h.after
  rw [after]
  exact h.pc

theorem ReadsAs.mode_after : (read s).2.mode = s.mode := congrArg (fun c : Word => c.extractLsb' 0 5) h.cpsr_after

theorem ReadsAs.nextPc_after : (read s).2.nextPc = s.nextPc := by
  unfold State.nextPc State.thumb
  rw [h.cpsr_after, h.pc_after]

theorem reads_of_setReg {cond : Cond} {rd : Reg}
    (runs : exec (e.instr cond rd) s = .next ((read s).2.setReg rd (read s).1).advance) : Reads e cond rd s := by
  have written : (((read s).2.setReg rd (read s).1).advance).regIn s.mode rd = (read s).1 := by
    rw [← h.mode_after]
    exact regIn_setReg_self ..
  refine ⟨_, runs, by rw [written]; exact h.value, h.cpsr_after, h.nextPc_after, ?_⟩
  exact frame_advance (frame_setReg (h.frame _) _ (List.mem_singleton.mpr (congrArg (physIndex · rd) h.mode_after)))

end

/-! CP15 -/

/-- A register of CP15 that the model reads as the statement says. -/
def Cp15Reads (s : State) (e : ReadableRegister) : Prop :=
  ∃ read, (∀ cond rd, exec (e.instr cond rd) s = cp15Read cond rd read s) ∧ ReadsAs e read s

section
variable {s : State} {e : ReadableRegister}

theorem cp15Reads_plain (f : State → Word) (he : ∀ cond rd, exec (e.instr cond rd) s = cp15Read cond rd (plainRead f) s)
    (after : e.after s = s) (value : f s = e.value s) : Cp15Reads s e := ⟨_, he, readsAs_plain after f value⟩

theorem cp15Reads_reserved (m : Word) (f : State → Word)
    (he : ∀ cond rd, exec (e.instr cond rd) s = cp15Read cond rd (reservedRead m f) s) (after : e.after s = s)
    (apart : m &&& e.defined = 0) (value : f s = e.value s) : Cp15Reads s e :=
  ⟨_, he, readsAs_reserved after m f apart value⟩

end

/-- Every readable register of CP15 is read by `cp15Read`, from a read that gives its defined bits. -/
theorem cp15Readable_reads (s : State) : ∀ e ∈ cp15Readable, Cp15Reads s e := by
  unfold cp15Readable
  simp only [List.forall_mem_cons, List.not_mem_nil, false_implies, implies_true, and_true]
  exact ⟨cp15Reads_plain _ (fun _ _ => rfl) rfl rfl, cp15Reads_plain _ (fun _ _ => rfl) rfl rfl,
    cp15Reads_reserved _ _ (fun _ _ => rfl) rfl rfl rfl, cp15Reads_reserved _ _ (fun _ _ => rfl) rfl rfl rfl,
    cp15Reads_reserved _ _ (fun _ _ => rfl) rfl rfl rfl, cp15Reads_reserved _ _ (fun _ _ => rfl) rfl rfl rfl,
    cp15Reads_plain _ (fun _ _ => rfl) rfl rfl, cp15Reads_reserved _ _ (fun _ _ => rfl) rfl rfl rfl,
    cp15Reads_plain _ (fun _ _ => rfl) rfl rfl, cp15Reads_plain _ (fun _ _ => rfl) rfl rfl,
    cp15Reads_plain _ (fun _ _ => rfl) rfl rfl, cp15Reads_plain _ (fun _ _ => rfl) rfl rfl,
    cp15Reads_plain _ (fun _ _ => rfl) rfl rfl, cp15Reads_plain _ (fun _ _ => rfl) rfl rfl,
    cp15Reads_reserved _ _ (fun _ _ => rfl) rfl rfl rfl, cp15Reads_reserved _ _ (fun _ _ => rfl) rfl rfl rfl,
    cp15Reads_reserved _ _ (fun _ _ => rfl) rfl rfl rfl, cp15Reads_reserved _ _ (fun _ _ => rfl) rfl rfl rfl⟩

/-- The L2 Cache Type register: with no L2 the way size is open, and stands twice. -/
def l2CacheTypeIn (s : State) : ReadableRegister :=
  { instr := .mrcL2CacheType, defined := if s.cfg.l2Size = .absent then 0xFF0FF0FF else 0xFFFFFFFF
    value := fun s => match s.cfg.l2Size with
      | .absent => 0x0A000000 | .kb256 => 0x0A240240 | .kb512 => 0x0A340340 }

/-- The value with no L2, whatever the way size. -/
theorem absent_l2CacheType : ∀ x : BitVec 4,
    (0x0A000000 ||| (x.setWidth 32 <<< 20) ||| (x.setWidth 32 <<< 8) : Word) &&& 0xFF0FF0FF = 0x0A000000 &&& 0xFF0FF0FF ∧
      (0x0A000000 ||| (x.setWidth 32 <<< 20) ||| (x.setWidth 32 <<< 8) : Word).extractLsb' 8 4 =
        (0x0A000000 ||| (x.setWidth 32 <<< 20) ||| (x.setWidth 32 <<< 8) : Word).extractLsb' 20 4 := by decide

theorem l2CacheType_reads (s : State) : ReadsAs (l2CacheTypeIn s) l2CacheTypeRead s ∧
    (l2CacheTypeRead s).1.extractLsb' 8 4 = (l2CacheTypeRead s).1.extractLsb' 20 4 := by
  unfold l2CacheTypeRead l2CacheType
  cases size : s.cfg.l2Size with
  | absent =>
    obtain ⟨defined, twice⟩ := absent_l2CacheType (s.freeBits 4)
    refine ⟨⟨?_, ⟨s.free + 1, ?_⟩, rfl, rfl⟩, ?_⟩ <;> simp only [l2CacheTypeIn, size, if_pos]
    · exact defined
    · rfl
    · exact twice
  | kb256 | kb512 =>
    refine ⟨⟨?_, ⟨s.free, ?_⟩, rfl, rfl⟩, ?_⟩
    · simp only [l2CacheTypeIn, size]
    · simp only [l2CacheTypeIn, size]
    · dsimp only
      decide

theorem exec_cp15Read_passed {i : Instr} {cond : Cond} {rd : Reg} {read : CpRead} {s : State} (hc : condPassed cond s = true)
    (priv : s.privileged = true) (hd : rd ≠ 15) (h : exec i s = cp15Read cond rd read s) :
    exec i s = .next ((read s).2.setReg rd (read s).1).advance :=
  h.trans ((whenCond_passed hc _).trans ((needPrivilege_of priv _).trans (destOk _ hd)))

/-- Settles O46: each register by its read. -/
theorem controlCoprocessorReads : Obligations.ControlCoprocessorReads := by
  unfold Obligations.ControlCoprocessorReads
  intro cond rd s hc priv hd
  have l2Runs : exec (.mrcL2CacheType cond rd) s = .next ((l2CacheTypeRead s).2.setReg rd (l2CacheTypeRead s).1).advance :=
    exec_cp15Read_passed hc priv hd rfl
  obtain ⟨l2Reads, twice⟩ := l2CacheType_reads s
  refine ⟨fun e he => ?_, reads_of_setReg l2Reads l2Runs, _, l2Runs, ?_⟩
  · obtain ⟨read, runs, reads⟩ := cp15Readable_reads s e he
    exact reads_of_setReg reads (exec_cp15Read_passed hc priv hd (runs cond rd))
  · rw [← l2Reads.mode_after]
    exact (congrArg (·.extractLsb' 8 4) (regIn_setReg_self ..)).trans
      (twice.trans (congrArg (·.extractLsb' 20 4) (regIn_setReg_self ..)).symm)

end Sys2Proof.Registers

/-!
PROOF. Reading the registers of CP14 and CP7, into a register or into the flags (`44_cp14_cp7` R850, R860, `10_state` R45).
-/
namespace Sys2Proof.Registers
open Sys2Proof Sys2Proof.Machine Sys2Proof.Spec Sys2Proof.ArmBase Sys2Proof.Exceptions Sys2Proof.Singles Sys2Proof.Misaligned

/-- A register of CP14 or CP7 that the model reads as the statement says, where a read is defined. -/
def Cp14Reads (s : State) (e : ReadableRegister) : Prop :=
  ∃ read, (∀ cond rd, exec (e.instr cond rd) s = cp14Read cond rd read s) ∧ (e.ok s = true → ReadsAs e read s)

section
variable {s : State} {e : ReadableRegister}

theorem cp14Reads_plain (f : State → Word) (he : ∀ cond rd, exec (e.instr cond rd) s = cp14Read cond rd (plainRead f) s)
    (after : e.after s = s) (value : f s = e.value s) : Cp14Reads s e := ⟨_, he, fun _ => readsAs_plain after f value⟩

theorem cp14Reads_reserved (m : Word) (f : State → Word)
    (he : ∀ cond rd, exec (e.instr cond rd) s = cp14Read cond rd (reservedRead m f) s) (after : e.after s = s)
    (apart : m &&& e.defined = 0) (value : f s = e.value s) : Cp14Reads s e :=
  ⟨_, he, fun _ => readsAs_reserved after m f apart value⟩

end

/-! The registers whose read has a condition -/

section
variable (s : State)

theorem readsAs_rx (full : s.dbg.rr = true) : ReadsAs rxIn rxRead s := by
  have reads : rxRead s = (s.dbg.rx, s.setDbg fun d => { d with rr := false }) := if_pos full
  exact ⟨by rw [reads]; rfl, ⟨s.free, by rw [reads]; rfl⟩, rfl, rfl⟩

theorem readsAs_rxEmpty (empty : s.dbg.rr = false) : ReadsAs rxEmptyIn rxRead s := by
  have reads : rxRead s = (s.freeBits 32, s.drawn) := if_neg (by rw [empty]; exact Bool.false_ne_true)
  exact ⟨(BitVec.and_zero).trans BitVec.and_zero.symm, ⟨s.free + 1, by rw [reads]; rfl⟩, rfl, rfl⟩

/-- The bits above the entry read are open. -/
theorem entry_of_append (x : BitVec 24) (b : BitVec 8) : (x ++ b : Word) &&& 0xFF = b.setWidth 32 &&& 0xFF := by
  apply BitVec.eq_of_getLsbD_eq
  intro i _
  rw [BitVec.getLsbD_and, BitVec.getLsbD_and, BitVec.getLsbD_append, BitVec.getLsbD_setWidth]
  by_cases h : i < 8
  · rw [if_pos h]
    simp [show i < 32 by omega]
  · have clear : (0xFF : Word).getLsbD i = false := BitVec.getLsbD_of_ge (0xFF : BitVec 8) i (by omega) ▸ rfl
    rw [clear, Bool.and_false, Bool.and_false]

theorem readsAs_tbreg (quiet : s.tracing = false) : ReadsAs tbregIn tbregRead s := by
  have reads : tbregRead s = (s.freeBits 24 ++ (tableGet s.dbg.tbPtr.toNat s.dbg.tb).getD 0,
      s.drawn.setDbg fun d => { d with
        tb := tableErase d.tbPtr.toNat d.tb, tbPtr := d.tbPtr + 1, tbMarks := d.tbMarks.filter (· != d.tbPtr) }) :=
    if_neg (by rw [quiet]; exact Bool.false_ne_true)
  exact ⟨by rw [reads]; exact entry_of_append _ _, ⟨s.free + 1, by rw [reads]; rfl⟩, rfl, rfl⟩

theorem readsAs_chkpt {e : ReadableRegister} (f : Debug → Word) (quiet : s.tracing = false) (after : e.after s = s)
    (value : f s.dbg = e.value s) : ReadsAs e (readChkpt f) s := by
  have reads : readChkpt f s = plainRead (fun s => f s.dbg) s := if_neg (by rw [quiet]; exact Bool.false_ne_true)
  have plain := readsAs_plain after (fun s => f s.dbg) value
  exact ⟨by rw [reads]; exact plain.value, by rw [reads]; exact plain.after, plain.cpsr, plain.pc⟩

end

/-- Every readable register of CP14 and CP7 is read by `cp14Read`. -/
theorem cp14Readable_reads (s : State) : ∀ e ∈ cp14Readable, Cp14Reads s e := by
  have idle {b : Bool} (h : (!b) = true) : b = false := by rwa [Bool.not_eq_true'] at h
  unfold cp14Readable
  simp only [List.forall_mem_cons, List.not_mem_nil, false_implies, implies_true, and_true]
  exact ⟨cp14Reads_reserved _ _ (fun _ _ => rfl) rfl rfl rfl, cp14Reads_plain _ (fun _ _ => rfl) rfl rfl,
    cp14Reads_reserved _ _ (fun _ _ => rfl) rfl rfl rfl, cp14Reads_reserved _ _ (fun _ _ => rfl) rfl rfl rfl,
    cp14Reads_plain _ (fun _ _ => rfl) rfl rfl, cp14Reads_plain _ (fun _ _ => rfl) rfl rfl,
    cp14Reads_plain _ (fun _ _ => rfl) rfl rfl, cp14Reads_plain _ (fun _ _ => rfl) rfl rfl,
    cp14Reads_plain _ (fun _ _ => rfl) rfl rfl, cp14Reads_reserved _ _ (fun _ _ => rfl) rfl rfl rfl,
    cp14Reads_reserved _ _ (fun _ _ => rfl) rfl rfl rfl, ⟨_, fun _ _ => rfl, readsAs_rx s⟩,
    ⟨_, fun _ _ => rfl, fun h => readsAs_rxEmpty s (idle h)⟩, cp14Reads_reserved _ _ (fun _ _ => rfl) rfl rfl rfl,
    ⟨_, fun _ _ => rfl, fun h => readsAs_tbreg s (idle h)⟩, ⟨_, fun _ _ => rfl, fun h => readsAs_chkpt s _ (idle h) rfl rfl⟩,
    ⟨_, fun _ _ => rfl, fun h => readsAs_chkpt s _ (idle h) rfl rfl⟩, cp14Reads_reserved _ _ (fun _ _ => rfl) rfl rfl rfl,
    cp14Reads_reserved _ _ (fun _ _ => rfl) rfl rfl rfl, cp14Reads_plain _ (fun _ _ => rfl) rfl rfl,
    cp14Reads_reserved _ _ (fun _ _ => rfl) rfl rfl rfl⟩

/-! Reading into the flags -/

theorem flagsFrom_top (s : State) (v : Word) : (s.flagsFrom v).cpsr.extractLsb' 28 4 = v.extractLsb' 28 4 := by
  apply BitVec.eq_of_getLsbD_eq
  intro i hi
  rw [BitVec.getLsbD_extractLsb', BitVec.getLsbD_extractLsb', State.flagsFrom, State.setFlags_cpsr]
  simp only [BitVec.getLsbD_append]
  interval_cases i <;> simp

/-- The defined bits of a value, in its top four bits. -/
theorem top_of_defined {x y d : Word} (h : x &&& d = y &&& d) :
    x.extractLsb' 28 4 &&& d.extractLsb' 28 4 = y.extractLsb' 28 4 &&& d.extractLsb' 28 4 := by
  rw [← BitVec.extractLsb'_and, ← BitVec.extractLsb'_and, h]

/-- Settles O48: each register by its read. -/
theorem debugCoprocessorReads : Obligations.DebugCoprocessorReads := by
  unfold Obligations.DebugCoprocessorReads
  intro cond rd s hc priv e he ok
  obtain ⟨read, runs, reads⟩ := cp14Readable_reads s e he
  have reads := reads ok
  have passed (rd : Reg) : exec (e.instr cond rd) s =
      .next (if rd = 15 then (read s).2.flagsFrom (read s).1 else (read s).2.setReg rd (read s).1).advance :=
    (runs cond rd).trans ((whenCond_passed hc _).trans (needPrivilege_of priv _))
  refine ⟨fun hd => ?_, _, passed 15, ?_, ?_, ?_, ?_⟩
  · have below := passed rd
    rw [if_neg hd] at below
    exact reads_of_setReg reads below
  · rw [if_pos rfl]
    exact (setFlags_low ..).trans (congrArg (·.extractLsb' 0 28) reads.cpsr_after)
  · rw [if_pos rfl]
    exact (congrArg (· &&& _) (flagsFrom_top (read s).2 (read s).1)).trans (top_of_defined reads.value)
  · rw [if_pos rfl]
    exact (setFlags_nextPc ..).trans reads.nextPc_after
  · rw [if_pos rfl]
    exact frame_advance (frame_setFlags (reads.frame _) ..)

end Sys2Proof.Registers

/-!
PROOF. Writing the registers of CP15 (`43_cp15_functions` R770, `10_state` R71 to R103).
-/
namespace Sys2Proof.Registers
open Sys2Proof Sys2Proof.Machine Sys2Proof.Spec Sys2Proof.ArmBase Sys2Proof.Exceptions Sys2Proof.Singles Sys2Proof.Misaligned

/-! What a write of the model does -/

/-- A write of the model in `s`, against a writable register. -/
structure WritesAs (e : WritableRegister) (w : CpWrite) (s : State) (v : Word) : Prop where
  takes : e.takes s v = true → w s v = .ok (e.write s v)
  refuses : v &&& e.reserved ≠ 0 → w s v = .error .reservedBits

theorem takes_iff {e : WritableRegister} {s : State} {v : Word} :
    e.takes s v = true ↔ v &&& e.reserved = 0 ∧ e.ok s v = true := by
  rw [WritableRegister.takes, Bool.and_eq_true, beq_iff_eq]

theorem reservedWrite_refuses {m v : Word} (w : CpWrite) (s : State) (h : v &&& m ≠ 0) :
    reservedWrite m w s v = .error .reservedBits := if_neg h

section
variable {e : WritableRegister} {w : CpWrite} {s : State} {v : Word}

/-- A register whose write checks its reserved bits first. -/
theorem writesAs_reserved {m : Word} (hm : e.reserved = m) (h : v &&& m = 0 → e.ok s v = true → w s v = .ok (e.write s v)) :
    WritesAs e (reservedWrite m w) s v where
  takes := fun taken => by
    obtain ⟨clear, ok⟩ := takes_iff.mp taken
    rw [hm] at clear
    rw [reservedWrite_clear w s clear]
    exact h clear ok
  refuses := fun set => reservedWrite_refuses w s (by rwa [hm] at set)

/-- A register without reserved bits. -/
theorem writesAs_open (hm : e.reserved = 0) (h : e.ok s v = true → w s v = .ok (e.write s v)) : WritesAs e w s v where
  takes := fun taken => h (takes_iff.mp taken).2
  refuses := fun set => absurd (by rw [hm]; exact BitVec.and_zero) set

/-- A debug register: in Halt Mode, outside Special Debug State, the write is ignored. -/
theorem writesAs_haltGate (hm : e.reserved = 0) (locked : debugLocked s = true → e.write s v = s)
    (h : debugLocked s = false → e.ok s v = true → w s v = .ok (e.write s v)) : WritesAs e (haltGate w) s v :=
  writesAs_open hm fun ok => by
    cases gate : debugLocked s with
    | true => exact (if_pos gate).trans (by rw [locked gate])
    | false => exact (if_neg (ne_true_of_eq_false gate)).trans (h gate ok)

end

/-! The instructions -/

/-- A register that the instructions `run` write as the statement says. -/
def WritesBy (run : Cond → Reg → CpWrite → State → Host.Outcome State Fault Refusal) (s : State) (e : WritableRegister) : Prop :=
  ∃ w, (∀ cond rd, exec (e.instr cond rd) s = run cond rd w s) ∧ Keeping.QuietWrite w ∧ ∀ v, WritesAs e w s v

/-- A write that completes changes neither the state bit nor the pc. -/
theorem nextPc_of_quietWrite {w : CpWrite} (hw : Keeping.QuietWrite w) {s u : State} {v : Word} (h : w s v = .ok u) :
    u.nextPc = s.nextPc := by
  have quiet := hw s v u h
  rw [State.nextPc, State.nextPc, quiet.thumb, quiet.pc]

theorem finishWrite_effect {w : CpWrite} (hw : Keeping.QuietWrite w) {s u : State} {v : Word} (h : w s v = .ok u) :
    finishWrite (w s v) = .next { u with pc := s.nextPc } := by
  rw [← nextPc_of_quietWrite hw h, h]
  rfl

theorem reg_below {s : State} {rd : Reg} (h : rd ≠ 15) : s.reg rd = s.regIn s.mode rd := if_neg h

theorem exec_cpWrite_passed {i : Instr} {cond : Cond} {rd : Reg} {w : CpWrite} {s : State} (hc : condPassed cond s = true)
    (priv : s.privileged = true) (hd : rd ≠ 15) (h : exec i s = cpWrite cond rd w s) :
    exec i s = finishWrite (w s (s.regIn s.mode rd)) := by
  rw [← reg_below hd]
  exact h.trans ((whenCond_passed hc _).trans ((needPrivilege_of priv _).trans (destOk _ hd)))

theorem exec_cpWrite_pc {i : Instr} {cond : Cond} {w : CpWrite} {s : State} (hc : condPassed cond s = true)
    (priv : s.privileged = true) (h : exec i s = cpWrite cond 15 w s) : exec i s = .refused .pcOperand :=
  h.trans ((whenCond_passed hc _).trans (needPrivilege_of priv _))

/-! The values -/

section
variable {e : WritableRegister} {s : State}

theorem writesBy_plain {f : State → Word → State} (he : ∀ cond rd, exec (e.instr cond rd) s = cpWrite cond rd (plainWrite f) s)
    (hw : Keeping.QuietWrite (plainWrite f)) (hm : e.reserved = 0) (h : ∀ v, f s v = e.write s v) : WritesBy cpWrite s e :=
  ⟨_, he, hw, fun v => writesAs_open hm fun _ => congrArg Except.ok (h v)⟩

theorem writesBy_reserved {m : Word} {f : State → Word → State}
    (he : ∀ cond rd, exec (e.instr cond rd) s = cpWrite cond rd (reservedWrite m (plainWrite f)) s)
    (hw : Keeping.QuietWrite (reservedWrite m (plainWrite f))) (hm : e.reserved = m) (h : ∀ v, f s v = e.write s v) :
    WritesBy cpWrite s e :=
  ⟨_, he, hw, fun v => writesAs_reserved hm fun _ _ => congrArg Except.ok (h v)⟩

end

/-- The registers of CP15 that take every value. -/
theorem cp15Writable_writes (s : State) : ∀ e ∈ cp15Writable, WritesBy cpWrite s e := by
  unfold cp15Writable
  simp only [List.forall_mem_cons, List.not_mem_nil, false_implies, implies_true, and_true]
  exact ⟨writesBy_plain (fun _ _ => rfl) Keeping.quietWrite_ignore rfl fun _ => rfl,
    writesBy_plain (fun _ _ => rfl) Keeping.quietWrite_ignore rfl fun _ => rfl,
    writesBy_plain (fun _ _ => rfl) Keeping.quietWrite_ignore rfl fun _ => rfl,
    writesBy_plain (fun _ _ => rfl) Keeping.quietWrite_ignore rfl fun _ => rfl,
    writesBy_plain (fun _ _ => rfl) Keeping.quietWrite_dacr rfl fun _ => rfl,
    writesBy_reserved (fun _ _ => rfl) Keeping.quietWrite_fsr rfl fun _ => rfl,
    writesBy_plain (fun _ _ => rfl) Keeping.quietWrite_far rfl fun _ => rfl,
    writesBy_plain (fun _ _ => rfl) Keeping.quietWrite_processId rfl fun _ => rfl,
    writesBy_reserved (fun _ _ => rfl) Keeping.quietWrite_cpar rfl fun _ => rfl,
    writesBy_reserved (fun _ _ => rfl) Keeping.quietWrite_dLock rfl fun _ => rfl,
    writesBy_reserved (fun _ _ => rfl) Keeping.quietWrite_dLock rfl fun _ => rfl⟩

/-! Control, Auxiliary Control and TTBASE -/

theorem guarded_guarded (a b : Bool) (r : Refusal) (x : Except Refusal State) :
    guarded a r (guarded b r x) = guarded (a && b) r x := by
  cases a with
  | true => rfl
  | false => rfl

/-- With no reserved bit set, the write is the one of the statement where the value is defined, and refused elsewhere. -/
def Guards (s : State) (e : WritableRegister) (w : CpWrite) : Prop :=
  (∀ v, v &&& e.reserved = 0 → w s v = guarded (e.ok s v) .controlValue (.ok (e.write s v))) ∧
    ∀ v, v &&& e.reserved ≠ 0 → w s v = .error .reservedBits

/-- The byte order: no data is held, and to big-endian no byte was accessed. -/
theorem byteOrderOk_eq (s : State) (big : Bool) : s.byteOrderOk big =
    ((if big then s.cfg.big else s.cfg.little) && (big == s.bigEndian || (noDataHeld s && (s.bigEndian || !s.subWord)))) := by
  have held : (!s.dataHeld) = noDataHeld s := by
    unfold State.dataHeld noDataHeld
    simp only [Bool.not_or, Bool.not_not]
  rw [State.byteOrderOk, held]
  congr 1
  cases big <;> cases s.bigEndian <;> cases s.subWord <;> simp

theorem drainIf_bne {α : Type} [BEq α] [LawfulBEq α] [DecidableEq α] (s : State) (x y : α) :
    s.drainIf (x != y) = if x = y then s else s.drainBuffers := by
  unfold State.drainIf
  by_cases h : x = y
  · rw [if_pos h, bne_eq_false_iff_eq.mpr h]
    rfl
  · rw [if_neg h, bne_iff_ne.mpr h]
    rfl

/-- The three registers that control the machine, each with its write. -/
theorem controlWritable_guards (s : State) : ∀ e ∈ controlWritable,
    ∃ w, (∀ cond rd, exec (e.instr cond rd) s = cpWrite cond rd w s) ∧ Keeping.QuietWrite w ∧ Guards s e w := by
  unfold controlWritable
  simp only [List.forall_mem_cons, List.not_mem_nil, false_implies, implies_true, and_true]
  refine ⟨⟨_, fun _ _ => rfl, Keeping.quietWrite_control, fun v clear => ?control, fun v set => if_neg set⟩,
    ⟨_, fun _ _ => rfl, Keeping.quietWrite_auxControl, fun v clear => ?aux, fun v set => if_neg set⟩,
    ⟨_, fun _ _ => rfl, Keeping.quietWrite_ttBase, fun v clear => if_pos clear, fun v set => if_neg set⟩⟩
  case control =>
    rw [controlWrite, writeControl, reservedWrite_clear _ s clear]
    simp only [guarded_guarded, drainIf_bne]
    congr 1
    rw [byteOrderOk_eq]
    simp only [Bool.not_and, Bool.not_not, Bool.and_assoc, Bool.or_assoc]
  case aux =>
    rw [auxControlWrite, writeAuxControl, reservedWrite_clear _ s clear]
    simp only [guarded_guarded, drainIf_bne]
    congr 1
    rw [State.dataCached, Bool.not_or, Bool.not_not, Bool.not_not]

theorem controlWritable_writes (s : State) : ∀ e ∈ controlWritable, WritesBy cpWrite s e := by
  intro e he
  obtain ⟨w, runs, quiet, guards, refuses⟩ := controlWritable_guards s e he
  refine ⟨w, runs, quiet, fun v => ⟨fun taken => ?_, refuses v⟩⟩
  obtain ⟨clear, ok⟩ := takes_iff.mp taken
  rw [guards v clear, ok]
  rfl

theorem all_cp15_writes (s : State) : ∀ e ∈ cp15Writable ++ controlWritable, WritesBy cpWrite s e := fun e he =>
  (List.mem_append.mp he).elim (cp15Writable_writes s e) (controlWritable_writes s e)

/-- Settles O47: each register by its write. -/
theorem controlCoprocessorWrites : Obligations.ControlCoprocessorWrites := by
  unfold Obligations.ControlCoprocessorWrites
  intro cond rd s hc priv hd v
  refine ⟨fun e he taken => ?takes, fun e he set => ?reserved, fun e he clear bad => ?value⟩
  case takes =>
    obtain ⟨w, runs, quiet, writes⟩ := all_cp15_writes s e he
    exact (exec_cpWrite_passed hc priv hd (runs cond rd)).trans (finishWrite_effect quiet ((writes v).takes taken))
  case reserved =>
    obtain ⟨w, runs, -, writes⟩ := all_cp15_writes s e he
    rw [exec_cpWrite_passed hc priv hd (runs cond rd), (writes v).refuses set]
    rfl
  case value =>
    obtain ⟨w, runs, -, guards, -⟩ := controlWritable_guards s e he
    rw [exec_cpWrite_passed hc priv hd (runs cond rd), guards v clear, bad]
    rfl

end Sys2Proof.Registers

/-!
PROOF. Writing the registers of CP14 and CP7 and the breakpoint registers of CP15 (`44_cp14_cp7` R850, R860, `10_state` R100 to
R142).
-/
namespace Sys2Proof.Registers
open Sys2Proof Sys2Proof.Machine Sys2Proof.Spec Sys2Proof.ArmBase Sys2Proof.Exceptions Sys2Proof.Singles Sys2Proof.Misaligned

/-! CP14 -/

theorem not_eq_true_eq {b : Bool} (h : (!b) = true) : b = false := by rwa [Bool.not_eq_true'] at h

section
variable {s : State} {v : Word}

theorem writeCcnt_disabled (off : s.pmu.e = false) :
    writeCcnt s v = .ok { s with pmu := { s.pmu with ccnt := v } } :=
  congrArg Except.ok (if_neg (ne_true_of_eq_false off))

theorem enabled_of_counterOff {k : Fin 4} (off : counterOff s k.val = true) : s.pmu.enabled k = false := by
  unfold counterOff at off
  unfold Pmu.enabled Pmu.counting Pmu.event
  rw [Bool.or_eq_true, Bool.or_eq_true, beq_iff_eq] at off
  obtain (off | off) | off := off
  · rw [not_eq_true_eq off]; rfl
  · rw [off, Bool.not_true, Bool.and_false]; rfl
  · rw [off]; exact Bool.and_false _

theorem writePmn_disabled {k : Fin 4} (off : counterOff s k.val = true) :
    writePmn k s v = .ok { s with pmu := { s.pmu with pmn := s.pmu.pmn.set k.val v k.isLt } } :=
  congrArg Except.ok (if_neg (ne_true_of_eq_false (enabled_of_counterOff off)))

theorem writeChkpt_idle {f : Word → Debug → Debug} (idle : s.tracing = false) :
    writeChkpt f s v = .ok (s.setDbg (f v)) := congrArg Except.ok (if_neg (ne_true_of_eq_false idle))

/-- DCSR: no trace is taken, so that enabling the trace buffer is all that starts one. -/
theorem dcsr_writesAs (s : State) (v : Word) : WritesAs dcsrOut dcsrWrite s v := by
  refine writesAs_haltGate rfl (fun locked => if_pos locked) fun unlocked ok => ?_
  simp only [dcsrOut, Bool.and_eq_true] at ok
  obtain ⟨idle, clear⟩ := ok
  have idle := not_eq_true_eq idle
  rw [unlocked, Bool.false_or, beq_iff_eq] at clear
  refine (if_pos clear).trans (congrArg Except.ok ?_)
  refine Eq.trans ?_ (if_neg (ne_true_of_eq_false unlocked)).symm
  have same : (s.setDbg fun d => { d with dcsr := (s.dbg.dcsr &&& ~~~0x8000007F) ||| (v &&& 0x8000007F) }).tracing =
      (((s.dbg.dcsr &&& ~~~0x8000007F) ||| (v &&& 0x8000007F)).getLsbD 31 &&
        ((s.dbg.dcsr &&& ~~~0x8000007F) ||| (v &&& 0x8000007F)).getLsbD 0) := Bool.and_comm _ _
  simp only [dcsrSoftware, idle, Bool.false_and, Bool.false_eq_true, if_false, Bool.not_false, Bool.and_true, same]
  split
  · rfl
  · rfl

end

/-- The writable registers of CP14. -/
theorem cp14Writable_writes (s : State) : ∀ e ∈ cp14Writable, WritesBy cpWrite s e := by
  unfold cp14Writable
  simp only [List.forall_mem_cons, List.not_mem_nil, false_implies, implies_true, and_true]
  exact ⟨⟨_, fun _ _ => rfl, Keeping.quietWrite_ccnt, fun _ => writesAs_open rfl fun ok => writeCcnt_disabled (not_eq_true_eq ok)⟩,
    writesBy_reserved (fun _ _ => rfl) (Keeping.quietWrite_reserved _ (Keeping.quietWrite_plain fun _ _ => Keeping.quiet_setPmu _ _))
      rfl fun _ => rfl,
    writesBy_reserved (fun _ _ => rfl) (Keeping.quietWrite_reserved _ (Keeping.quietWrite_plain fun _ _ => Keeping.quiet_setPmu _ _))
      rfl fun _ => rfl,
    ⟨_, fun _ _ => rfl, Keeping.quietWrite_pmn 0, fun _ => writesAs_open rfl (writePmn_disabled (k := 0))⟩,
    ⟨_, fun _ _ => rfl, Keeping.quietWrite_pmn 1, fun _ => writesAs_open rfl (writePmn_disabled (k := 1))⟩,
    ⟨_, fun _ _ => rfl, Keeping.quietWrite_pmn 2, fun _ => writesAs_open rfl (writePmn_disabled (k := 2))⟩,
    ⟨_, fun _ _ => rfl, Keeping.quietWrite_pmn 3, fun _ => writesAs_open rfl (writePmn_disabled (k := 3))⟩,
    writesBy_reserved (fun _ _ => rfl) Keeping.quietWrite_cclkcfg rfl fun _ => rfl,
    ⟨_, fun _ _ => rfl, Keeping.quietWrite_pwrmode, fun _ => writesAs_reserved rfl fun _ ok => if_pos ok⟩,
    writesBy_plain (fun _ _ => rfl) Keeping.quietWrite_tx rfl fun _ => rfl,
    ⟨_, fun _ _ => rfl, Keeping.quietWrite_chkpt fun _ _ => rfl, fun _ => writesAs_open rfl fun ok => writeChkpt_idle (not_eq_true_eq ok)⟩,
    ⟨_, fun _ _ => rfl, Keeping.quietWrite_chkpt fun _ _ => rfl, fun _ => writesAs_open rfl fun ok => writeChkpt_idle (not_eq_true_eq ok)⟩,
    writesBy_reserved (fun _ _ => rfl) Keeping.quietWrite_txrxctrl rfl fun _ => rfl⟩

/-! CP7 -/

/-- The registers of CP7. -/
theorem cp7Writable_writes (s : State) : ∀ e ∈ cp7Writable, WritesBy cp7Write s e := by
  unfold cp7Writable
  simp only [List.forall_mem_cons, List.not_mem_nil, false_implies, implies_true, and_true]
  exact ⟨⟨_, fun _ _ => rfl, Keeping.quietWrite_reserved _ (Keeping.quietWrite_plain fun _ _ => ⟨id, rfl, rfl, rfl, id⟩),
      fun _ => writesAs_reserved rfl fun _ _ => rfl⟩,
    ⟨_, fun _ _ => rfl, Keeping.quietWrite_plain fun _ _ => ⟨id, rfl, rfl, rfl, id⟩, fun _ => writesAs_open rfl fun _ => rfl⟩,
    ⟨_, fun _ _ => rfl, Keeping.quietWrite_reserved _ (Keeping.quietWrite_plain fun _ _ => ⟨id, rfl, rfl, rfl, id⟩),
      fun _ => writesAs_reserved rfl fun _ _ => rfl⟩⟩

theorem exec_cp7Write_passed {i : Instr} {cond : Cond} {rd : Reg} {w : CpWrite} {s : State} (hc : condPassed cond s = true)
    (priv : s.privileged = true) (h : exec i s = cp7Write cond rd w s) : exec i s = finishWrite (w s (s.reg rd)) :=
  h.trans ((whenCond_passed hc _).trans (needPrivilege_of priv _))

/-! The debug registers -/

theorem unlocked_ok {s : State} {c : Bool} (unlocked : debugLocked s = false) (ok : (debugLocked s || c) = true) : c = true := by
  rwa [unlocked, Bool.false_or] at ok

/-- The breakpoint registers of CP15, and DCSR. -/
theorem debugWritable_writes (s : State) : ∀ e ∈ debugWritable, WritesBy cpWrite s e := by
  unfold debugWritable
  simp only [List.forall_mem_cons, List.not_mem_nil, false_implies, implies_true, and_true]
  have guards {c : Bool} {x y : Except Refusal State} (unlocked : debugLocked s = false) (ok : (debugLocked s || c) = true)
      (h : x = y) : guarded c .controlValue x = y := (if_pos (unlocked_ok unlocked ok)).trans h
  exact ⟨⟨_, fun _ _ => rfl, Keeping.quietWrite_ibr0, fun v => writesAs_haltGate rfl (fun locked => if_pos locked) fun unlocked ok =>
      guards unlocked ((Bool.or_assoc _ _ _).symm.trans ok) (congrArg Except.ok (if_neg (ne_true_of_eq_false unlocked)).symm)⟩,
    ⟨_, fun _ _ => rfl, Keeping.quietWrite_ibr1, fun v => writesAs_haltGate rfl (fun locked => if_pos locked) fun unlocked ok =>
      guards unlocked ((Bool.or_assoc _ _ _).symm.trans ok) (congrArg Except.ok (if_neg (ne_true_of_eq_false unlocked)).symm)⟩,
    ⟨_, fun _ _ => rfl, Keeping.quietWrite_dbr0, fun v => writesAs_haltGate rfl (fun locked => if_pos locked) fun unlocked ok =>
      guards unlocked ok (congrArg Except.ok (if_neg (ne_true_of_eq_false unlocked)).symm)⟩,
    ⟨_, fun _ _ => rfl, Keeping.quietWrite_dbr1, fun v => writesAs_haltGate rfl (fun locked => if_pos locked) fun unlocked ok =>
      guards unlocked ok (congrArg Except.ok (if_neg (ne_true_of_eq_false unlocked)).symm)⟩,
    ⟨_, fun _ _ => rfl, Keeping.quietWrite_dbcon, fun v => writesAs_haltGate rfl (fun locked => if_pos locked) fun unlocked ok =>
      (if_pos (beq_iff_eq.mp (unlocked_ok unlocked ok))).trans
        (congrArg Except.ok (if_neg (ne_true_of_eq_false unlocked)).symm)⟩,
    ⟨_, fun _ _ => rfl, Keeping.quietWrite_dcsr, dcsr_writesAs s⟩⟩

/-- Settles O49: each register by its write; R15 is refused but for CP7. -/
theorem debugCoprocessorWrites : Obligations.DebugCoprocessorWrites := by
  unfold Obligations.DebugCoprocessorWrites
  intro cond rd s hc priv
  have accepts14 {e : WritableRegister} {rd : Reg} (he : WritesBy cpWrite s e) (hd : rd ≠ 15)
      (taken : e.takes s (s.regIn s.mode rd) = true) : Accepts e cond rd s := by
    obtain ⟨w, runs, quiet, writes⟩ := he
    exact (exec_cpWrite_passed hc priv hd (runs cond rd)).trans (finishWrite_effect quiet ((writes _).takes taken))
  have accepts7 {e : WritableRegister} {rd : Reg} (he : WritesBy cp7Write s e) (taken : e.takes s (s.reg rd) = true) :
      Effect (e.instr cond rd) s (e.write s (s.reg rd)) := by
    obtain ⟨w, runs, quiet, writes⟩ := he
    exact (exec_cp7Write_passed hc priv (runs cond rd)).trans (finishWrite_effect quiet ((writes _).takes taken))
  have refuses7 {e : WritableRegister} {rd : Reg} (he : WritesBy cp7Write s e) (set : s.reg rd &&& e.reserved ≠ 0) :
      exec (e.instr cond rd) s = .refused .reservedBits := by
    obtain ⟨w, runs, -, writes⟩ := he
    rw [exec_cp7Write_passed hc priv (runs cond rd), (writes _).refuses set]
    rfl
  refine ⟨fun hd => ⟨fun e he taken => ?takes, fun e he set => ?reserved,
    fun unlocked => ⟨fun set => ?dbcon, fun set => ?dcsr⟩⟩, fun e he => ?pc, fun arm e he => ?cp7⟩
  case takes =>
    obtain (he | he) | he := (List.mem_append.mp he).imp_left List.mem_append.mp
    · exact accepts14 (cp14Writable_writes s e he) hd taken
    · rw [Accepts, ← reg_below hd]
      rw [← reg_below hd] at taken
      exact accepts7 (cp7Writable_writes s e he) taken
    · exact accepts14 (debugWritable_writes s e he) hd taken
  case reserved =>
    obtain he | he := List.mem_append.mp he
    · obtain ⟨w, runs, -, writes⟩ := cp14Writable_writes s e he
      rw [exec_cpWrite_passed hc priv hd (runs cond rd), (writes _).refuses set]
      rfl
    · exact refuses7 (cp7Writable_writes s e he) (by rw [reg_below hd]; exact set)
  case dbcon =>
    have refused : dbconWrite s (s.regIn s.mode rd) = .error .reservedBits := (if_neg (ne_true_of_eq_false unlocked)).trans (if_neg set)
    rw [exec_cpWrite_passed (w := dbconWrite) hc priv hd rfl, refused]
    rfl
  case dcsr =>
    have refused : dcsrWrite s (s.regIn s.mode rd) = .error .reservedBits := (if_neg (ne_true_of_eq_false unlocked)).trans (if_neg set)
    rw [exec_cpWrite_passed (w := dcsrWrite) hc priv hd rfl, refused]
    rfl
  case pc =>
    obtain ⟨w, runs, -⟩ := (List.mem_append.mp he).elim (cp14Writable_writes s e) (debugWritable_writes s e)
    exact exec_cpWrite_pc hc priv (runs cond 15)
  case cp7 =>
    have pc : s.reg 15 = s.pc + 8 := pcRead_arm arm
    rw [← pc]
    exact ⟨accepts7 (cp7Writable_writes s e he), refuses7 (cp7Writable_writes s e he)⟩

end Sys2Proof.Registers

/-!
PROOF. The counters of CP14, and which accesses to CP15, CP14 and CP7 are undefined or refused (`61_debug_pmu_power` R1001 to
R1003, `43_cp15_functions` R770, `44_cp14_cp7` R850 to R860).
-/
namespace Sys2Proof.Registers
open Sys2Proof Sys2Proof.Machine Sys2Proof.Spec Sys2Proof.ArmBase Sys2Proof.Exceptions Sys2Proof.Singles Sys2Proof.Misaligned

/-! PMNC and EVTSEL -/

/-- What a write of PMNC leaves of the performance counters. -/
def pmncCounters (s : State) (v : Word) : Vector Word 4 :=
  if v.getLsbD 1 && s.pmu.counting && !(v.getLsbD 0 && !v.getLsbD 4) then s.freeCounters.pmu.pmn
  else if v.getLsbD 1 then Vector.replicate 4 0 else s.pmu.pmn

theorem reset_counters (s : State) (v : Word) : ∃ n,
    (if v.getLsbD 1 && s.pmu.counting && !(v.getLsbD 0 && !v.getLsbD 4) then s.freeCounters
      else if v.getLsbD 1 then s.setPmu fun p => { p with pmn := Vector.replicate 4 0 } else s) =
      { s with pmu := { s.pmu with pmn := pmncCounters s v }, free := n } := by
  unfold pmncCounters
  split
  · exact ⟨_, rfl⟩
  · split
    · exact ⟨_, rfl⟩
    · exact ⟨_, rfl⟩

theorem reset_ccnt (s : State) (r : Bool) : (if r then s.setPmu fun p => { p with ccnt := 0 } else s) =
    { s with pmu := { s.pmu with ccnt := if r then 0 else s.pmu.ccnt } } := by
  cases r with
  | true => rfl
  | false => rfl

theorem open_prescaler (s : State) (c : Bool) : ∃ q n,
    (if c then (s.setPmu fun p => { p with presc := s.freeBits 6 }).drawn else s) =
      { s with pmu := { s.pmu with presc := q }, free := n } := by
  cases c with
  | true => exact ⟨_, _, rfl⟩
  | false => exact ⟨s.pmu.presc, s.free, rfl⟩

theorem writePmnc_clear {s : State} {v : Word} (clear : v &&& 0x00FFFFE0 = 0) : ∃ q n, writePmnc s v = .ok { s with
    pmu := { s.pmu with
      e := v.getLsbD 0, d := v.getLsbD 3, m := v.getLsbD 4, presc := q, pmn := pmncCounters s v
      ccnt := if v.getLsbD 2 then 0 else s.pmu.ccnt }
    free := n } := by
  rw [writePmnc, reservedWrite_clear _ s clear]
  unfold plainWrite
  dsimp only
  obtain ⟨n, counters⟩ := reset_counters s v
  rw [counters, reset_ccnt]
  obtain ⟨q, k, prescaler⟩ := open_prescaler { s with
    pmu := { s.pmu with pmn := pmncCounters s v, ccnt := if v.getLsbD 2 then 0 else s.pmu.ccnt }, free := n }
    (v.getLsbD 3 && !s.pmu.d)
  exact ⟨q, k, congrArg (fun u : State => Except.ok (u.setPmu fun p => { p with
    e := v.getLsbD 0, d := v.getLsbD 3, m := v.getLsbD 4 })) prescaler⟩

theorem writeEvtsel_eq (s : State) (v : Word) : ∃ p n, writeEvtsel s v = .ok { s with
    pmu := { s.pmu with evtsel := v, pmn := p }, free := n } ∧ (s.pmu.counting = false → p = s.pmu.pmn) := by
  cases counting : s.pmu.counting with
  | true => exact ⟨s.freeCounters.pmu.pmn, s.free + 4, congrArg Except.ok (congrArg (State.setPmu · _) (if_pos counting)), nofun⟩
  | false => exact ⟨_, _, congrArg Except.ok (congrArg (State.setPmu · _) (if_neg (ne_true_of_eq_false counting))), fun _ => rfl⟩

theorem frame_pmu (s : State) (p : Pmu) (n : Nat) (pc : Word) :
    Frame { s with pmu := p } { s with pmu := p, free := n, pc := pc } [] noBytes :=
  { frame_refl { s with pmu := p } [] noBytes with }

theorem pmncCounters_kept {s : State} {v : Word} (keep : v.getLsbD 1 = false) : pmncCounters s v = s.pmu.pmn := by
  rw [pmncCounters, keep]
  rfl

theorem pmncCounters_reset {s : State} {v : Word} (reset : v.getLsbD 1 = true)
    (idle : (s.pmu.e && !s.pmu.m) = false ∨ (v.getLsbD 0 = true ∧ v.getLsbD 4 = false)) (k : Fin 4) :
    (pmncCounters s v).get k = 0 := by
  have predictable : (v.getLsbD 1 && s.pmu.counting && !(v.getLsbD 0 && !v.getLsbD 4)) = false := by
    obtain h | ⟨h0, h4⟩ := idle
    · rw [Pmu.counting, h, Bool.and_false]; rfl
    · rw [h0, h4]; exact Bool.and_false _
  rw [pmncCounters, predictable, if_neg Bool.false_ne_true, if_pos reset]
  exact Vector.getElem_replicate _

/-- Settles O50: the counters of each case of a write. -/
theorem counterControl : Obligations.CounterControl := by
  unfold Obligations.CounterControl
  intro cond rd s hc priv hd
  have passed {i : Instr} {w : CpWrite} (h : exec i s = cpWrite cond rd w s) := exec_cpWrite_passed hc priv hd h
  refine ⟨fun set => ?reserved, fun clear => ?pmnc, ?evtsel⟩
  case reserved =>
    rw [passed (w := pmncWrite) rfl, pmncWrite, writePmnc, reservedWrite_refuses _ s set]
    rfl
  case pmnc =>
    obtain ⟨q, n, written⟩ := writePmnc_clear (s := s) clear
    have runs := passed (i := .mcrPmnc cond rd) (w := pmncWrite) rfl
    replace runs := runs.trans (congrArg finishWrite written)
    refine ⟨_, runs, rfl, rfl, rfl, rfl, fun keep => ?_, fun reset idle k => ?_, rfl, rfl, rfl, rfl, rfl, frame_pmu ..⟩
    · exact pmncCounters_kept keep
    · exact pmncCounters_reset reset idle k
  case evtsel =>
    obtain ⟨p, n, written, idle⟩ := writeEvtsel_eq s (s.regIn s.mode rd)
    have runs := passed (i := .mcrEvtsel cond rd) (w := evtselWrite) rfl
    replace runs := runs.trans (congrArg finishWrite written)
    exact ⟨_, runs, rfl, idle, rfl, rfl, frame_pmu ..⟩

/-! Privilege -/

/-- An instruction that checks its condition, then that the mode is privileged. -/
def NeedsPrivilege (cond : Cond) (s : State) (i : Instr) : Prop :=
  ∃ body, exec i s = whenCond cond s (needPrivilege s body)

/-- Every one of the forms that User mode may not execute. -/
theorem privilegedForms_needPrivilege (cond : Cond) (rd : Reg) (s : State) :
    ∀ f ∈ privilegedForms, NeedsPrivilege cond s (f cond rd) := by
  have readable15 {e : ReadableRegister} (h : Cp15Reads s e) : NeedsPrivilege cond s (e.instr cond rd) := by
    obtain ⟨read, runs, -⟩ := h
    exact ⟨_, runs cond rd⟩
  have readable14 {e : ReadableRegister} (h : Cp14Reads s e) : NeedsPrivilege cond s (e.instr cond rd) := by
    obtain ⟨read, runs, -⟩ := h
    exact ⟨_, runs cond rd⟩
  have writable {e : WritableRegister} (h : WritesBy cpWrite s e) : NeedsPrivilege cond s (e.instr cond rd) := by
    obtain ⟨w, runs, -⟩ := h
    exact ⟨_, runs cond rd⟩
  have writable7 {e : WritableRegister} (h : WritesBy cp7Write s e) : NeedsPrivilege cond s (e.instr cond rd) := by
    obtain ⟨w, runs, -⟩ := h
    exact ⟨_, runs cond rd⟩
  intro f hf
  simp only [privilegedForms, List.mem_append, List.mem_map] at hf
  obtain ((((((⟨e, he, rfl⟩ | ⟨e, he, rfl⟩) | ⟨e, he, rfl⟩) | ⟨e, he, rfl⟩) | ⟨e, he, rfl⟩) | ⟨e, he, rfl⟩) |
    ⟨e, he, rfl⟩) | hf := hf
  · exact readable15 (cp15Readable_reads s e he)
  · exact writable (cp15Writable_writes s e he)
  · exact writable (controlWritable_writes s e he)
  · exact writable (debugWritable_writes s e he)
  · exact readable14 (cp14Readable_reads s e he)
  · exact writable (cp14Writable_writes s e he)
  · exact writable7 (cp7Writable_writes s e he)
  · revert f
    simp only [List.forall_mem_cons, List.not_mem_nil, false_implies, implies_true, and_true]
    and_intros
    all_goals exact ⟨_, rfl⟩

theorem ldcRegister_none {crd : BitVec 4} (h : ldcTarget crd = none) : ldcRegister crd = none := by
  revert h
  unfold ldcTarget ldcRegister
  split_ifs <;> simp

theorem stcRegister_none {s : State} {crd : BitVec 4} (h : stcSource s crd = none) : stcRegister crd = none := by
  revert h
  unfold stcSource stcRegister
  split_ifs <;> simp

/-- Settles O52: the privilege is checked first, then the form and the register. -/
theorem coprocessorPrivilege : Obligations.CoprocessorPrivilege := by
  unfold Obligations.CoprocessorPrivilege
  intro cond rd p u n w rn crd off o1 o2 crn crm s hc unlisted
  have unlistedForm : ∀ i ∈ unlisted, exec i s = whenCond cond s (needPrivilege s (.refused .coprocessorRegister)) := by
    simp only [unlisted, List.forall_mem_cons, List.not_mem_nil, false_implies, implies_true, and_true]
    exact ⟨rfl, rfl, rfl, rfl, rfl, rfl⟩
  refine ⟨fun user off normal => ?user, fun priv => ?privileged⟩
  case user =>
    have unprivileged : s.privileged = false := bne_eq_false_iff_eq.mpr user
    have undefined {i : Instr} (h : NeedsPrivilege cond s i) : Spec.Undefined i s := by
      obtain ⟨body, runs⟩ := h
      exact undefined_of_raise off normal
        (runs.trans ((whenCond_passed hc _).trans (if_neg (ne_true_of_eq_false unprivileged))))
    exact ⟨fun f hf => undefined (privilegedForms_needPrivilege cond rd s f hf),
      fun i hi => undefined ⟨_, unlistedForm i hi⟩, undefined ⟨_, rfl⟩, undefined ⟨_, rfl⟩⟩
  case privileged =>
    have passed {i : Instr} {body : Host.Outcome State Fault Refusal} (h : exec i s = whenCond cond s (needPrivilege s body)) :
        exec i s = body := h.trans ((whenCond_passed hc _).trans (needPrivilege_of priv _))
    refine ⟨fun i hi => passed (unlistedForm i hi), fun long => ?_, fun short absent => ?_, fun short absent => ?_⟩
    · subst long
      simp only [List.forall_mem_cons, List.not_mem_nil, false_implies, implies_true, and_true]
      exact ⟨passed rfl, passed rfl⟩
    · subst short
      refine (passed (i := .ldcP14 cond p u false w rn crd off) rfl).trans ?_
      rw [ldcRegister_none absent]
      rfl
    · subst short
      refine (passed (i := .stcP14 cond p u false w rn crd off) rfl).trans ?_
      rw [stcRegister_none absent]
      rfl

end Sys2Proof.Registers

/-!
PROOF. LDC and STC of CP14 with plain memory (`44_cp14_cp7` R853 to R855).
-/
namespace Sys2Proof.Registers
open Sys2Proof Sys2Proof.Machine Sys2Proof.Spec Sys2Proof.ArmBase Sys2Proof.Exceptions Sys2Proof.Singles Sys2Proof.Misaligned
  Sys2Proof.Accesses Sys2Proof.Pairs

/-! The address -/

/-- The base plus or minus four times the offset (R853). -/
def am5Sum (s : State) (u : Bool) (rn : Reg) (off : BitVec 8) : Word :=
  if u then s.reg rn + off.setWidth 32 * 4 else s.reg rn - off.setWidth 32 * 4

theorem am5_eq (s : State) (p u w : Bool) (rn : Reg) (off : BitVec 8) : s.am5 p u w rn off =
    { addr := if p then am5Sum s u rn off else s.reg rn, wb := if w then some (am5Sum s u rn off) else none } := by
  have four : off.setWidth 32 <<< 2 = (off.setWidth 32 * 4 : Word) := BitVec.shiftLeft_eq_mul_twoPow _ 2
  rw [State.am5, four]
  cases p <;> rfl

/-! LDC -/

/-- A register that LDC writes, with the write of the model; the note of the access does not matter to it. -/
structure LoadsInto (e : WritableRegister) (w : CpWrite) : Prop where
  quiet : Keeping.QuietWrite w
  writes : ∀ s v, WritesAs e w s v
  note : ∀ (s : State) v n, e.write { s with note := n } v = { e.write s v with note := n }
  takes : ∀ (s : State) v n, e.takes { s with note := n } v = e.takes s v

theorem dcsr_note (s : State) (v : Word) (n : Note) : dcsrOut.write { s with note := n } v = { dcsrOut.write s v with note := n } := by
  have same : debugLocked { s with note := n } = debugLocked s := rfl
  simp only [dcsrOut, same]
  split
  · rfl
  · rfl

theorem ldcTarget_loads {crd : BitVec 4} {e : WritableRegister} (h : ldcTarget crd = some e) :
    ∃ w, ldcRegister crd = some w ∧ LoadsInto e w := by
  unfold ldcTarget at h
  unfold ldcRegister
  split_ifs at h ⊢ <;> cases h
  · exact ⟨_, rfl, Keeping.quietWrite_cclkcfg, fun _ _ => writesAs_reserved rfl fun _ _ => rfl, fun _ _ _ => rfl, fun _ _ _ => rfl⟩
  · exact ⟨_, rfl, Keeping.quietWrite_pwrmode, fun _ _ => writesAs_reserved rfl fun _ ok => if_pos ok, fun _ _ _ => rfl,
      fun _ _ _ => rfl⟩
  · exact ⟨_, rfl, Keeping.quietWrite_tx, fun _ _ => writesAs_open rfl fun _ => rfl, fun _ _ _ => rfl, fun _ _ _ => rfl⟩
  · exact ⟨_, rfl, Keeping.quietWrite_dcsr, dcsr_writesAs, dcsr_note, fun _ _ _ => rfl⟩
  · exact ⟨_, rfl, Keeping.quietWrite_chkpt fun _ _ => rfl, fun _ _ => writesAs_open rfl fun ok => writeChkpt_idle (not_eq_true_eq ok),
      fun _ _ _ => rfl, fun _ _ _ => rfl⟩
  · exact ⟨_, rfl, Keeping.quietWrite_chkpt fun _ _ => rfl, fun _ _ => writesAs_open rfl fun ok => writeChkpt_idle (not_eq_true_eq ok),
      fun _ _ _ => rfl, fun _ _ _ => rfl⟩
  · exact ⟨_, rfl, Keeping.quietWrite_txrxctrl, fun _ _ => writesAs_reserved rfl fun _ _ => rfl, fun _ _ _ => rfl, fun _ _ _ => rfl⟩

/-! STC -/

/-- A register that STC reads: plain memory stays plain after the read, and no other register changes. -/
structure StoresFrom (e : ReadableRegister) (read : CpRead) (s : State) : Prop extends ReadsAs e read s where
  plain : PlainMemory s → PlainMemory (e.after s)
  cp15 : (e.after s).cp15 = s.cp15
  regs : (e.after s).regs = s.regs

theorem stcSource_stores {s : State} {crd : BitVec 4} {e : ReadableRegister} (h : stcSource s crd = some e) (ok : e.ok s = true) :
    ∃ read, stcRegister crd = some read ∧ StoresFrom e read s := by
  have plain {e : ReadableRegister} {read : CpRead} (h : ReadsAs e read s) (after : e.after s = s) : StoresFrom e read s :=
    { h with plain := fun p => by rwa [after], cp15 := congrArg State.cp15 after, regs := congrArg State.regs after }
  unfold stcSource at h
  unfold stcRegister
  split_ifs at h ⊢ with h1 h2 h3 full <;> cases h
  · exact ⟨_, rfl, plain (readsAs_reserved rfl _ _ rfl rfl) rfl⟩
  · exact ⟨_, rfl, plain (readsAs_reserved rfl _ _ rfl rfl) rfl⟩
  · exact ⟨_, rfl, { readsAs_rx s full with plain := fun p => { p with }, cp15 := rfl, regs := rfl }⟩
  · exact ⟨_, rfl, plain (readsAs_rxEmpty s (not_eq_true_eq ok)) rfl⟩
  · exact ⟨_, rfl, plain (readsAs_reserved rfl _ _ rfl rfl) rfl⟩
  · exact ⟨_, rfl, { readsAs_tbreg s (not_eq_true_eq ok) with plain := fun p => { p with }, cp15 := rfl, regs := rfl }⟩
  · exact ⟨_, rfl, plain (readsAs_chkpt s _ (not_eq_true_eq ok) rfl rfl) rfl⟩
  · exact ⟨_, rfl, plain (readsAs_chkpt s _ (not_eq_true_eq ok) rfl rfl) rfl⟩
  · exact ⟨_, rfl, plain (readsAs_reserved rfl _ _ rfl rfl) rfl⟩

section
variable {s : State} (plain : PlainMemory s) {va : Word} (ha : Spec.alignedFor s va 4 = true)
include plain ha

/-- The store of a register: it is read once its address is checked. -/
theorem storeCoprocessor_plain {e : ReadableRegister} {read : CpRead} (h : StoresFrom e read s) :
    ∃ t, storeCoprocessor va read s = .ok () t ∧ Stored (e.after s) t (wordAt s va) 4 (read s).1 := by
  obtain ⟨n, after⟩ := h.after
  have plainAfter : PlainMemory (read s).2 := by
    rw [after]
    exact { h.plain plain with }
  obtain ⟨t, runs, stored⟩ := storeAligned_plain plainAfter va false (read s).1
  have word : wordAt (read s).2 va = wordAt s va := by
    rw [after]
    unfold wordAt State.pidRemap
    rw [h.cp15]
  rw [word, after] at stored
  refine ⟨t, ?_, ⟨⟨{ stored.touched.frame with }, stored.touched.cpsr, stored.touched.pc⟩, stored.value⟩⟩
  rw [storeCoprocessor, bind_ok (checkAligned_ok (by decide) ha), bind_ok (get_ok s),
    bind_ok (translate_off _ _ _ plain.mmu), bind_ok (get_ok s)]
  exact (bind_ok rfl).trans runs

end

/-! The base -/

theorem baseUpdate_eq (t : State) (w : Bool) (rn : Reg) (x : Word) :
    t.baseUpdate rn (if w then some x else none) = if w then t.setReg rn x else t := by
  cases w with
  | true => rfl
  | false => rfl

/-- Settles O51: the access with plain memory, then the write or after the read of the register. -/
theorem coprocessorTransfer : Obligations.CoprocessorTransfer := by
  unfold Obligations.CoprocessorTransfer
  intro cond p u w rn crd off s plain hc priv form base x va ha v
  have addr : (s.am5 p u w rn off).addr = va := by rw [am5_eq]; rfl
  have wb : (s.am5 p u w rn off).wb = if w then some x else none := by rw [am5_eq]; rfl
  have loads {write : CpWrite} (found : ldcRegister crd = some write) :
      exec (.ldcP14 cond p u false w rn crd off) s = match write s.noteAccess v with
        | .ok s2 => .next (s2.baseUpdate rn (if w then some x else none)).advance
        | .error r => .refused r := by
    rw [exec_ldcP14_passed hc priv found form base, addr, wb]
    exact withValue_ok (loadCoprocessor_plain plain ha)
  refine ⟨fun e target set => ?reserved, fun dcsr unlocked set => ?dcsr, fun e target taken => ?ldc, fun e source ok => ?stc⟩
  case reserved =>
    obtain ⟨write, found, into⟩ := ldcTarget_loads target
    rw [loads found, (into.writes _ _).refuses set]
  case dcsr =>
    subst dcsr
    have refused : dcsrWrite s.noteAccess v = .error .reservedBits :=
      (if_neg (ne_true_of_eq_false unlocked)).trans (if_neg set)
    rw [loads (write := dcsrWrite) rfl, refused]
  case ldc =>
    obtain ⟨write, found, into⟩ := ldcTarget_loads target
    have next := nextPc_of_quietWrite into.quiet ((into.writes s v).takes taken)
    have written : write s.noteAccess v = .ok { e.write s v with note := s.noteAccess.note } := by
      rw [← into.note]
      exact (into.writes _ v).takes ((into.takes s v _).trans taken)
    refine ⟨s.noteAccess.note, ?_⟩
    rw [loads found, written, ← next]
    cases w with
    | true => rfl
    | false => rfl
  case stc =>
    obtain ⟨read, found, stores⟩ := stcSource_stores source ok
    obtain ⟨t, runs, stored⟩ := storeCoprocessor_plain plain ha stores
    have finish : exec (.stcP14 cond p u false w rn crd off) s = .next (if w then t.setReg rn x else t).advance := by
      rw [exec_stcP14_passed hc priv found form base, addr, wb, withValue_ok runs, baseUpdate_eq]
    have cpsr : t.cpsr = s.cpsr := stored.touched.cpsr.trans stores.cpsr
    have mode : t.mode = s.mode := congrArg (fun c : Word => c.extractLsb' 0 5) cpsr
    have next : t.nextPc = s.nextPc := by
      unfold State.nextPc State.thumb
      rw [cpsr, stored.touched.pc, stores.pc]
    have value : memWord t.mem (wordAt s va) &&& e.defined = e.value s &&& e.defined := by
      rw [memWord_of_bytes stored.value, stores.value]
    refine ⟨_, finish, ?_⟩
    cases w with
    | true =>
      refine ⟨value, fun _ => ?_, cpsr, next, frame_advance (frame_setReg (stored.touched.widen _) x ?_)⟩
      · rw [← mode]
        exact regIn_setReg_self t rn x
      · exact List.mem_singleton.mpr (congrArg (physIndex · rn) mode)
    | false => exact ⟨value, nofun, cpsr, next, frame_advance stored.touched.frame⟩

end Sys2Proof.Registers

/-!
PROOF. The unpredictable forms: each meets the check that refuses it before anything else (`93_implementation_defined` sections 2.2
and 2.4).
-/
namespace Sys2Proof.Unpredictable
open Sys2Proof Sys2Proof.Machine Sys2Proof.Spec Sys2Proof.ArmBase Sys2Proof.Exceptions Sys2Proof.Singles Sys2Proof.Pairs
  Sys2Proof.Multiples Sys2Proof.Misaligned Sys2Proof.Registers

/-- A check that fails refuses. -/
theorem orRefuse_refused {c : Bool} {r : Refusal} {body : Host.Outcome State Fault Refusal} (h : c = false) :
    orRefuse c r body = .refused r := if_neg (ne_true_of_eq_false h)

/-- A check that passes leaves what follows. -/
theorem orRefuse_passed {c : Bool} {r : Refusal} {body : Host.Outcome State Fault Refusal} (h : c = true) :
    orRefuse c r body = body := if_pos h

section
variable {cond : Cond} {s : State} (hc : condPassed cond s = true)
include hc

theorem refused_of_whenCond {i : Instr} {r : Refusal} {body : Host.Outcome State Fault Refusal}
    (h : exec i s = whenCond cond s body) (hb : body = .refused r) : exec i s = .refused r :=
  h.trans ((whenCond_passed hc _).trans hb)

theorem refused_of_whenCondPc {i : Instr} {b : Bool} {r : Refusal} {body : Host.Outcome State Fault Refusal}
    (h : exec i s = whenCondPc b cond s body) (hb : body = .refused r) : exec i s = .refused r :=
  h.trans ((whenCondPc_passed hc _).trans hb)

/-! Data processing with a register shift -/

variable (f : Bool) {rd rs rm : Reg} (k : BitVec 2)

theorem dp_shReg_refused (op : DpOp) (rn : Reg) (three : (rd != 15 && rs != 15 && rm != 15) = false) :
    exec (op.instr cond f rn rd (.shReg rs k rm)) s = .refused .pcOperand := by
  have four : (rn != 15 && rd != 15 && rs != 15 && rm != 15) = false := by
    rw [Bool.and_assoc, Bool.and_assoc, ← Bool.and_assoc (rd != 15), three, Bool.and_false]
  cases op with
  | mov | mvn => exact refused_of_whenCondPc hc rfl (orRefuse_refused three)
  | _ => exact refused_of_whenCondPc hc rfl (orRefuse_refused four)

theorem dp_shReg_first_refused (op : DpOp) (hmov : op ≠ .mov) (hmvn : op ≠ .mvn) :
    exec (op.instr cond f 15 rd (.shReg rs k rm)) s = .refused .pcOperand := by
  cases op with
  | mov => exact absurd rfl hmov
  | mvn => exact absurd rfl hmvn
  | _ => exact refused_of_whenCondPc hc rfl rfl

theorem test_shReg_refused (op : DpTest) {rn : Reg} (three : (rn != 15 && rs != 15 && rm != 15) = false) :
    exec (op.instr cond rn (.shReg rs k rm)) s = .refused .pcOperand := by
  cases op <;> exact refused_of_whenCond hc rfl (orRefuse_refused three)

end

/-! A misaligned address while the check is off -/

theorem withValue_refused {α : Type} {toPc : Bool} {m : Exec α} {s t : State} {r : Refusal}
    {k : α → State → Host.Outcome State Fault Refusal} (h : m s = .error (.refuse r) t) : withValue toPc m s k = .refused r := by
  rw [withValue, h]
  rfl

section
variable {s : State} {va : Word} (check : s.ctrlBit 1 = false)
include check

theorem checkAligned_off {n : Nat} (hn : n ≤ 32) : checkAligned va n s = .ok () s :=
  Accesses.checkAligned_ok hn (by rw [Spec.alignedFor, check]; rfl)

theorem loadHalf_misaligned (odd : va.getLsbD 0 = true) : loadHalf va s = .error (.refuse .misaligned) s := by
  rw [loadHalf, bind_ok (checkAligned_off check (by decide)), odd]
  exact bind_error rfl

theorem storeHalf_misaligned (odd : va.getLsbD 0 = true) (v : Half) : storeHalf va v s = .error (.refuse .misaligned) s := by
  rw [storeHalf, bind_ok (checkAligned_off check (by decide)), odd]
  exact bind_error rfl

theorem checkDouble_misaligned (odd : va.extractLsb' 0 3 ≠ 0) : checkDouble va s = .error (.refuse .misaligned) s := by
  rw [checkDouble, bind_ok (checkAligned_off check (by decide)), beq_eq_false_iff_ne.mpr odd]
  rfl

end

/-- Settles O58: the check that refuses each form. -/
theorem unpredictableForms : Obligations.UnpredictableForms := by
  unfold Obligations.UnpredictableForms
  intro cond f p u w i x y rd rn rs rm hi k n off list regs a b s hc
  have refused {j : Instr} {r : Refusal} {body : Host.Outcome State Fault Refusal} (h : exec j s = whenCond cond s body)
      (hb : body = .refused r) : exec j s = .refused r := refused_of_whenCond hc h hb
  have refusedPc {j : Instr} {b : Bool} {r : Refusal} {body : Host.Outcome State Fault Refusal}
      (h : exec j s = whenCondPc b cond s body) (hb : body = .refused r) : exec j s = .refused r := refused_of_whenCondPc hc h hb
  refine ⟨fun pc => ?pc, ?pcFirst, fun priv e he => ?writes, fun priv e he => ?reads, fun allowed pc => ?accumulator,
    fun hd hs hm => ?overlap, ?single, fun post => ?writeback, ?listPc, fun hn => ?list, fun hd absent => ?noSpsr,
    fun check hd hn even hd14 h0 h1 => ?misaligned, fun hcond => ?bkpt, rfl, rfl, rfl, rfl, rfl, rfl, fun allowed hd => ?mra⟩
  case pc =>
    have three : (rd != 15 && rs != 15 && rm != 15) = false := by obtain rfl | rfl | rfl := pc <;> simp
    have four : (rd != 15 && rn != 15 && rs != 15 && rm != 15) = false := by obtain rfl | rfl | rfl := pc <;> simp
    have saturating : (rs != 15 && rd != 15 && rm != 15) = false := by obtain rfl | rfl | rfl := pc <;> simp
    have swap : (rd != 15 && rm != 15 && rs != 15) = false := by obtain rfl | rfl | rfl := pc <;> simp
    refine ⟨fun op => dp_shReg_refused hc f k op rn three, fun op => test_shReg_refused hc k op three, ?_⟩
    simp only [List.forall_mem_cons, List.not_mem_nil, false_implies, implies_true, and_true]
    exact ⟨refused rfl (orRefuse_refused three), refused rfl (orRefuse_refused four), refused rfl (orRefuse_refused four),
      refused rfl (orRefuse_refused four), refused rfl (orRefuse_refused four), refused rfl (orRefuse_refused four),
      refused rfl (orRefuse_refused three), refused rfl (orRefuse_refused four), refused rfl (orRefuse_refused three),
      refused rfl (orRefuse_refused four), refused rfl (orRefuse_refused four), refused rfl (orRefuse_refused saturating),
      refused rfl (orRefuse_refused saturating), refused rfl (orRefuse_refused saturating),
      refused rfl (orRefuse_refused saturating), refused rfl (orRefuse_refused swap), refused rfl (orRefuse_refused swap)⟩
  case pcFirst =>
    have second : (rd != 15 && (15 : Reg) != 15 && rs != 15 && rm != 15) = false := by simp
    refine ⟨dp_shReg_first_refused hc f k, fun op => test_shReg_refused hc k op rfl, ?_⟩
    simp only [List.forall_mem_cons, List.not_mem_nil, false_implies, implies_true, and_true]
    exact ⟨refused rfl (orRefuse_refused second), refused rfl (orRefuse_refused second), refused rfl (orRefuse_refused second),
      refused rfl (orRefuse_refused second), refused rfl (orRefuse_refused second), refused rfl (orRefuse_refused second),
      refused rfl (orRefuse_refused second), refused rfl (orRefuse_refused second)⟩
  case writes =>
    obtain ⟨write, runs, -⟩ := all_cp15_writes s e he
    exact exec_cpWrite_pc hc priv (runs cond 15)
  case reads =>
    obtain ⟨read, runs, -⟩ := cp15Readable_reads s e he
    exact refused (runs cond 15) (needPrivilege_of priv _)
  case accumulator =>
    have operands : (rs != 15 && rm != 15) = false := by obtain rfl | rfl := pc <;> simp
    have denied {j : Instr} {body : Host.Outcome State Fault Refusal}
        (h : exec j s = whenCond cond s (needCp 0 s (orRefuse (rs != 15 && rm != 15) .pcOperand body))) :
        exec j s = .refused .pcOperand := refused h ((needCp_allowed _ _ allowed).trans (orRefuse_refused operands))
    simp only [List.forall_mem_cons, List.not_mem_nil, false_implies, implies_true, and_true]
    exact ⟨denied rfl, denied rfl, denied rfl, denied rfl, denied rfl, denied rfl, denied rfl, denied rfl⟩
  case overlap =>
    have four : (rd != 15 && rd != 15 && rs != 15 && rm != 15) = true := by
      rw [bne_iff_ne.mpr hd, bne_iff_ne.mpr hs, bne_iff_ne.mpr hm]; rfl
    have swapBase : (rd != 15 && rm != 15 && rd != 15) = true := by
      rw [bne_iff_ne.mpr hd, bne_iff_ne.mpr hm]; rfl
    have swapSource : (rd != 15 && rm != 15 && rm != 15) = true := by
      rw [bne_iff_ne.mpr hd, bne_iff_ne.mpr hm]; rfl
    have base : (rd != rm && rd != rd) = false := by simp
    have source : (rm != rm && rm != rd) = false := by simp
    have pair {j : Instr} {body : Host.Outcome State Fault Refusal} (h : exec j s = whenCond cond s
        (orRefuse (rd != 15 && rd != 15 && rs != 15 && rm != 15) .pcOperand (orRefuse (rd != rd) .registerOverlap body))) :
        exec j s = .refused .registerOverlap :=
      refused h ((orRefuse_passed four).trans (orRefuse_refused (bne_self_eq_false rd)))
    simp only [List.forall_mem_cons, List.not_mem_nil, false_implies, implies_true, and_true]
    exact ⟨pair rfl, pair rfl, pair rfl, pair rfl, pair rfl,
      refused rfl ((orRefuse_passed swapBase).trans (orRefuse_refused base)),
      refused rfl ((orRefuse_passed swapBase).trans (orRefuse_refused base)),
      refused rfl ((orRefuse_passed swapSource).trans (orRefuse_refused source)),
      refused rfl ((orRefuse_passed swapSource).trans (orRefuse_refused source))⟩
  case single =>
    simp only [List.forall_mem_cons, List.not_mem_nil, false_implies, implies_true, and_true]
    exact ⟨refused rfl rfl, refused rfl rfl, refused rfl rfl, refused rfl rfl, refused rfl rfl, refused rfl rfl, refused rfl rfl,
      refusedPc rfl rfl, refused rfl rfl, refused rfl rfl, whenCond_passed (s := s.noteBranch) hc _⟩
  case writeback =>
    have indexed : (p && !w) = false := by obtain rfl | rfl := post <;> simp
    have pc : (p && !w || (15 : Reg) != 15) = false := by rw [indexed]; rfl
    have offset : (p && !w || rm != 15 && rm != rm) = false := by rw [indexed]; simp
    refine ⟨refusedPc rfl (orRefuse_refused pc), refused rfl (orRefuse_refused pc), fun hm => ⟨?_, ?_⟩⟩
    · exact refusedPc rfl ((orRefuse_passed (bne_iff_ne.mpr hm)).trans (orRefuse_refused offset))
    · exact refused rfl ((orRefuse_passed (bne_iff_ne.mpr hm)).trans (orRefuse_refused offset))
  case listPc =>
    simp only [List.forall_mem_cons, List.not_mem_nil, false_implies, implies_true, and_true]
    exact ⟨refusedPc rfl rfl, refused rfl rfl, refused rfl rfl, refused rfl rfl, refusedPc rfl rfl⟩
  case list =>
    have base : (rn != 15) = true := bne_iff_ne.mpr hn
    have absent (h : s.spsr = none) : s.spsr.isSome = false := by rw [h]; rfl
    refine ⟨?_, fun hl => ⟨?_, fun h => ?_⟩, fun hl => ⟨?_, fun h => ?_⟩, fun h => ?_⟩
    · simp only [List.forall_mem_cons, List.not_mem_nil, false_implies, implies_true, and_true]
      exact ⟨refusedPc rfl (orRefuse_passed base), refused rfl (orRefuse_passed base), refused rfl (orRefuse_passed base),
        refused rfl (orRefuse_passed base)⟩
    · exact refused rfl (listOk_of hn (regs_ne_zero hl) _)
    · exact refused rfl ((listOk_of hn (regs_ne_zero hl) _).trans (orRefuse_refused (absent h)))
    · exact refused rfl (listOk_of hn hl _)
    · exact refused rfl ((listOk_of hn hl _).trans (orRefuse_refused (absent h)))
    · exact refusedPc rfl ((listOk_of hn (pc_ne_zero regs) _).trans (orRefuse_refused (absent h)))
  case noSpsr =>
    refine ⟨(Transfers.exec_mrs_passed true hc hd).trans ?_, refused rfl ?_⟩
    · rw [if_pos rfl, absent]
    · show s.writeSpsr rs (s.reg rm) = _
      rw [State.writeSpsr, absent]
  case misaligned =>
    have form : Spec.am3 true true false rn hi rm := ⟨.inl rfl, .inl rfl, .inl ⟨rfl, rfl⟩⟩
    have pair : doubleRegs true true false rn rd rm := ⟨even, hd14, .inl ⟨rfl, rfl⟩, .inl rfl⟩
    refine ⟨fun odd => ⟨?_, ?_⟩, fun odd => ⟨?_, ?_⟩⟩
    · exact refused rfl ((destOk _ hd).trans ((am3Ok_of _ form).trans (withValue_refused (loadHalf_misaligned check odd))))
    · exact refused rfl ((am3Ok_of _ form).trans (withValue_refused (storeHalf_misaligned check odd _)))
    · exact refused rfl ((doubleOk_of pair s _).trans ((am3Ok_of _ form).trans
        (withValue_refused (bind_error (checkDouble_misaligned check odd)))))
    · exact refused rfl ((doubleOk_of pair s _).trans ((am3Ok_of _ form).trans
        (withValue_refused (bind_error (checkDouble_misaligned check odd)))))
  case bkpt => exact orRefuse_refused (beq_eq_false_iff_ne.mpr hcond)
  case mra =>
    have operands : (rd != 15 && rd != 15) = true := by rw [bne_iff_ne.mpr hd]; rfl
    exact refused rfl ((needCp_allowed _ _ allowed).trans
      ((orRefuse_passed operands).trans (orRefuse_refused (bne_self_eq_false rd))))

end Sys2Proof.Unpredictable

/-!
PROOF. PLD: what its translation and the fill of its line can do, and what a cancelled one leaves (`45_arm_loadstore` R599,
`60_exceptions` R906).
-/
namespace Sys2Proof.Preloading
open Sys2Proof Sys2Proof.Machine Sys2Proof.Spec Sys2Proof.ArmBase

/-- The general registers, the status registers, the accumulator and CP15 stay, and the next instruction follows. -/
theorem same_of_memSide {s t : State} (h : MemSide s t) : t.advance.regs = s.regs ∧ t.advance.spsrs = s.spsrs ∧
    t.advance.cpsr = s.cpsr ∧ t.advance.acc0 = s.acc0 ∧ t.advance.cp15 = s.cp15 ∧ t.advance.pc = s.nextPc := by
  refine ⟨h.regs, h.spsrs, h.cpsr, h.acc0, h.cp15, ?_⟩
  show t.nextPc = _
  unfold State.nextPc State.thumb
  rw [h.cpsr, h.pc]

/-- No store of the block waits: nothing is released. -/
theorem releaseLine_absent {s : State} {line : BitVec 31} (h : s.buffers.all (·.line != line) = true) :
    s.releaseLine line = s := by
  have absent : ∀ e ∈ s.buffers, (e.line == line) = false := fun e he => by
    have := List.all_eq_true.mp h e he
    rwa [bne, Bool.not_eq_true'] at this
  have unwaited : waitsUncached s.buffers line = false := by
    rw [waitsUncached, List.any_eq_false]
    intro e he
    rw [absent e he]
    exact Bool.false_ne_true
  have kept : s.buffers.filter (fun e => e.line == line ||
      (waitsUncached s.buffers line && waitsUncached s.buffers e.line)) = [] := by
    rw [List.filter_eq_nil_iff]
    intro e he
    rw [absent e he, unwaited]
    exact Bool.false_ne_true
  have all : s.buffers.filter (fun e => !(e.line == line ||
      (waitsUncached s.buffers line && waitsUncached s.buffers e.line))) = s.buffers := by
    rw [List.filter_eq_self]
    intro e he
    rw [absent e he, unwaited]
    rfl
  rw [State.releaseLine, State.releaseWhere, kept, all]
  rfl

section
variable {s s1 : State} {va : Word}

theorem preload_abort {fs : BitVec 5} {d : Option (BitVec 4)} {f : Option Word}
    (h : translate (s.pidRemap va) .read s.privileged s = .error (.abort fs d f) s1) :
    preload va s = .next (s.cancelled s1).advance := by
  rw [preload, h]

theorem preload_refuse {r : Refusal} (h : translate (s.pidRemap va) .read s.privileged s = .error (.refuse r) s1) :
    preload va s = .refused r := by
  rw [preload, h]
  rfl

theorem preload_ok {m : Mapped} (h : translate (s.pidRemap va) .read s.privileged s = .ok m s1) : preload va s =
    if s1.fills m && (s1.dFind (s.pidRemap va)).isNone then
      orRefuse (s1.lockable m) .maintenance <| .next (s.preloadFill s1 (s.pidRemap va) m).advance
    else .next s1.advance := by
  rw [preload, h]

end

/-- Settles O30: each outcome of the translation, then of the fill. -/
theorem preloadHasNoResult : Obligations.PreloadHasNoResult := by
  unfold Obligations.PreloadHasNoResult
  intro u rn rm off n kind i va s hi mva same
  have runs : exec i s = preload va s := by
    obtain ⟨rfl, rfl⟩ | ⟨hm, rfl, rfl⟩ := hi
    · rfl
    · exact congrArg (orRefuse · _ _) (bne_iff_ne.mpr hm)
  refine ⟨fun m s1 ok => ⟨fun fine => ?mapped, fun fills unlockable miss => ?maintenance⟩, fun fs d f s1 aborts => ?abort,
    fun m s1 ok fills lockable miss absent errs => ?error, fun r s1 refused => runs.trans (preload_refuse refused),
    fun plain => ?plain⟩
  case mapped =>
    have side : MemSide s s1 := (side_translate mva .read s.privileged).ok ok
    rw [Gives, runs, preload_ok ok]
    split
    · next misses =>
      have lockable : s1.lockable m = true := fine.resolve_left fun h => by
        rw [h] at misses
        exact Bool.false_ne_true misses
      rw [lockable]
      exact ⟨_, rfl, same_of_memSide (memSide_preloadFill side _ m)⟩
    · exact ⟨_, rfl, same_of_memSide side⟩
  case maintenance =>
    rw [runs, preload_ok ok, fills, miss, unlockable]
    rfl
  case abort =>
    exact ⟨_, runs.trans (preload_abort aborts), ⟨rfl, rfl, rfl, rfl, rfl, rfl⟩, rfl, rfl, rfl, rfl, rfl⟩
  case error =>
    have fill : ∃ t, s.preloadFill s1 mva m = s.cancelled t := by
      unfold State.preloadFill
      cases read : (s1.releaseLine (blockOf m.pa)).nextRead (lineBase (blockOf m.pa)) m.attrs.l2 false with
      | mk b t =>
        rw [read] at errs
        subst errs
        exact ⟨t, by rw [releaseLine_absent absent]⟩
    obtain ⟨t, fill⟩ := fill
    have cancelled : exec i s = .next (s.cancelled t).advance := by
      rw [runs, preload_ok ok, fills, miss, lockable, fill]
      rfl
    exact ⟨_, cancelled, ⟨rfl, rfl, rfl, rfl, rfl, rfl⟩, rfl, rfl, rfl, rfl, rfl⟩
  case plain =>
    have mapped := translate_off (s := s) mva .read s.privileged plain.mmu
    have runs : exec i s = .next s.advance := by
      rw [runs, preload_ok mapped]
      exact if_neg (by rw [State.fills]; exact ne_true_of_eq_false (by simp [Attrs.strong]))
    exact ⟨_, runs, ⟨rfl, rfl, rfl, rfl, rfl, rfl⟩, frame_advance (frame_refl ..)⟩

end Sys2Proof.Preloading

/-!
PROOF. A data access through a section, from the walk that finds its descriptor to the checks of its domain (`21_mmu` R284 to
R310).
-/
namespace Sys2Proof.Translating
open Sys2Proof Sys2Proof.Machine Sys2Proof.Spec Sys2Proof.ArmBase Sys2Proof.Accesses Sys2Proof.Misaligned

/-! Reading a descriptor past the L2 -/

section
variable {s : State} (answers : s.cfg.busErrors = [])
include answers

theorem busError_none (line : BitVec 31) : s.busError line = 0 := by
  rw [State.busError, answers, tableGet]
  exact BitVec.zero_and

theorem busReadLine_ok (a : BitVec 36) : s.busReadLine a = (some (memLine s.mem (blockOf a)), s) := by
  rw [State.busReadLine, busError_none answers, if_pos rfl]

theorem nextRead_uncached (a : BitVec 36) (swap : Bool) :
    s.nextRead a false swap = (some { data := memLine s.mem (blockOf a), unk := 0 }, s) := by
  rw [State.nextRead, Bool.false_and, if_neg Bool.false_ne_true, busReadLine_ok answers]

theorem walkRead_uncached (uncached : s.walkCached = false) (pa : BitVec 36) :
    s.walkRead pa = (some (lineWord (memLine s.mem (blockOf pa)) (pa.extractLsb' 2 3)), s) := by
  rw [State.walkRead, uncached, nextRead_uncached answers]
  rfl

end

/-- The physical address of the first-level descriptor, below 2^32. -/
def descriptorAt (s : State) (mva : Word) : Word :=
  s.cp15.ttbase.extractLsb' 14 18 ++ mva.extractLsb' 20 12 ++ (0 : BitVec 2)

theorem firstLevelAddress_eq (s : State) (mva : Word) : s.firstLevelAddress mva = (descriptorAt s mva).setWidth 36 := by
  apply BitVec.eq_of_getLsbD_eq
  intro i hi
  unfold State.firstLevelAddress descriptorAt
  simp only [BitVec.getLsbD_append, BitVec.getLsbD_setWidth, hi, decide_true, Bool.true_and]
  by_cases h2 : i < 2
  · rw [if_pos h2, if_pos h2]
  · rw [if_neg h2, if_neg h2]
    by_cases h14 : i - 2 < 12
    · rw [if_pos h14, if_pos h14]
    · rw [if_neg h14, if_neg h14]
      split
      · rfl
      · exact BitVec.getLsbD_zero.trans (BitVec.getLsbD_of_ge _ _ (by omega)).symm

theorem descriptorAt_aligned (s : State) (mva : Word) : (descriptorAt s mva).toNat / 4 * 4 = (descriptorAt s mva).toNat := by
  have value : (descriptorAt s mva).toNat = (s.cp15.ttbase.extractLsb' 14 18 ++ mva.extractLsb' 20 12).toNat * 4 := by
    rw [descriptorAt, BitVec.toNat_append, Nat.shiftLeft_eq]
    exact Nat.or_zero _
  omega

/-- The walk reads the descriptor in memory. -/
theorem walkRead_descriptor {s : State} (answers : s.cfg.busErrors = []) (uncached : s.walkCached = false) (mva : Word) :
    s.walkRead (s.firstLevelAddress mva) = (some (memWord s.mem (descriptorAt s mva).toNat), s) := by
  have field : ((descriptorAt s mva).setWidth 36).extractLsb' 2 3 = (descriptorAt s mva).extractLsb' 2 3 := by
    apply BitVec.eq_of_getLsbD_eq
    intro i hi
    rw [BitVec.getLsbD_extractLsb', BitVec.getLsbD_extractLsb', BitVec.getLsbD_setWidth, decide_eq_true (by omega : 2 + i < 36),
      Bool.true_and]
  rw [walkRead_uncached answers uncached, firstLevelAddress_eq, field, lineWord_at, descriptorAt_aligned]

/-! The section -/

/-- The entry of a section whose bits that should be zero are zero. -/
def sectionOf (d mva : Word) : TlbEntry :=
  { locked := false, mva := mva, size := .mb1
    base := (0 : BitVec 4) ++ d.extractLsb' 20 12 ++ (0 : BitVec 20)
    domain := d.extractLsb' 5 4, ap := fourAp (d.extractLsb' 10 2), tex := d.extractLsb' 12 3
    c := d.getLsbD 3, b := d.getLsbD 2, s := d.getLsbD 16, p := d.getLsbD 9, section_ := true }

/-- A bit of a mask whose bits are clear. -/
theorem bit_clear {d m : Word} (h : d &&& m = 0) {k : Nat} (hk : m.getLsbD k = true) : d.getLsbD k = false := by
  have bit := congrArg (fun w : Word => w.getLsbD k) h
  simpa [BitVec.getLsbD_and, hk] using bit

theorem sectionEntry_plain {d : Word} (clear : d &&& 0x000F8010 = 0) (mva : Word) :
    sectionEntry d mva = some (sectionOf d mva) := by
  unfold sectionEntry
  rw [bit_clear clear (k := 4) rfl, bit_clear clear (k := 15) rfl, bit_clear clear (k := 17) rfl,
    bit_clear clear (k := 19) rfl, bit_clear clear (k := 18) rfl]
  rfl

section
variable (d mva : Word)

theorem sectionOf_apFor : (sectionOf d mva).apFor mva = d.extractLsb' 10 2 := by
  have all : ∀ ap : BitVec 2, (fourAp ap).extractLsb' 0 2 = ap := by decide
  exact all _

theorem sectionOf_pa : (sectionOf d mva).pa mva = ((d.extractLsb' 20 12 ++ mva.extractLsb' 0 20 : Word)).setWidth 36 := by
  apply BitVec.eq_of_getLsbD_eq
  intro i hi
  have mask : (BitVec.ofNat 32 (2 ^ 20 - 1)).getLsbD i = decide (i < 20) := by
    rw [BitVec.getLsbD_ofNat, Nat.testBit_two_pow_sub_one]
    by_cases h : i < 20
    · simp [h, show i < 32 by omega]
    · simp [h]
  show ((0 : BitVec 4) ++ d.extractLsb' 20 12 ++ (0 : BitVec 20) ||| (mva &&& BitVec.ofNat 32 (2 ^ 20 - 1)).setWidth 36).getLsbD i = _
  rw [BitVec.getLsbD_or, BitVec.getLsbD_setWidth, BitVec.getLsbD_and, mask]
  simp only [BitVec.getLsbD_append, BitVec.getLsbD_setWidth, hi, decide_true, Bool.true_and]
  by_cases h : i < 20
  · rw [if_pos h, if_pos h, BitVec.getLsbD_extractLsb', Nat.zero_add]
    simp [h]
  · rw [if_neg h, if_neg h]
    by_cases high : i - 20 < 12
    · rw [if_pos high]
      simp [h]
    · rw [if_neg high, BitVec.getLsbD_of_ge (d.extractLsb' 20 12) _ (by omega)]
      simp [h]

end

/-- The permissions of a Client domain, where they do not depend on S and R. -/
theorem permitted_of_ne_zero {ap : BitVec 2} (h : ap ≠ 0) (sBit rBit priv write : Bool) :
    permitted ap sBit rBit priv write = some (ap == 3 || (priv && ap != 0) || (ap == 2 && !write)) := by
  have all : ∀ ap : BitVec 2, ap ≠ 0 → ∀ sBit rBit priv write : Bool,
      permitted ap sBit rBit priv write = some (ap == 3 || (priv && ap != 0) || (ap == 2 && !write)) := by decide
  exact all ap h sBit rBit priv write

/-! The walk -/

section
variable {s : State} {mva : Word} (answers : s.cfg.busErrors = []) (uncached : s.walkCached = false)
include answers uncached

/-- The walk of a fault descriptor. -/
theorem tableWalk_fault (fault : (memWord s.mem (descriptorAt s mva).toNat).extractLsb' 0 2 = 0) :
    tableWalk mva s = .error (.abort 0b00101 none (some mva)) s := by
  rw [tableWalk, bind_ok (get_ok s), walkRead_descriptor answers uncached]
  refine (bind_ok rfl).trans ?_
  dsimp only
  rw [if_pos fault]
  rfl

/-- The walk of a section. -/
theorem tableWalk_section (kind : (memWord s.mem (descriptorAt s mva).toNat).extractLsb' 0 2 = 2)
    (clear : memWord s.mem (descriptorAt s mva).toNat &&& 0x000F8010 = 0) :
    tableWalk mva s = .ok (sectionOf (memWord s.mem (descriptorAt s mva).toNat) mva) s := by
  have notFault : ¬ (memWord s.mem (descriptorAt s mva).toNat).extractLsb' 0 2 = 0 := by rw [kind]; decide
  rw [tableWalk, bind_ok (get_ok s), walkRead_descriptor answers uncached]
  refine (bind_ok rfl).trans ?_
  dsimp only
  rw [if_neg notFault, if_pos kind, sectionEntry_plain clear]
  rfl

end

/-! The access -/

section
variable {s : State} {mva : Word} {write : Bool}

/-- The access of a read or a write. -/
def dataAccess (write : Bool) : Access := if write then .write else .read

theorem dataAccess_fetch (write : Bool) : ¬ dataAccess write = .fetch := by cases write <;> decide

theorem dataAccess_writes (write : Bool) : (dataAccess write == .write || dataAccess write == .swap) = write := by
  cases write <;> rfl

theorem tlbEntry_walks (miss : s.dtlb.lookup mva = none) {e : TlbEntry} (walk : tableWalk mva s = .ok e s) :
    tlbEntry mva (dataAccess write) s = .ok e { s with dtlb := s.dtlb.insert e } := by
  rw [tlbEntry, bind_ok (get_ok s), if_neg (dataAccess_fetch write), miss]
  refine (bind_ok walk).trans ((bind_ok (modify_ok _ s)).trans ?_)
  rw [if_neg (dataAccess_fetch write)]
  rfl

theorem tlbEntry_aborts (miss : s.dtlb.lookup mva = none) {x : Stop} (walk : tableWalk mva s = .error x s) :
    tlbEntry mva (dataAccess write) s = .error x s := by
  rw [tlbEntry, bind_ok (get_ok s), if_neg (dataAccess_fetch write), miss]
  exact bind_error walk

end

/-- The two bits that the domain of an entry has in DACR. -/
def domainAccess (s : State) (e : TlbEntry) : BitVec 2 := s.cp15.dacr.extractLsb' (2 * e.domain.toNat) 2

section
variable {s : State} {d mva : Word} {priv write : Bool}

theorem checkAccess_denied (h : domainAccess s (sectionOf d mva) = 0) :
    checkAccess (sectionOf d mva) mva (dataAccess write) priv s = .error (.abort 0b01001 (some (d.extractLsb' 5 4)) (some mva)) s := by
  rw [checkAccess, bind_ok (get_ok s)]
  exact congrFun (if_pos h) s

theorem checkAccess_manager (h : domainAccess s (sectionOf d mva) = 3) :
    checkAccess (sectionOf d mva) mva (dataAccess write) priv s = .ok () s := by
  unfold domainAccess at h
  rw [checkAccess, bind_ok (get_ok s)]
  rw [h]
  rfl

theorem checkAccess_client (h : domainAccess s (sectionOf d mva) = 1) (ap : d.extractLsb' 10 2 ≠ 0) :
    checkAccess (sectionOf d mva) mva (dataAccess write) priv s =
      if (d.extractLsb' 10 2 == 3 || (priv && d.extractLsb' 10 2 != 0) || (d.extractLsb' 10 2 == 2 && !write)) = true then
        .ok () s
      else .error (.abort 0b01101 (some (d.extractLsb' 5 4)) (some mva)) s := by
  unfold domainAccess at h
  rw [checkAccess, bind_ok (get_ok s)]
  rw [h, if_neg (by decide), if_neg (by decide), if_pos rfl, sectionOf_apFor, dataAccess_writes, permitted_of_ne_zero ap]
  cases (d.extractLsb' 10 2 == 3 || (priv && d.extractLsb' 10 2 != 0) || (d.extractLsb' 10 2 == 2 && !write)) with
  | true => rfl
  | false => rfl

/-- With TEX clear every row has attributes. -/
theorem attrsOf_tex_zero (s : State) (c b shared : Bool) : ∃ a, s.attrsOf 0 c b shared = some a := by
  cases c <;> cases b <;> exact ⟨_, rfl⟩

theorem entryAttrs_unshared (tex : d.extractLsb' 12 3 = 0) (unshared : d.getLsbD 16 = false) :
    ∃ a, entryAttrs (sectionOf d mva) s = .ok a s := by
  obtain ⟨a, row⟩ := attrsOf_tex_zero s (d.getLsbD 3) (d.getLsbD 2) (d.getLsbD 16)
  rw [← tex] at row
  refine ⟨a, ?_⟩
  have coherent : (!(sectionOf d mva).s || s.cfg.coherent) = true := by
    show (!d.getLsbD 16 || s.cfg.coherent) = true
    rw [unshared]
    rfl
  rw [entryAttrs, bind_ok (get_ok s), coherent]
  refine (bind_ok rfl).trans ?_
  rw [show s.attrsOf (sectionOf d mva).tex (sectionOf d mva).c (sectionOf d mva).b (sectionOf d mva).s = some a from row]
  rfl

end

section
variable {s t : State} {mva : Word} {write : Bool} (priv : Bool) (on : s.mmuOn = true)
include on

theorem translate_entry_error {x : Stop} (h : tlbEntry mva (dataAccess write) s = .error x t) :
    translate mva (dataAccess write) priv s = .error x t := by
  unfold Machine.translate
  rw [bind_ok (get_ok s), if_pos on]
  exact bind_error h

theorem translate_check_error {e : TlbEntry} {u : State} {x : Stop} (h : tlbEntry mva (dataAccess write) s = .ok e t)
    (check : checkAccess e mva (dataAccess write) priv t = .error x u) :
    translate mva (dataAccess write) priv s = .error x u := by
  unfold Machine.translate
  rw [bind_ok (get_ok s), if_pos on]
  exact (bind_ok h).trans (bind_error check)

theorem translate_done {e : TlbEntry} {a : Attrs} (h : tlbEntry mva (dataAccess write) s = .ok e t)
    (check : checkAccess e mva (dataAccess write) priv t = .ok () t) (attrs : entryAttrs e t = .ok a t) :
    translate mva (dataAccess write) priv s = .ok { pa := e.pa mva, attrs := a } t := by
  unfold Machine.translate
  rw [bind_ok (get_ok s), if_pos on]
  exact (bind_ok h).trans ((bind_ok check).trans (bind_ok attrs))

end

/-- Settles O60: the walk finds the section, then its domain decides. -/
theorem sectionTranslation : Obligations.SectionTranslation := by
  unfold Obligations.SectionTranslation
  intro s mva priv write on miss answers outer d kind ap dom access allowed aborts
  have uncached : s.walkCached = false := by
    rw [State.walkCached, outer]
    rfl
  refine ⟨fun fault => ?fault, fun type clear => ?section_⟩
  case fault =>
    exact ⟨s, translate_entry_error priv on (tlbEntry_aborts (write := write) miss (tableWalk_fault answers uncached fault))⟩
  case section_ =>
    let u : State := { s with dtlb := s.dtlb.insert (sectionOf d mva) }
    have entry := tlbEntry_walks (write := write) miss (tableWalk_section answers uncached type clear)
    refine ⟨fun none => ?denied, fun client some_ refused => ?permission, fun pass tex => ?passes⟩
    case denied => exact ⟨_, translate_check_error priv on entry (checkAccess_denied none)⟩
    case permission =>
      refine ⟨_, translate_check_error priv on entry ((checkAccess_client (s := u) client some_).trans (if_neg ?_))⟩
      exact ne_true_of_eq_false refused
    case passes =>
      obtain ⟨a, attrs⟩ := entryAttrs_unshared (mva := mva) (s := u) tex (bit_clear clear (k := 16) rfl)
      have check : checkAccess (sectionOf d mva) mva (dataAccess write) priv u = .ok () u := by
        obtain manager | ⟨client, some_, ok⟩ := pass
        · exact checkAccess_manager manager
        · exact (checkAccess_client (s := u) client some_).trans (if_pos ok)
      exact ⟨_, _, translate_done priv on entry check attrs, rfl, rfl, rfl, sectionOf_pa d mva, rfl⟩

end Sys2Proof.Translating

/-!
PROOF. The fetch with the MMU off and nothing in its way (`20_memory` R214, R235).
-/
namespace Sys2Proof.Fetching
open Sys2Proof Sys2Proof.Machine Sys2Proof.Spec Sys2Proof.ArmBase Sys2Proof.Accesses Sys2Proof.Translating

/-- Nothing is in the way of a fetch. -/
structure Unhindered (s : State) : Prop where
  mmu : s.mmuOn = false
  lines : s.icache.lines = []
  fetched : s.icache.buffers = []
  buffers : s.buffers = []
  l2Out : s.l2Out = []
  bus : s.cfg.busErrors = []

theorem blockOf_lineBase (line : BitVec 31) : blockOf (lineBase line) = line := by
  apply BitVec.eq_of_getLsbD_eq
  intro i hi
  rw [blockOf, lineBase, BitVec.getLsbD_extractLsb', BitVec.getLsbD_append, if_neg (by omega), Nat.add_sub_cancel_left]
  simp [hi]

section
variable {s : State} (h : Unhindered s)
include h

theorem fetchBufferFind_none (mva : Word) : s.fetchBufferFind mva = none := by
  rw [State.fetchBufferFind, h.fetched]
  rfl

theorem iFind_none (mva : Word) : s.iFind mva = none := by
  rw [State.iFind, h.lines]
  rfl

theorem releaseForFetch_none (line : BitVec 31) : s.releaseForFetch line = s := by
  obtain ⟨-, -, -, buffers, l2Out, -⟩ := h
  obtain ⟨⟩ := s
  cases buffers
  cases l2Out
  rfl

/-- The block fetched is that of memory. -/
theorem fetchLine_unhindered (mva : Word) {m : Mapped} (outer : m.attrs.l2 = false) :
    fetchLine mva m s = .ok (memLine s.mem (blockOf m.pa)) (s.keepFetched mva m (memLine s.mem (blockOf m.pa))) := by
  have read : s.fetchRead m = (some { data := memLine s.mem (blockOf m.pa), unk := 0 }, s) := by
    rw [State.fetchRead, releaseForFetch_none h, outer, nextRead_uncached h.bus, blockOf_lineBase]
  rw [fetchLine, bind_ok (get_ok s), fetchBufferFind_none h, iFind_none h, read]
  rfl

theorem fetchWord_unhindered (mva : Word) : ∃ s1, fetchWord mva s = .ok (memWord s.mem (mva.toNat / 4 * 4)) s1 ∧
    { s1 with icache := s.icache, note := s.note, free := s.free } = s := by
  refine ⟨s.keepFetched mva { pa := mva.setWidth 36, attrs := Attrs.flatFetch }
    (memLine s.mem (blockOf (mva.setWidth 36))), ?_, ?_⟩
  · have mapped := translate_off mva .fetch s.privileged h.mmu
    rw [fetchWord, bind_ok (get_ok s)]
    refine (bind_ok (a := { pa := mva.setWidth 36, attrs := Attrs.flatFetch }) (t := s) ?_).trans ?_
    · rw [mapped]
      rfl
    · refine (bind_ok rfl).trans ((bind_ok (fetchLine_unhindered h mva rfl)).trans ?_)
      rw [lineWord_at]
      rfl
  · unfold State.keepFetched
    dsimp only
    split
    · rfl
    · rfl

end

/-- The halfword of a word that a fetch takes. -/
theorem halfAt_memWord {s : State} {pc : Word} (even : pc.getLsbD 0 = false) :
    s.halfAt (s.pidRemap pc) (memWord s.mem ((s.pidRemap pc).toNat / 4 * 4)) =
      memByte s.mem (Spec.halfAt s pc + 1) ++ memByte s.mem (Spec.halfAt s pc) := by
  have lane := halfLane_cases s (s.pidRemap pc)
  have half : s.halfAt (s.pidRemap pc) (memWord s.mem ((s.pidRemap pc).toNat / 4 * 4)) =
      (memWord s.mem ((s.pidRemap pc).toNat / 4 * 4)).extractLsb' (8 * s.halfLane (s.pidRemap pc)) 16 := by
    unfold State.halfAt State.halfLane
    split
    · rfl
    · rfl
  rw [half, extract_half, memWord_byte _ _ _ (by omega), memWord_byte _ _ _ (by omega), ← Nat.add_assoc, ← halfAt_eq s even]

/-- Settles O5: the word of memory at the pc, or its half. -/
theorem fetchReadsMemory : Obligations.FetchReadsMemory := by
  unfold Obligations.FetchReadsMemory
  intro s mmu lines fetched buffers l2Out bus outside aligned fresh
  obtain ⟨s1, runs, kept⟩ := fetchWord_unhindered ⟨mmu, lines, fetched, buffers, l2Out, bus⟩ (s.pidRemap s.pc)
  refine ⟨s1, ?_, kept⟩
  have now : s.asFetched = s := by rw [State.asFetched, fresh]
  have same (t : State) : s.afterFetch t = t := by rw [State.afterFetch, fresh]
  have word : wordAt s s.pc = (s.pidRemap s.pc).toNat / 4 * 4 := aligned_toNat _
  have instr : fetchInstr s = .ok (if s.thumb then .thumb (s.halfAt (s.pidRemap s.pc)
      (memWord s.mem ((s.pidRemap s.pc).toNat / 4 * 4))) else .arm (memWord s.mem ((s.pidRemap s.pc).toNat / 4 * 4))) s1 := by
    rw [fetchInstr, bind_ok (get_ok s), outside, if_neg Bool.false_ne_true]
    exact bind_ok runs
  rw [fetchNext, now, instr]
  dsimp only
  rw [same, word]
  cases thumb : s.thumb with
  | false => rfl
  | true =>
    have even : s.pc.getLsbD 0 = false := by
      rw [State.pcAligned, thumb, if_pos rfl, Bool.not_eq_true'] at aligned
      exact aligned
    rw [if_pos rfl, if_pos rfl, halfAt_memWord even]

end Sys2Proof.Fetching

/-!
PROOF. The functions of CP15: how one ends, what an abort leaves of the caches and the TLBs, and the TLB functions
(`43_cp15_functions` R800 to R804, R820 to R823, `60_exceptions` R903).
-/
namespace Sys2Proof.Functions
open Sys2Proof Sys2Proof.Machine Sys2Proof.Spec Sys2Proof.ArmBase Sys2Proof.Registers Sys2Proof.Misaligned

/-! The end of a function -/

section
variable {i : Instr} {cond : Cond} {rd : Reg} {f : Word → Exec Unit} {s : State} (hc : condPassed cond s = true) (hd : rd ≠ 15)
include hc hd

theorem exec_userFunction (h : exec i s = cp15UserFunction cond rd f s) : exec i s = runExec (f (s.regIn s.mode rd)) s := by
  rw [← reg_below hd]
  exact h.trans ((whenCond_passed hc _).trans (if_pos (bne_iff_ne.mpr hd)))

theorem exec_function (priv : s.privileged = true) (h : exec i s = cp15Function cond rd f s) :
    exec i s = runExec (f (s.regIn s.mode rd)) s := by
  rw [← reg_below hd]
  exact h.trans ((whenCond_passed hc _).trans ((needPrivilege_of priv _).trans (if_pos (bne_iff_ne.mpr hd))))

end

section
variable {i : Instr} {s s1 : State} {m : Exec Unit} (runs : exec i s = runExec m s)
include runs

/-- A function that completes and leaves the state as `s1`. -/
theorem next_of_ok (ok : m s = .ok () s1) : exec i s = .next s1.advance := runs.trans (withValue_ok ok)

theorem effect_of_ok (ok : m s = .ok () s1) (pc : s1.nextPc = s.nextPc) : Effect i s s1 := by
  rw [Effect, next_of_ok runs ok, ← pc]
  rfl

theorem effect_of_side (ok : m s = .ok () s1) (side : MemSide s s1) : Effect i s s1 :=
  effect_of_ok runs ok (Preloading.same_of_memSide side).2.2.2.2.2

theorem abort_of_error {fs : BitVec 5} {d : Option (BitVec 4)} {f : Option Word} (stops : m s = .error (.abort fs d f) s1) :
    exec i s = .next (s1.dataAbort fs d f false) := by
  rw [runs, runExec, withValue, stops]
  rfl

theorem refused_of_error {r : Refusal} (stops : m s = .error (.refuse r) s1) : exec i s = .refused r := by
  rw [runs, runExec, withValue, stops]
  rfl

end

/-- What the side effects of memory leave, once the instruction is over. -/
theorem quiet_of_side {s t : State} (side : MemSide s t) : Quiet s t.advance := by
  obtain ⟨regs, spsrs, cpsr, acc0, cp15, pc⟩ := Preloading.same_of_memSide side
  exact ⟨regs, spsrs, cpsr, acc0, cp15, pc⟩

theorem require_true {c : Bool} (h : c = true) (r : Refusal) (s : State) : require c r s = .ok () s := by
  rw [h]
  rfl

theorem require_false {c : Bool} (h : c = false) (r : Refusal) (s : State) : require c r s = .error (.refuse r) s := by
  rw [h]
  rfl

/-! What an abort leaves of the caches and the TLBs -/

/-- The caches, the TLBs and the fault status are the same. -/
structure SameCaches (s t : State) : Prop where
  icache : t.icache = s.icache
  dcache : t.dcache = s.dcache
  itlb : t.itlb = s.itlb
  dtlb : t.dtlb = s.dtlb
  fsr : t.cp15.fsr = s.cp15.fsr

theorem SameCaches.trans {s t u : State} (h : SameCaches s t) (k : SameCaches t u) : SameCaches s u :=
  ⟨k.icache.trans h.icache, k.dcache.trans h.dcache, k.itlb.trans h.itlb, k.dtlb.trans h.dtlb, k.fsr.trans h.fsr⟩

theorem sameCaches_refl (s : State) : SameCaches s s := ⟨rfl, rfl, rfl, rfl, rfl⟩

theorem sameCaches_enterException (s : State) (e : Exception) (link : Word) : SameCaches s (s.enterException e link) := by
  constructor
  all_goals simp [State.enterException]

theorem sameCaches_traceException (s : State) (v : BitVec 3) (counted : Bool) : SameCaches s (s.traceException v counted) := by
  unfold State.traceException
  split
  · exact ⟨rfl, rfl, rfl, rfl, rfl⟩
  · exact ⟨rfl, rfl, rfl, rfl, rfl⟩

theorem sameCaches_enterDebugMode {s : State} (halt : s.haltMode = true) (moe : BitVec 3) (link : Word) :
    SameCaches s (s.enterDebugMode moe link) := by
  unfold State.enterDebugMode
  rw [halt]
  exact ⟨rfl, rfl, rfl, rfl, rfl⟩

theorem sameCaches_vectorTrap (s : State) (e : Exception) : SameCaches s (s.vectorTrap e) := by
  unfold State.vectorTrap
  split
  · next trapped =>
    rw [Bool.and_eq_true, Bool.and_eq_true] at trapped
    obtain ⟨⟨halt, -⟩, -⟩ := trapped
    have entered := sameCaches_enterDebugMode halt (if e = .reset && !Config.moeResetTrapped then 0b000 else 0b101) (s.pc + 4)
    dsimp only
    split
    · exact { entered with }
    · exact entered
  · exact sameCaches_refl s

theorem sameCaches_takeException (s : State) (e : Exception) (link : Word) (counted : Bool) :
    SameCaches s (s.takeException e link counted) := by
  unfold State.takeException
  dsimp only
  have entered := sameCaches_enterException s e link
  split
  · exact (entered.trans (sameCaches_traceException ..)).trans (sameCaches_vectorTrap ..)
  · exact entered.trans (sameCaches_vectorTrap ..)

theorem sameCaches_dataAbort (s : State) (fs : BitVec 5) (d : Option (BitVec 4)) (f : Option Word) (toPc : Bool) :
    SameCaches (faulted s fs d f) (s.dataAbort fs d f toPc) := by
  unfold State.dataAbort
  dsimp only
  split
  · exact ⟨rfl, rfl, rfl, rfl, rfl⟩
  · exact sameCaches_takeException ..

/-- The status of a lock abort, whatever the domain. -/
theorem lockAbort_status : ∀ d : BitVec 4,
    (((0 : BitVec 21) ++ (0b10100 : BitVec 5).extractLsb' 4 1 ++ (0 : BitVec 2) ++ d ++ (0b10100 : BitVec 5).extractLsb' 0 4 :
      Word).extractLsb' 0 4 = 0b0100) ∧
    ((0 : BitVec 21) ++ (0b10100 : BitVec 5).extractLsb' 4 1 ++ (0 : BitVec 2) ++ d ++ (0b10100 : BitVec 5).extractLsb' 0 4 :
      Word).getLsbD 10 = true := by decide

theorem lockAbort_abort {α : Type} {m : Exec α} {s s1 : State} {fs : BitVec 5} {d : Option (BitVec 4)} {f : Option Word}
    (h : m s = .error (.abort fs d f) s1) : lockAbort m s = .error (.abort 0b10100 none none) (s.onlyErrors s1) := by
  rw [lockAbort, undoAbort, h]

theorem lockAbort_ok {α : Type} {m : Exec α} {s s1 : State} {a : α} (h : m s = .ok a s1) : lockAbort m s = .ok a s1 := by
  rw [lockAbort, undoAbort, h]

theorem lockAborts_of {i : Instr} {s s1 : State} {m : Exec Unit} (runs : exec i s = runExec m s)
    (stops : m s = .error (.abort 0b10100 none none) (s.onlyErrors s1)) : LockAborts i s s1 := by
  have same := sameCaches_dataAbort (s.onlyErrors s1) 0b10100 none none false
  have status := lockAbort_status (Config.freeBits 4 (s.onlyErrors s1).free)
  refine ⟨abort_of_error runs stops, same.icache, same.itlb, same.dtlb, ?_, ?_⟩
  · rw [same.fsr]
    exact status.1
  · rw [same.fsr]
    exact status.2

/-! The TLBs -/

section
variable (t : Tlb)

theorem keepsEntries_invalidate : keepsEntries t t.invalidate TlbEntry.locked := by
  refine ⟨rfl, rfl, fun k => ?_⟩
  refine (Vector.getElem_map _ k.isLt).trans ?_
  show _ = (t.entries[k]).filter _
  cases t.entries[k] with
  | none => rfl
  | some e => exact (Option.filter_some ..).symm

theorem keepsEntries_invalidateEntry (v : Word) : keepsEntries t (t.invalidateEntry v) fun e => !e.hits v := by
  refine ⟨rfl, rfl, fun k => ?_⟩
  refine (Vector.getElem_map _ k.isLt).trans ?_
  show _ = (t.entries[k]).filter _
  cases t.entries[k] with
  | none => rfl
  | some e =>
    rw [Option.filter_some, Option.bind_some]
    cases e.hits v with
    | true => rfl
    | false => rfl

theorem unlock_get (k : Fin 32) : t.unlock.entries.get k = (t.entries.get k).map fun e => { e with locked := false } :=
  Vector.getElem_map _ k.isLt

theorem set_get (l : BitVec 5) (x : Option TlbEntry) (k : Fin 32) :
    (t.entries.set l.toNat x l.isLt).get k = if k = l.toFin then x else t.entries.get k := by
  have set := Vector.getElem_set (xs := t.entries) (x := x) l.isLt k.isLt
  refine set.trans ?_
  have same : l.toNat = k.val ↔ k = l.toFin := ⟨fun h => Fin.ext h.symm, fun h => (congrArg Fin.val h).symm⟩
  exact if_congr same rfl rfl

/-- Where a lock puts its entry: at the lock pointer, locked while that is below 31. -/
theorem placed_lock (e : TlbEntry) : (t.lock e).rr = 31 ∧ (t.lock e).lockp = (if t.lockp = 31 then 31 else t.lockp + 1) ∧
    ∀ k, (t.lock e).entries.get k = if k = t.lockp.toFin then some { e with locked := t.lockp != 31 } else t.entries.get k := by
  have top : ∀ l : BitVec 5, ¬ l < 31 → l = 31 := by decide
  have below : ∀ l : BitVec 5, l < 31 → l ≠ 31 := by decide
  unfold Tlb.lock
  split
  · next low =>
    rw [if_neg (below _ low), bne_iff_ne.mpr (below _ low)]
    exact ⟨rfl, rfl, set_get t _ _⟩
  · next high =>
    have last := top _ high
    rw [if_pos last, last]
    exact ⟨rfl, rfl, set_get t 31 _⟩

theorem not_lockedAt {v : Word} (h : ∀ k e, t.entries.get k = some e → e.hits v = true → e.locked = false) :
    t.lockedAt v = false := by
  rw [Tlb.lockedAt, List.any_eq_false]
  intro entry mem
  obtain ⟨k, hk, rfl⟩ := List.getElem_of_mem mem
  rw [Vector.getElem_toList]
  rw [Vector.length_toList] at hk
  cases at_k : t.entries[k] with
  | none => exact Bool.false_ne_true
  | some e =>
    have locked := h ⟨k, hk⟩ e at_k
    rw [Option.any_some, Bool.and_eq_true]
    exact fun hit => ne_true_of_eq_false (locked hit.1) hit.2

end

theorem invalidateTlbEntry_ok {side : State → Tlb} {put : State → (Tlb → Tlb) → State} {v : Word} {s : State}
    (h : ∀ k e, (side s).entries.get k = some e → e.hits v = true → e.locked = false) :
    invalidateTlbEntry side put v s = .ok () (put s (·.invalidateEntry v)) := by
  have unlocked : (!(side s).lockedAt v) = true := by rw [not_lockedAt _ h]; rfl
  rw [invalidateTlbEntry, bind_ok (get_ok s), bind_ok (require_true unlocked _ s)]
  rfl

theorem unlockTlb_ok {put : State → (Tlb → Tlb) → State} {s : State} (on : s.mmuOn = true) :
    unlockTlb put s = .ok () (put s Tlb.unlock) := by
  rw [unlockTlb, bind_ok (get_ok s), bind_ok (require_true on _ s)]
  rfl

section
variable {side : State → Tlb} {put : State → (Tlb → Tlb) → State} {v : Word} {s s1 : State} (on : s.mmuOn = true)
  (miss : (side s).lookup v = none)
include on miss

theorem lockTlb_ok {e : TlbEntry} (walk : tableWalk v s = .ok e s1) : lockTlb side put v s = .ok () (put s1 (·.lock e)) := by
  have may : (s.mmuOn && ((side s).lookup v).isNone) = true := by rw [on, miss]; rfl
  rw [lockTlb, bind_ok (get_ok s), bind_ok (require_true may _ s), bind_ok (lockAbort_ok walk)]
  rfl

theorem lockTlb_aborts {fs : BitVec 5} {d : Option (BitVec 4)} {f : Option Word}
    (walk : tableWalk v s = .error (.abort fs d f) s1) :
    lockTlb side put v s = .error (.abort 0b10100 none none) (s.onlyErrors s1) := by
  have may : (s.mmuOn && ((side s).lookup v).isNone) = true := by rw [on, miss]; rfl
  rw [lockTlb, bind_ok (get_ok s), bind_ok (require_true may _ s), bind_error (lockAbort_abort walk)]

end

/-- Settles O56: invalidations and unlocks entry by entry, locks by the outcome of the walk. -/
theorem tlbFunctions : Obligations.TlbFunctions := by
  unfold Obligations.TlbFunctions
  intro cond rd s hc priv hd v other
  have runs {i : Instr} {f : Word → Exec Unit} (h : exec i s = cp15Function cond rd f s) := exec_function hc hd priv h
  refine ⟨?global, fun unlocked => ?itlb, fun unlocked => ?dtlb, fun on => ⟨?unlockI, ?unlockD, ?lockI, ?lockD, ?aborts⟩⟩
  case global =>
    have both := runs (i := .mcrInvTlbs cond rd)
      (f := fun _ => modify fun s => (s.keepView.mapITlb Tlb.invalidate).mapDTlb Tlb.invalidate) rfl
    have instr := runs (i := .mcrInvITlb cond rd) (f := fun _ => modify fun s => s.keepView.mapITlb Tlb.invalidate) rfl
    have data := runs (i := .mcrInvDTlb cond rd) (f := fun _ => modify fun s => s.mapDTlb Tlb.invalidate) rfl
    exact ⟨_, _, keepsEntries_invalidate _, keepsEntries_invalidate _, effect_of_ok both rfl rfl, effect_of_ok instr rfl rfl,
      effect_of_ok data rfl rfl⟩
  case itlb =>
    have runs := runs (i := .mcrInvITlbEntry cond rd) rfl
    exact ⟨_, keepsEntries_invalidateEntry _ _, effect_of_ok runs (invalidateTlbEntry_ok unlocked) rfl⟩
  case dtlb =>
    have runs := runs (i := .mcrInvDTlbEntry cond rd) rfl
    exact ⟨_, keepsEntries_invalidateEntry _ _, effect_of_ok runs (invalidateTlbEntry_ok unlocked) rfl⟩
  case unlockI =>
    have runs := runs (i := .mcrUnlockITlb cond rd) (f := fun _ => unlockTlb State.mapITlb) rfl
    exact ⟨s.itlb.unlock, ⟨rfl, rfl, unlock_get _⟩, effect_of_ok runs (unlockTlb_ok on) rfl⟩
  case unlockD =>
    have runs := runs (i := .mcrUnlockDTlb cond rd) (f := fun _ => unlockTlb State.mapDTlb) rfl
    exact ⟨s.dtlb.unlock, ⟨rfl, rfl, unlock_get _⟩, effect_of_ok runs (unlockTlb_ok on) rfl⟩
  case lockI =>
    intro e s1 miss walk
    have runs := runs (i := .mcrLockITlbEntry cond rd) rfl
    have side := (side_tableWalk v).ok walk
    exact ⟨_, placed_lock _ e, effect_of_side runs (lockTlb_ok on miss walk) (side.trans (memSide_itlb s1 _))⟩
  case lockD =>
    intro e s1 miss walk
    have runs := runs (i := .mcrLockDTlbEntry cond rd) rfl
    have side := (side_tableWalk v).ok walk
    exact ⟨_, placed_lock _ e, effect_of_side runs (lockTlb_ok on miss walk) (side.trans (memSide_dtlb s1 _))⟩
  case aborts =>
    intro fs d f s1 walk
    have instr := runs (i := .mcrLockITlbEntry cond rd) rfl
    have data := runs (i := .mcrLockDTlbEntry cond rd) rfl
    exact ⟨fun miss => lockAborts_of instr (lockTlb_aborts on miss walk),
      fun miss => lockAborts_of data (lockTlb_aborts on miss walk)⟩

end Sys2Proof.Functions

/-!
PROOF. The functions of the data cache: a line found again after its clean, what a clean hands to empty buffers, and the functions
by address and by set and way (`43_cp15_functions` R778 to R784, `22_caches` R388).
-/
namespace Sys2Proof.Functions
open Sys2Proof Sys2Proof.Machine Sys2Proof.Spec Sys2Proof.ArmBase

/-! Finding a line -/

/-- What a way of the data cache answers. -/
def dProbe (s : State) (mva : Word) (w : BitVec 2) : Option (Nat × BitVec 2 × DLine) :=
  match tableGet (l1Index mva w) s.dcache.lines with
  | some l => if l.tag = l1Tag mva then some (l1Index mva w, w, l) else none
  | none => none

section
variable {s : State} {mva : Word}

theorem dFind_eq : s.dFind mva = ways.findSome? (dProbe s mva) := rfl

theorem dProbe_some {w w' : BitVec 2} {k : Nat} {l : DLine} (h : dProbe s mva w' = some (k, w, l)) :
    w' = w ∧ k = l1Index mva w ∧ tableGet k s.dcache.lines = some l ∧ l.tag = l1Tag mva := by
  unfold dProbe at h
  split at h
  · next x found =>
    split at h
    · next tag =>
      cases h
      exact ⟨rfl, rfl, found, tag⟩
    · cases h
  · cases h

theorem dFind_some {k : Nat} {w : BitVec 2} {l : DLine} (h : s.dFind mva = some (k, w, l)) :
    k = l1Index mva w ∧ tableGet k s.dcache.lines = some l ∧ l.tag = l1Tag mva := by
  rw [dFind_eq] at h
  obtain ⟨w', -, found⟩ := List.exists_of_findSome?_eq_some h
  exact (dProbe_some found).2

/-- A line found is found again in its place, when another line of the same tag stands there. -/
theorem dFind_put {k : Nat} {w : BitVec 2} {l l' : DLine} (h : s.dFind mva = some (k, w, l)) (tag : l'.tag = l.tag) :
    (s.dPut k l').dFind mva = some (k, w, l') := by
  obtain ⟨-, held, matches_⟩ := dFind_some h
  have probe (w' : BitVec 2) : dProbe (s.dPut k l') mva w' =
      (dProbe s mva w').map fun r => (r.1, r.2.1, if r.1 = k then l' else r.2.2) := by
    unfold dProbe State.dPut
    by_cases here : l1Index mva w' = k
    · rw [here, tableGet_tableSet_self, held]
      dsimp only
      rw [if_pos (tag.trans matches_), if_pos matches_, Option.map_some, if_pos rfl]
    · rw [tableGet_tableSet_other _ _ here]
      cases tableGet (l1Index mva w') s.dcache.lines with
      | none => rfl
      | some x =>
        dsimp only
        split
        · rw [Option.map_some, if_neg here]
        · rfl
  have moved : ∀ ws : List (BitVec 2), ws.findSome? (dProbe (s.dPut k l') mva) =
      (ws.findSome? (dProbe s mva)).map fun r => (r.1, r.2.1, if r.1 = k then l' else r.2.2) := by
    intro ws
    induction ws with
    | nil => rfl
    | cons w' ws ih =>
      rw [List.findSome?_cons, List.findSome?_cons, probe w', ih]
      cases dProbe s mva w' with
      | none => rfl
      | some r => rfl
  rw [dFind_eq, moved, ← dFind_eq, h, Option.map_some, if_pos rfl]

end

/-! The clean of a line, with the buffers empty -/

/-- Data cache line `k` cleaned: what is dirty is handed to the empty buffers, or lost for a parity error. -/
def cleanOf (s : State) (k : Nat) (l : DLine) : State :=
  let c : State := { s with dcache := { s.dcache with lines := tableSet k { l with dirty := false } s.dcache.lines } }
  if l.dirty = false then s
  else if l.bad = 0 then
    { c with buffers := [{ line := l.pa, mask := 0xFFFFFFFF, unk := l.unk, data := l.data, coal := false
                           unc := false, l2 := l.l2, shared := l.shared }] }
  else { c with pendingAbort := if s.pendingAbort = some .external then some .external else some .parity }

section
variable {s : State} {k : Nat} {l : DLine}

theorem bufferStore_alone (empty : s.buffers = []) {e : BufEntry} (alone : e.coal = false) :
    s.bufferStore e = { s with buffers := [e] } := by
  unfold State.bufferStore State.settleBuffers
  simp [empty, alone]

theorem dClean_held (empty : s.buffers = []) (held : tableGet k s.dcache.lines = some l) : s.dClean k = cleanOf s k l := by
  unfold State.dClean cleanOf
  rw [held]
  dsimp only
  cases l.dirty with
  | false => rfl
  | true =>
    rw [if_pos rfl, if_neg (by decide)]
    unfold State.dWriteBack
    by_cases good : l.bad = 0
    · rw [if_neg (not_not_intro good), if_pos good]
      exact bufferStore_alone (s := s.dPut k { l with dirty := false }) empty rfl
    · rw [if_pos good, if_neg good]
      rfl

theorem cleanDLine_held {v : Word} {w : BitVec 2} (empty : s.buffers = []) (found : s.dFind v = some (k, w, l)) :
    s.cleanDLine v = cleanOf s k l := by
  rw [State.cleanDLine, found]
  exact dClean_held empty (dFind_some found).2.1

/-- The cleaned line is found where it was. -/
theorem dFind_cleanOf {v : Word} {w : BitVec 2} (found : s.dFind v = some (k, w, l)) :
    ∃ l', (cleanOf s k l).dFind v = some (k, w, l') := by
  have put := dFind_put (l' := { l with dirty := false }) found rfl
  unfold cleanOf
  dsimp only
  split
  · exact ⟨l, found⟩
  · split
    · exact ⟨_, put⟩
    · exact ⟨_, put⟩

theorem invalidateDLine_found {v : Word} {w : BitVec 2} (found : s.dFind v = some (k, w, l)) :
    s.invalidateDLine v = s.dDrop k := by
  rw [State.invalidateDLine, found]

theorem cleanOf_nextPc : (cleanOf s k l).nextPc = s.nextPc := by
  unfold cleanOf
  dsimp only
  split
  · rfl
  · split
    · rfl
    · rfl

end

/-! The functions -/

theorem dFunction_ok {f : Word → State → State} {v : Word} {s : State} (on : s.mmuOn = true) : dFunction f v s = .ok () (f v s) := by
  rw [dFunction, bind_ok (get_ok s), bind_ok (require_true on _ s)]
  rfl

section
variable {f : Nat → State → State} {v : Word} {s : State} {k : Nat} (on : s.mmuOn = true) (names : dSetWay v = some k)
include on names

theorem dSetWayFunction_ok {l : DLine} (held : tableGet k s.dcache.lines = some l) (unlocked : l.locked = false) :
    dSetWayFunction f v s = .ok () (f k s) := by
  rw [dSetWayFunction, bind_ok (get_ok s), bind_ok (require_true on _ s), names]
  dsimp only
  rw [held]
  dsimp only
  rw [unlocked]
  rfl

theorem dSetWayFunction_spares (spared : tableGet k s.dcache.lines = none ∨
    ∃ l, tableGet k s.dcache.lines = some l ∧ l.locked = true) : dSetWayFunction f v s = .ok () s := by
  rw [dSetWayFunction, bind_ok (get_ok s), bind_ok (require_true on _ s), names]
  dsimp only
  obtain none_ | ⟨l, held, locked⟩ := spared
  · rw [none_]
    rfl
  · rw [held]
    dsimp only
    rw [locked]
    rfl

end

/-- A field within the bits of a mask that are clear. -/
theorem field_clear {v m : Word} (clear : v &&& m = 0) {a n : Nat} (mask : ∀ i < n, m.getLsbD (a + i) = true) :
    v.extractLsb' a n = 0 := by
  apply BitVec.eq_of_getLsbD_eq
  intro i hi
  rw [BitVec.getLsbD_extractLsb', Translating.bit_clear clear (mask i hi), Bool.and_false]
  exact BitVec.getLsbD_zero.symm

theorem dSetWay_of_clear {v : Word} (clear : v &&& 0x3FFFE01F = 0) :
    dSetWay v = some ((v.extractLsb' 5 8).toNat * 4 + (v.extractLsb' 30 2).toNat) := by
  have middle : v.extractLsb' 13 17 = 0 := field_clear clear (by decide)
  have low : v.extractLsb' 0 5 = 0 := field_clear clear (by decide)
  rw [dSetWay, if_pos ⟨middle, low⟩]

/-- Settles O54: by address, the line found or not; by set and way, the line held and unlocked or not. -/
theorem dataCacheFunctions : Obligations.DataCacheFunctions := by
  unfold Obligations.DataCacheFunctions
  intro cond rd s hc priv hd on empty v clean drop
  have runs {i : Instr} {f : Word → Exec Unit} (h : exec i s = cp15Function cond rd f s) := exec_function hc hd priv h
  have invalidate := runs (i := .mcrInvDCacheLine cond rd) rfl
  have cleanMva := runs (i := .mcrCleanDLineMva cond rd) rfl
  have cleanInv := runs (i := .mcrCleanInvDLineMva cond rd) rfl
  refine ⟨?all, fun absent => ⟨?_, ?_, ?_⟩, fun k w l found => ⟨?_, ?_, ?_⟩, fun clear => ⟨fun spared => ?spared, ?setWay⟩⟩
  case all =>
    exact effect_of_ok (runs (i := .mcrInvDCache cond rd) (f := dFunction fun _ s => s.invalidateDCache) rfl)
      (dFunction_ok on) rfl
  case refine_1 =>
    have same : s.invalidateDLine v = s := by rw [State.invalidateDLine, absent]
    exact effect_of_ok invalidate ((dFunction_ok on).trans (congrArg _ same)) rfl
  case refine_2 =>
    have same : s.cleanDLine v = s := by rw [State.cleanDLine, absent]
    exact effect_of_ok cleanMva ((dFunction_ok on).trans (congrArg _ same)) rfl
  case refine_3 =>
    have same : (s.cleanDLine v).invalidateDLine v = s := by
      rw [State.cleanDLine, absent, State.invalidateDLine, absent]
    exact effect_of_ok cleanInv ((dFunction_ok on).trans (congrArg _ same)) rfl
  case refine_4 => exact effect_of_ok invalidate ((dFunction_ok on).trans (congrArg _ (invalidateDLine_found found))) rfl
  case refine_5 =>
    exact effect_of_ok cleanMva ((dFunction_ok on).trans (congrArg _ (cleanDLine_held empty found))) cleanOf_nextPc
  case refine_6 =>
    obtain ⟨l', again⟩ := dFind_cleanOf found
    have both : (s.cleanDLine v).invalidateDLine v = (cleanOf s k l).dDrop k := by
      rw [cleanDLine_held empty found, invalidateDLine_found again]
    exact effect_of_ok cleanInv ((dFunction_ok on).trans (congrArg _ both)) cleanOf_nextPc
  case spared =>
    have names := dSetWay_of_clear clear
    exact ⟨effect_of_ok (runs (i := .mcrCleanDLineSetWay cond rd) rfl) (dSetWayFunction_spares on names spared) rfl,
      effect_of_ok (runs (i := .mcrCleanInvDLineSetWay cond rd) rfl) (dSetWayFunction_spares on names spared) rfl⟩
  case setWay =>
    intro l held unlocked
    have names := dSetWay_of_clear clear
    have cleaned := dClean_held empty held
    have one := (dSetWayFunction_ok (f := fun k s => s.dClean k) on names held unlocked).trans (congrArg _ cleaned)
    have two := (dSetWayFunction_ok (f := fun k s => (s.dClean k).dDrop k) on names held unlocked).trans
      (congrArg (fun u : State => EStateM.Result.ok () (u.dDrop _)) cleaned)
    exact ⟨effect_of_ok (runs (i := .mcrCleanDLineSetWay cond rd) rfl) one cleanOf_nextPc,
      effect_of_ok (runs (i := .mcrCleanInvDLineSetWay cond rd) rfl) two cleanOf_nextPc⟩

end Sys2Proof.Functions

/-!
PROOF. The lock of an instruction cache line after a write-back of its block, where the bus answers neither: the error of the
write-back comes first, and pends an abort of its own (`43_cp15_functions` R810, `60_exceptions` R905, R920).
-/
namespace Sys2Proof.Functions
open Sys2Proof Sys2Proof.Machine Sys2Proof.Spec Sys2Proof.ArmBase

/-- The state after reset with the instruction cache on, a bus that signals an error on block 0, and a write-back of that block
by a set/way function of the L2, which an invalidation of the instruction cache followed. -/
def waitingOut : State :=
  { State.reset with
    cp15 := { State.reset.cp15 with ctrl := 0x1078 }
    l2Out := [{ line := 0, unk := 0, data := 0, forFetch := true }]
    cfg := { State.reset.cfg with busErrors := [(0, 0x20)] } }

/-- The imprecise abort that pends after an outcome. -/
def pendingAfter : Host.Outcome State Fault Refusal → Option ImpreciseAbort
  | .next t => t.pendingAbort
  | _ => none

theorem pending_lockILine_waitingOut : pendingAfter (exec (.mcrLockILine .al 0) waitingOut) = some .external := by rfl

/-- Refutes O53: the fetch of the lock lets the write-back of its block go to memory first, whose error pends an imprecise abort
that the error of the fetch alone does not. -/
theorem not_instructionCacheFunctions : ¬ Obligations.InstructionCacheFunctions := by
  unfold Obligations.InstructionCacheFunctions
  intro h
  obtain ⟨-, -, -, -, enabled, -⟩ := h .al 0 waitingOut rfl rfl (by decide)
  obtain ⟨-, -, locks⟩ := enabled rfl
  obtain ⟨-, busAborts⟩ := locks rfl (.mcrLockILine .al 0) List.mem_cons_self
  obtain ⟨aborts, -⟩ := busAborts rfl rfl (by decide)
  have pending := congrArg pendingAfter aborts
  rw [pending_lockILine_waitingOut] at pending
  cases pending

end Sys2Proof.Functions

/-!
PROOF. The functions of the L2 cache: a line found after it is allocated, what a clean does with the data, and the outcomes of the
translation (`43_cp15_functions` R785 to R788, R811, R813, R814).
-/
namespace Sys2Proof.Functions
open Sys2Proof Sys2Proof.Machine Sys2Proof.Spec Sys2Proof.ArmBase Sys2Proof.Misaligned

/-- The first result of a search, where there is one result only. -/
theorem findSome?_unique {α β : Type} {f : α → Option β} {r : β} {xs : List α} (all : ∀ x ∈ xs, f x = none ∨ f x = some r)
    {y : α} (mem : y ∈ xs) (found : f y = some r) : xs.findSome? f = some r := by
  obtain ⟨r', found'⟩ := Option.isSome_iff_exists.mp
    (List.findSome?_isSome_iff.mpr ⟨y, mem, Option.isSome_iff_exists.mpr ⟨r, found⟩⟩)
  obtain ⟨x, hx, at_x⟩ := List.exists_of_findSome?_eq_some found'
  obtain no | yes := all x hx
  · rw [no] at at_x
    cases at_x
  · rw [found', ← at_x, yes]

/-! The lines of the L2 -/

/-- What a way of the L2 answers. -/
def l2Probe (s : State) (line : BitVec 31) (w : Nat) : Option (Nat × L2Line) :=
  match tableGet (s.l2Set line * 8 + w) s.l2.lines with
  | some l => if l.pa = line then some (s.l2Set line * 8 + w, l) else none
  | none => none

section
variable {s : State} {line : BitVec 31}

theorem l2Find_eq : s.l2Find line = (List.range 8).findSome? (l2Probe s line) := rfl

theorem l2Find_some {k : Nat} {l : L2Line} (h : s.l2Find line = some (k, l)) : tableGet k s.l2.lines = some l := by
  rw [l2Find_eq] at h
  obtain ⟨w, -, found⟩ := List.exists_of_findSome?_eq_some h
  unfold l2Probe at found
  split at found
  · next held =>
    split at found
    · cases found
      exact held
    · cases found
  · cases found

theorem l2Set_congr {t : State} (h : t.cfg = s.cfg) : t.l2Set line = s.l2Set line := by
  unfold State.l2Set
  rw [h]

/-- A block that was absent is found where its line is put, the other lines of the cache unchanged. -/
theorem l2Find_placed {t : State} {l : L2Line} {w : Nat} (absent : s.l2Find l.pa = none) (cfg : t.cfg = s.cfg) (way : w < 8)
    (placed : tableGet (s.l2Set l.pa * 8 + w) t.l2.lines = some l)
    (others : ∀ j, j ≠ s.l2Set l.pa * 8 + w → tableGet j t.l2.lines = tableGet j s.l2.lines) :
    t.l2Find l.pa = some (s.l2Set l.pa * 8 + w, l) := by
  rw [l2Find_eq] at absent ⊢
  have here : l2Probe t l.pa w = some (s.l2Set l.pa * 8 + w, l) := by
    rw [l2Probe, l2Set_congr cfg, placed]
    exact if_pos rfl
  refine findSome?_unique (fun x hx => ?_) (List.mem_range.mpr way) here
  by_cases same : x = w
  · rw [same]
    exact .inr here
  · refine .inl ?_
    have before : l2Probe s l.pa x = none := List.findSome?_eq_none_iff.mp absent x hx
    rw [l2Probe, l2Set_congr cfg, others _ (by omega)]
    exact before

/-- The first of three choices, each below 8. -/
theorem getD_orElse_lt {a b c : Option Nat} (ha : ∀ w, a = some w → w < 8) (hb : ∀ w, b = some w → w < 8)
    (hc : ∀ w, c = some w → w < 8) : (a <|> b <|> c).getD 0 < 8 := by
  cases a with
  | some w => exact ha w rfl
  | none =>
    cases b with
    | some w => exact hb w rfl
    | none =>
      cases c with
      | some w => exact hc w rfl
      | none => exact Nat.zero_lt_succ 7

/-- The victim is a way of the set. -/
theorem l2Victim_way : ∃ w < 8, s.l2Victim line = s.l2Set line * 8 + w := by
  have small {p : Nat → Bool} (w : Nat) (h : (List.range 8).find? p = some w) : w < 8 :=
    List.mem_range.mp (List.mem_of_find?_eq_some h)
  exact ⟨_, getD_orElse_lt small small small, rfl⟩

end

/-! What the bus leaves of the L2 -/

theorem busPut_l2 (s : State) (line : BitVec 31) (mask unk : BitVec 32) (d : BitVec 256) :
    (s.busPut line mask unk d).l2 = s.l2 := by
  unfold State.busPut State.look
  split
  · dsimp only
    split
    · rfl
    · rfl
  · unfold State.logBusError State.logError
    split
    · rfl
    · rfl

theorem releaseOut_l2 (s : State) (line : BitVec 31) : (s.releaseOut line).l2 = s.l2 := by
  have fold : ∀ (es : List OutEntry) (t : State), (es.foldl State.issueOut t).l2 = t.l2 := by
    intro es
    induction es with
    | nil => exact fun _ => rfl
    | cons e es ih => exact fun t => (ih _).trans (busPut_l2 ..)
  exact fold _ _

theorem busWriteLine_l2 (s : State) (line : BitVec 31) (mask unk : BitVec 32) (d : BitVec 256) :
    (s.busWriteLine line mask unk d).l2 = s.l2 := (busPut_l2 ..).trans (releaseOut_l2 ..)

theorem logError_l2 (s : State) (bits : BitVec 8) (a : Option (BitVec 36)) : (s.logError bits a).l2 = s.l2 := by
  unfold State.logError
  split
  · rfl
  · rfl

/-- Looking at the errors of a line leaves the other lines. -/
theorem l2Error_others (s : State) (k : Nat) (l : L2Line) {j : Nat} (other : j ≠ k) :
    tableGet j (s.l2Error k l).1.l2.lines = tableGet j s.l2.lines := by
  have corrected : tableGet j (s.l2Correct k l).l2.lines = tableGet j s.l2.lines := by
    unfold State.l2Correct
    split
    · exact tableGet_tableSet_other _ _ other
    · rfl
  unfold State.l2Error
  dsimp only
  split
  · exact corrected
  · rw [logError_l2]
    exact corrected

theorem l2WriteBack_others (s : State) (k : Nat) (l : L2Line) {j : Nat} (other : j ≠ k) :
    tableGet j (s.l2WriteBack k l).l2.lines = tableGet j s.l2.lines := by
  have looked := l2Error_others s k l other
  unfold State.l2WriteBack
  dsimp only
  split
  · rw [busWriteLine_l2]
    exact looked
  · exact looked

/-- A block that was absent is found once its line is allocated. -/
theorem l2Find_allocate {s : State} {l : L2Line} (absent : s.l2Find l.pa = none) :
    ∃ k, (s.l2Allocate l).l2Find l.pa = some (k, l) := by
  obtain ⟨w, way, victim⟩ := l2Victim_way (s := s) (line := l.pa)
  refine ⟨_, l2Find_placed absent (memSide_l2Allocate s l).cfg way ?_ fun j other => ?_⟩
  · unfold State.l2Allocate
    rw [victim]
    exact tableGet_tableSet_self ..
  · unfold State.l2Allocate
    rw [victim]
    refine (tableGet_tableSet_other _ _ other).trans ?_
    split
    · split
      · exact l2WriteBack_others _ _ _ other
      · rfl
    · rfl

/-- A line without errors is looked at without effect. -/
theorem l2Error_none {s : State} {k : Nat} {l : L2Line} (good : l.err = L2Error.none) : s.l2Error k l = (s, true) := by
  unfold State.l2Error State.l2Correct
  rw [good]
  rfl

section
variable {s : State} {send : OutEntry → State → State} {k : Nat} {l : L2Line} (held : tableGet k s.l2.lines = some l)
include held

theorem l2CleanBy_clean (clean : l.dirty = false) : s.l2CleanBy send k = s := by
  unfold State.l2CleanBy
  rw [held]
  exact if_neg (ne_true_of_eq_false clean)

theorem l2CleanBy_dirty (dirty : l.dirty = true) (good : l.err = L2Error.none) : State.l2CleanBy send k s =
    send { line := l.pa, unk := l.unk, data := l.data } (s.l2Put k { l.cleaned with err := L2Error.none }) := by
  unfold State.l2CleanBy
  rw [held]
  dsimp only
  rw [if_pos dirty, l2Error_none good]
  rfl

end

theorem cleaned_dirty (l : L2Line) : l.cleaned.dirty = false := by
  unfold L2Line.cleaned L2Line.dirty
  cases l.st with
  | modified => rfl
  | owned => rfl
  | exclusive => rfl
  | shared => rfl

end Sys2Proof.Functions

/-!
PROOF. The functions of the L2 cache, each with the outcomes of its translation and of the line it names (`43_cp15_functions` R785
to R788, R811, R813, R814).
-/
namespace Sys2Proof.Functions
open Sys2Proof Sys2Proof.Machine Sys2Proof.Spec Sys2Proof.ArmBase Sys2Proof.Misaligned

/-! The gate -/

theorem l2Function_absent {f : Exec Unit} {s : State} (h : s.cfg.l2Size = .absent) : l2Function f s = .ok () s := by
  rw [l2Function, bind_ok (get_ok s)]
  exact congrFun (if_pos h) s

theorem l2Function_on {f : Exec Unit} {s : State} (present : s.cfg.l2Size ≠ .absent) (on : s.ctrlBit 26 = true) :
    l2Function f s = f s := by
  rw [l2Function, bind_ok (get_ok s)]
  exact (congrFun (if_neg present) s).trans (bind_ok (require_true on _ s))

/-- An aborted translation leaves the errors of its walk. -/
theorem l2Translate_abort {v : Word} {s s1 : State} {fs : BitVec 5} {d : Option (BitVec 4)} {f : Option Word}
    (h : l2Translate v s = .error (.abort fs d f) s1) : ∃ s', s1 = s.onlyErrors s' := by
  rw [l2Translate, bind_ok (get_ok s)] at h
  cases on : s.mmuOn with
  | false =>
    rw [on] at h
    cases h
  | true =>
    rw [on] at h
    obtain ⟨s', -, left⟩ := undoAbort_abort h
    exact ⟨s', left⟩

section
variable {s s1 : State} {v : Word} (present : s.cfg.l2Size ≠ .absent) (on : s.ctrlBit 26 = true)
include present on

theorem l2LineFunction_stops {f : Nat → State → State} {x : Stop} (stops : l2Translate v s = .error x s1) :
    l2LineFunction f v s = .error x s1 := by
  rw [l2LineFunction, l2Function_on present on, bind_error stops]

theorem l2Lock_stops {fetch : Bool} {x : Stop} (stops : l2Translate v s = .error x s1) : l2Lock fetch v s = .error x s1 := by
  rw [l2Lock, l2Function_on present on, bind_error stops]

variable {m : Mapped} (mapped : l2Translate v s = .ok m s1)
include mapped

theorem l2LineFunction_uncached {f : Nat → State → State} (uncached : m.attrs.l2 = false) :
    l2LineFunction f v s = .error (.refuse .maintenance) s1 := by
  rw [l2LineFunction, l2Function_on present on, bind_ok mapped, bind_error (require_false uncached _ s1)]

theorem l2Lock_uncached {fetch : Bool} (uncached : m.attrs.l2 = false) :
    l2Lock fetch v s = .error (.refuse .maintenance) s1 := by
  rw [l2Lock, l2Function_on present on, bind_ok mapped, bind_error (require_false uncached _ s1)]

variable (cached : m.attrs.l2 = true) (buffers : s1.buffers = [])
include cached buffers

section
variable {f : Nat → State → State} (l2Out : s1.l2Out = [])
include l2Out

theorem l2LineFunction_found {k : Nat} {l : L2Line} (found : s1.l2Find (blockOf m.pa) = some (k, l)) :
    l2LineFunction f v s = .ok () (f k s1) := by
  rw [l2LineFunction, l2Function_on present on, bind_ok mapped, bind_ok (require_true cached _ s1)]
  refine (modify_ok _ s1).trans (congrArg _ ?_)
  dsimp only
  rw [releaseLine_empty _ buffers, releaseOut_empty _ l2Out, found]

theorem l2LineFunction_absent {f : Nat → State → State} (absent : s1.l2Find (blockOf m.pa) = none) :
    l2LineFunction f v s = .ok () s1 := by
  rw [l2LineFunction, l2Function_on present on, bind_ok mapped, bind_ok (require_true cached _ s1)]
  refine (modify_ok _ s1).trans (congrArg _ ?_)
  dsimp only
  rw [releaseLine_empty _ buffers, releaseOut_empty _ l2Out, absent]

end

/-- A lock, once the translation is done. -/
theorem l2Lock_eq {fetch : Bool} : l2Lock fetch v s = (do
    require (!s1.l2Full (blockOf m.pa)) .maintenance
    match s1.l2Find (blockOf m.pa) with
    | some (k, l) => set ((s1.l2Put k { l with locked := true }).l2Touch k)
    | none =>
      if fetch then
        match s1.busReadLine (lineBase (blockOf m.pa)) with
        | (some d, s2) => set (s2.l2Allocate (lockedLine (blockOf m.pa) { data := d, unk := 0 }))
        | (none, s2) => set (s2.pend .external)
      else set (s1.l2Allocate (lockedLine (blockOf m.pa) { data := 0, unk := wholeLine })) : Exec Unit) s1 := by
  rw [l2Lock, l2Function_on present on, bind_ok mapped, bind_ok (require_true cached _ s1)]
  refine (bind_ok (modify_ok _ s1)).trans ?_
  rw [releaseLine_empty _ buffers]
  exact bind_ok (get_ok s1)

theorem l2Lock_full {fetch : Bool} (full : s1.l2Full (blockOf m.pa) = true) :
    l2Lock fetch v s = .error (.refuse .maintenance) s1 := by
  rw [l2Lock_eq present on mapped cached buffers, bind_error (require_false (by rw [full]; rfl) _ s1)]

variable (free : s1.l2Full (blockOf m.pa) = false)
include free

theorem l2Lock_hit {fetch : Bool} {k : Nat} {l : L2Line} (found : s1.l2Find (blockOf m.pa) = some (k, l)) :
    l2Lock fetch v s = .ok () ((s1.l2Put k { l with locked := true }).l2Touch k) := by
  rw [l2Lock_eq present on mapped cached buffers, bind_ok (require_true (by rw [free]; rfl) _ s1), found]
  rfl

variable (absent : s1.l2Find (blockOf m.pa) = none)
include absent

theorem l2Lock_fetches (answers : s1.cfg.busErrors = []) : ∃ d, l2Lock true v s =
    .ok () (s1.l2Allocate (lockedLine (blockOf m.pa) { data := d, unk := 0 })) := by
  refine ⟨memLine s1.mem (blockOf (lineBase (blockOf m.pa))), ?_⟩
  rw [l2Lock_eq present on mapped cached buffers, bind_ok (require_true (by rw [free]; rfl) _ s1), absent, if_pos rfl,
    Translating.busReadLine_ok answers]
  rfl

theorem l2Lock_allocates : l2Lock false v s =
    .ok () (s1.l2Allocate (lockedLine (blockOf m.pa) { data := 0, unk := wholeLine })) := by
  rw [l2Lock_eq present on mapped cached buffers, bind_ok (require_true (by rw [free]; rfl) _ s1), absent,
    if_neg Bool.false_ne_true]
  rfl

end

section
variable {s : State} {v : Word} {k : Nat} {f : Nat → State → State} (present : s.cfg.l2Size ≠ .absent) (on : s.ctrlBit 26 = true)
  (names : s.l2SetWay v = some k)
include present on names

theorem l2SetWayFunction_spares (spared : tableGet k s.l2.lines = none ∨
    ∃ l, tableGet k s.l2.lines = some l ∧ l.locked = true) : l2SetWayFunction f v s = .ok () s := by
  rw [l2SetWayFunction, l2Function_on present on, bind_ok (get_ok s), names]
  dsimp only
  obtain empty | ⟨l, held, locked⟩ := spared
  · rw [empty]
    rfl
  · rw [held]
    dsimp only
    rw [locked]
    rfl

theorem l2SetWayFunction_ok {l : L2Line} (held : tableGet k s.l2.lines = some l) (unlocked : l.locked = false) :
    l2SetWayFunction f v s = .ok () (f k s) := by
  rw [l2SetWayFunction, l2Function_on present on, bind_ok (get_ok s), names]
  dsimp only
  rw [held]
  dsimp only
  rw [unlocked]
  rfl

end

/-! What reaches memory -/

/-- Known bytes reach memory on a bus that answers. -/
theorem busPut_ok {s : State} (answers : s.cfg.busErrors = []) (line : BitVec 31) (mask : BitVec 32) (d : BitVec 256) :
    s.busPut line mask 0 d = { s with mem := memWriteLine s.mem line mask d } := by
  rw [State.busPut, Translating.busError_none answers, if_pos rfl, look_known s _ BitVec.and_zero]

theorem l2Clean_dirty {s : State} {k : Nat} {l : L2Line} (held : tableGet k s.l2.lines = some l) (dirty : l.dirty = true)
    (good : l.err = L2Error.none) (known : l.unk = 0) (answers : s.cfg.busErrors = []) (l2Out : s.l2Out = []) :
    s.l2Clean k = { s.l2Put k { l.cleaned with err := L2Error.none } with
      mem := memWriteLine s.mem l.pa 0xFFFFFFFF l.data } := by
  refine (l2CleanBy_dirty held dirty good).trans ?_
  dsimp only
  rw [State.busWriteLine, releaseOut_empty (s := s.l2Put k _) _ l2Out, known]
  exact busPut_ok (s := s.l2Put k _) answers _ _ _

/-- What a clean by set and way puts on its way. -/
def outOf (s : State) (l : L2Line) : List OutEntry :=
  if l.dirty then s.l2Out ++ [{ line := l.pa, unk := l.unk, data := l.data }] else s.l2Out

theorem l2CleanOut_held {s : State} {k : Nat} {l : L2Line} (held : tableGet k s.l2.lines = some l)
    (good : l.dirty = true → l.err = L2Error.none) :
    (s.l2CleanOut k).l2Out = outOf s l ∧ (s.l2CleanOut k).mem = s.mem ∧ MemSide s (s.l2CleanOut k) ∧
      ∃ l', tableGet k (s.l2CleanOut k).l2.lines = some l' ∧ l'.dirty = false ∧ l'.data = l.data ∧ l'.unk = l.unk := by
  unfold State.l2CleanOut outOf
  cases dirty : l.dirty with
  | false =>
    rw [l2CleanBy_clean held dirty]
    exact ⟨rfl, rfl, MemSide.refl s, l, held, dirty, rfl, rfl⟩
  | true =>
    rw [l2CleanBy_dirty held dirty (good dirty)]
    exact ⟨rfl, rfl, (memSide_l2Put s _ _).trans (memSide_l2Out _ _), _, tableGet_tableSet_self .., cleaned_dirty l, rfl, rfl⟩

/-- Settles O57: no L2; then each outcome of the translation, of the lookup and of the set and way; then the barrier. -/
theorem levelTwoFunctions : Obligations.LevelTwoFunctions := by
  unfold Obligations.LevelTwoFunctions
  intro cond rd s hc priv hd v
  have runs {i : Instr} {f : Word → Exec Unit} (h : exec i s = cp15Function cond rd f s) := exec_function hc hd priv h
  have inv := runs (i := .mcrInvL2Line cond rd) (f := l2LineFunction fun k s => s.l2Drop k) rfl
  have clean := runs (i := .mcrCleanL2LineMva cond rd) (f := l2LineFunction State.l2Clean) rfl
  have cleanSet := runs (i := .mcrCleanL2LineSetWay cond rd) (f := l2SetWayFunction State.l2CleanOut) rfl
  have cleanInv := runs (i := .mcrCleanInvL2LineSetWay cond rd) (f := l2SetWayFunction fun k s => (s.l2CleanOut k).l2Drop k) rfl
  have lock := runs (i := .mcrLockL2Line cond rd) (f := l2Lock true) rfl
  have unlock := runs (i := .mcrUnlockL2 cond rd) (f := fun _ => l2Unlock) rfl
  have alloc := runs (i := .mcrAllocLockL2Line cond rd) (f := l2Lock false) rfl
  refine ⟨fun absent => ?absent, fun present on => ⟨?unlock, fun fs d f s1 aborts => ?aborts, fun m s1 mapped =>
    ⟨fun uncached => ?uncached, fun cached buffers l2Out => ⟨fun miss => ⟨?_, ?_, fun free answers => ⟨?_, ?_⟩⟩,
      fun full => ?full, fun k l found => ⟨?_, ?_, ?_, ?_⟩⟩⟩, fun k names => ⟨fun spared => ?spared, ?setWay⟩⟩, ?barrier⟩
  case absent =>
    simp only [List.forall_mem_cons, List.not_mem_nil, false_implies, implies_true, and_true]
    have nothing {f : Exec Unit} := l2Function_absent (f := f) absent
    exact ⟨effect_of_ok inv nothing rfl, effect_of_ok clean nothing rfl, effect_of_ok cleanSet nothing rfl,
      effect_of_ok cleanInv nothing rfl, effect_of_ok lock nothing rfl, effect_of_ok unlock nothing rfl,
      effect_of_ok alloc nothing rfl⟩
  case unlock => exact effect_of_ok unlock ((l2Function_on present on).trans (modify_ok _ s)) rfl
  case aborts =>
    simp only [List.forall_mem_cons, List.not_mem_nil, false_implies, implies_true, and_true]
    obtain ⟨s', rfl⟩ := l2Translate_abort aborts
    exact ⟨⟨abort_of_error inv (l2LineFunction_stops present on aborts), abort_of_error clean (l2LineFunction_stops present on aborts),
      abort_of_error lock (l2Lock_stops present on aborts), abort_of_error alloc (l2Lock_stops present on aborts)⟩,
      rfl, rfl, rfl, rfl, rfl⟩
  case uncached =>
    simp only [List.forall_mem_cons, List.not_mem_nil, false_implies, implies_true, and_true]
    exact ⟨refused_of_error inv (l2LineFunction_uncached present on mapped uncached),
      refused_of_error clean (l2LineFunction_uncached present on mapped uncached),
      refused_of_error lock (l2Lock_uncached present on mapped uncached),
      refused_of_error alloc (l2Lock_uncached present on mapped uncached)⟩
  case full =>
    simp only [List.forall_mem_cons, List.not_mem_nil, false_implies, implies_true, and_true]
    exact ⟨refused_of_error lock (l2Lock_full present on mapped cached buffers full),
      refused_of_error alloc (l2Lock_full present on mapped cached buffers full)⟩
  case spared =>
    exact ⟨effect_of_ok cleanSet (l2SetWayFunction_spares present on names spared) rfl,
      effect_of_ok cleanInv (l2SetWayFunction_spares present on names spared) rfl⟩
  case setWay =>
    intro l held unlocked good out
    obtain ⟨sent, mem, side, cleaned⟩ := l2CleanOut_held held good
    exact ⟨⟨_, next_of_ok cleanSet (l2SetWayFunction_ok present on names held unlocked), quiet_of_side side, sent, mem, cleaned⟩,
      ⟨_, next_of_ok cleanInv (l2SetWayFunction_ok present on names held unlocked),
        quiet_of_side (side.trans (memSide_l2Drop _ k)), sent, mem, tableGet_tableErase_self ..⟩⟩
  case barrier =>
    intro buffers answers e waits known
    have barrier := exec_userFunction (i := .mcrDataWriteBarrier cond rd) (f := fun _ => modify State.drainBuffers) hc hd rfl
    have drained : s.drainBuffers = { s with l2Out := [], mem := memWriteLine s.mem e.line 0xFFFFFFFF e.data } := by
      unfold State.drainBuffers
      rw [waits, List.foldl_cons, List.foldl_nil, State.issueOut, known, busPut_ok (s := { s with l2Out := [] }) answers]
      obtain ⟨⟩ := s
      cases buffers
      rfl
    refine ⟨_, next_of_ok barrier ((modify_ok _ s).trans (congrArg _ drained)), ?_, rfl, rfl⟩
    exact ⟨rfl, rfl, rfl, rfl, rfl, rfl⟩
  all_goals have side : MemSide s s1 := (side_l2Translate v).ok mapped
  case refine_1 => exact effect_of_side inv (l2LineFunction_absent present on mapped cached buffers l2Out miss) side
  case refine_2 => exact effect_of_side clean (l2LineFunction_absent present on mapped cached buffers l2Out miss) side
  case refine_3 =>
    obtain ⟨d, ok⟩ := l2Lock_fetches present on mapped cached buffers free miss (side.cfg ▸ answers)
    obtain ⟨k, found⟩ := l2Find_allocate (l := lockedLine (blockOf m.pa) { data := d, unk := 0 }) miss
    exact ⟨_, next_of_ok lock ok, quiet_of_side (side.trans (memSide_l2Allocate ..)), k, _, found, rfl, rfl⟩
  case refine_4 =>
    obtain ⟨k, found⟩ := l2Find_allocate (l := lockedLine (blockOf m.pa) { data := 0, unk := wholeLine }) miss
    exact ⟨_, next_of_ok alloc (l2Lock_allocates present on mapped cached buffers free miss),
      quiet_of_side (side.trans (memSide_l2Allocate ..)), k, _, found, rfl, rfl⟩
  case refine_5 =>
    exact effect_of_side inv (l2LineFunction_found present on mapped cached buffers l2Out found)
      (side.trans (memSide_l2Drop s1 k))
  case refine_6 =>
    intro untouched
    have ok := l2LineFunction_found (f := State.l2Clean) present on mapped cached buffers l2Out found
    exact effect_of_side clean (ok.trans (congrArg _ (l2CleanBy_clean (l2Find_some found) untouched))) side
  case refine_7 =>
    intro dirty good known answers
    have ok := l2LineFunction_found (f := State.l2Clean) present on mapped cached buffers l2Out found
    have cleaned := l2Clean_dirty (l2Find_some found) dirty good known (side.cfg ▸ answers) l2Out
    have quiet := quiet_of_side (side.trans (memSide_l2Put s1 k { l.cleaned with err := L2Error.none }))
    exact ⟨_, next_of_ok clean (ok.trans (congrArg _ cleaned)), { quiet with }, rfl, _, tableGet_tableSet_self ..,
      cleaned_dirty l, rfl⟩
  case refine_8 =>
    intro free
    have ok {fetch : Bool} := l2Lock_hit (fetch := fetch) present on mapped cached buffers free found
    have quiet := quiet_of_side (side.trans ((memSide_l2Put s1 k { l with locked := true }).trans (memSide_l2Touch _ k)))
    simp only [List.forall_mem_cons, List.not_mem_nil, false_implies, implies_true, and_true]
    exact ⟨⟨_, next_of_ok lock ok, quiet, rfl, rfl⟩, ⟨_, next_of_ok alloc ok, quiet, rfl, rfl⟩⟩

end Sys2Proof.Functions

/-!
PROOF. What moves beyond the L1 data cache and its buffers: the bus, the L2 and the table walks leave the data cache, the stores
that wait, and an empty list of write-backs as they are (`21_mmu` R310, `22_caches` R400 to R410).
-/
namespace Sys2Proof.Functions
open Sys2Proof Sys2Proof.Machine Sys2Proof.Spec Sys2Proof.ArmBase

/-- The data cache and the stores that wait are the same, and no write-back of the L2 waits where none waited. -/
structure Beyond (s t : State) : Prop where
  dcache : t.dcache = s.dcache
  buffers : t.buffers = s.buffers
  l2Out : s.l2Out = [] → t.l2Out = []

theorem Beyond.refl (s : State) : Beyond s s := ⟨rfl, rfl, id⟩

theorem Beyond.trans {s t u : State} (h : Beyond s t) (k : Beyond t u) : Beyond s u :=
  ⟨k.dcache.trans h.dcache, k.buffers.trans h.buffers, fun none => k.l2Out (h.l2Out none)⟩

theorem Beyond.foldl {α : Type} {f : State → α → State} (step : ∀ s e, Beyond s (f s e)) (es : List α) (s : State) :
    Beyond s (es.foldl f s) := by
  induction es generalizing s with
  | nil => exact .refl s
  | cons e es ih => exact (step s e).trans (ih _)

/-! The bus -/

theorem beyond_pend (s : State) (a : ImpreciseAbort) : Beyond s (s.pend a) := ⟨rfl, rfl, id⟩

theorem beyond_logError (s : State) (bits : BitVec 8) (a : Option (BitVec 36)) : Beyond s (s.logError bits a) := by
  unfold State.logError
  split
  · exact ⟨rfl, rfl, id⟩
  · exact ⟨rfl, rfl, id⟩

theorem beyond_logBusError (s : State) (bits : BitVec 8) (a : BitVec 36) : Beyond s (s.logBusError bits a) :=
  beyond_logError ..

theorem beyond_look (s : State) (b : Block) : Beyond s (s.look b).2 := by
  unfold State.look
  split
  · exact .refl s
  · exact ⟨rfl, rfl, id⟩

theorem beyond_busReadLine (s : State) (a : BitVec 36) : Beyond s (s.busReadLine a).2 := by
  unfold State.busReadLine
  split
  · exact .refl s
  · exact beyond_logBusError ..

theorem beyond_busPut (s : State) (line : BitVec 31) (mask unk : BitVec 32) (d : BitVec 256) :
    Beyond s (s.busPut line mask unk d) := by
  unfold State.busPut
  split
  · exact { beyond_look s { data := d, unk := mask &&& unk } with }
  · exact (beyond_logBusError ..).trans (beyond_pend ..)

theorem beyond_releaseOut (s : State) (line : BitVec 31) : Beyond s (s.releaseOut line) := by
  have issued := Beyond.foldl (f := State.issueOut) (fun _ _ => beyond_busPut ..) (s.l2Out.filter (·.line == line))
    { s with l2Out := s.l2Out.filter (!(·.line == line) ·) }
  have filtered : Beyond s { s with l2Out := s.l2Out.filter (!(·.line == line) ·) } :=
    ⟨rfl, rfl, fun none => congrArg (List.filter _) none⟩
  exact filtered.trans issued

theorem beyond_busWriteLine (s : State) (line : BitVec 31) (mask unk : BitVec 32) (d : BitVec 256) :
    Beyond s (s.busWriteLine line mask unk d) := (beyond_releaseOut s line).trans (beyond_busPut ..)

/-! The L2 -/

theorem beyond_l2Put (s : State) (k : Nat) (l : L2Line) : Beyond s (s.l2Put k l) := ⟨rfl, rfl, id⟩

theorem beyond_l2Touch (s : State) (k : Nat) : Beyond s (s.l2Touch k) := ⟨rfl, rfl, id⟩

theorem beyond_l2Error (s : State) (k : Nat) (l : L2Line) : Beyond s (s.l2Error k l).1 := by
  have corrected : Beyond s (s.l2Correct k l) := by
    unfold State.l2Correct
    split
    · exact ⟨rfl, rfl, id⟩
    · exact .refl s
  unfold State.l2Error
  dsimp only
  split
  · exact corrected
  · exact corrected.trans (beyond_logError (s.l2Correct k l) l.err.bits none)

theorem beyond_l2Allocate (s : State) (l : L2Line) : Beyond s (s.l2Allocate l) := by
  have written (k : Nat) (old : L2Line) : Beyond s (s.l2WriteBack k old) := by
    unfold State.l2WriteBack
    dsimp only
    split
    · exact (beyond_l2Error ..).trans (beyond_busWriteLine ..)
    · exact (beyond_l2Error ..).trans (beyond_pend ..)
  unfold State.l2Allocate
  refine Beyond.trans ?_ ((beyond_l2Put ..).trans (beyond_l2Touch ..))
  split
  · split
    · exact written ..
    · exact .refl s
  · exact .refl s

theorem beyond_l2Claim (s : State) (l : L2Line) : Beyond s (s.l2Claim l).1 := by
  unfold State.l2Claim
  split
  · exact .refl s
  · exact beyond_logBusError ..

theorem beyond_nextRead (s : State) (a : BitVec 36) (cacheable : Bool) : Beyond s (s.nextRead a cacheable false).2 := by
  have fromBus (b : BitVec 36) := beyond_busReadLine s b
  unfold State.nextRead
  split
  · split
    · next k l _ =>
      have looked := (beyond_l2Touch s k).trans (beyond_l2Error (s.l2Touch k) k l)
      dsimp only
      split
      · exact looked
      · exact looked
    · have read := fromBus (lineBase (blockOf a))
      split
      · next e =>
        rw [e] at read
        exact read.trans (beyond_l2Allocate ..)
      · next e =>
        rw [e] at read
        exact read
  · have read := fromBus a
    split
    · next e =>
      rw [e] at read
      exact read
    · next e =>
      rw [e] at read
      exact read

theorem beyond_nextWrite (s : State) (line : BitVec 31) (cacheable : Bool) (mask unk : BitVec 32) (d : BitVec 256) :
    Beyond s (s.nextWrite line cacheable mask unk d) := by
  have claims {k : Nat} {l : L2Line} (v : State) (before : Beyond s v) (l' : L2Line) :
      Beyond s (if (v.l2Claim l).2 = true then (v.l2Claim l).1.l2Put k l' else (v.l2Claim l).1.pend .external) := by
    have claimed := before.trans (beyond_l2Claim v l)
    split
    · exact claimed.trans (beyond_l2Put ..)
    · exact claimed.trans (beyond_pend ..)
  unfold State.nextWrite
  split
  · split
    · next k l _ =>
      have looked := (beyond_l2Touch s k).trans (beyond_l2Error (s.l2Touch k) k l)
      have pended : Beyond s (if ((s.l2Touch k).l2Error k l).2 then ((s.l2Touch k).l2Error k l).1
          else ((s.l2Touch k).l2Error k l).1.pend .external) := by
        split
        · exact looked
        · exact looked.trans (beyond_pend ..)
      exact claims _ pended _
    · split
      · exact beyond_l2Allocate ..
      · have read := beyond_busReadLine s (lineBase line)
        split
        · next e =>
          rw [e] at read
          exact read.trans (beyond_l2Allocate ..)
        · next e =>
          rw [e] at read
          exact read.trans (beyond_pend ..)
  · exact beyond_busWriteLine ..

/-! Translation -/

/-- An operation whose run from `s` leaves the L1 data cache and its buffers. -/
def BeyondAt {α : Type} (m : Exec α) (s : State) : Prop := Beyond s (leaves (m s))

section
variable {α β : Type} {s t : State}

theorem BeyondAt.error {m : Exec α} (h : BeyondAt m s) {e : Stop} (stops : m s = .error e t) : Beyond s t := by
  rwa [BeyondAt, stops] at h

theorem beyondAt_bind {m : Exec α} {k : α → Exec β} (hm : BeyondAt m s) (hk : ∀ a t, BeyondAt (k a) t) :
    BeyondAt (m >>= k) s := by
  cases run : m s with
  | ok a t =>
    rw [BeyondAt, run] at hm
    rw [BeyondAt, bind_ok run]
    exact hm.trans (hk a t)
  | error e t =>
    rw [BeyondAt, run] at hm
    rwa [BeyondAt, Misaligned.bind_error run]

theorem beyondAt_get {k : State → Exec β} (h : BeyondAt (k s) s) : BeyondAt (get >>= k) s := h

theorem beyondAt_set {k : Unit → Exec β} (h : Beyond s t) (hk : BeyondAt (k ()) t) : BeyondAt ((set t : Exec Unit) >>= k) s :=
  h.trans hk

theorem beyondAt_pure (a : α) (s : State) : BeyondAt (pure a : Exec α) s := .refl s

theorem beyondAt_throw (e : Stop) (s : State) : BeyondAt (throw e : Exec α) s := .refl s

theorem beyondAt_require (c : Bool) (r : Refusal) (s : State) : BeyondAt (require c r) s := by
  cases c with
  | true => exact .refl s
  | false => exact .refl s

theorem beyondAt_require_bind {c : Bool} {r : Refusal} {k : Unit → Exec β} (h : BeyondAt (k ()) s) :
    BeyondAt (require c r >>= k) s := by
  cases c with
  | true => exact h
  | false => exact .refl s

end

theorem beyond_walkRead (s : State) (a : BitVec 36) : Beyond s (s.walkRead a).2 := by
  have read := beyond_nextRead s a s.walkCached
  unfold State.walkRead
  split
  · next e =>
    rw [e] at read
    exact read.trans (beyond_look ..)
  · next e =>
    rw [e] at read
    exact read

theorem beyondAt_tableWalk (mva : Word) (s : State) : BeyondAt (tableWalk mva) s := by
  unfold tableWalk
  refine beyondAt_get (beyondAt_set (beyond_walkRead ..) ?_)
  split
  · exact beyondAt_throw ..
  · split
    · exact beyondAt_throw ..
    · split
      · split
        · exact beyondAt_bind (beyondAt_require ..) fun _ _ => beyondAt_pure ..
        · exact beyondAt_throw ..
      · refine beyondAt_require_bind (beyondAt_set (beyond_walkRead ..) ?_)
        split
        · exact beyondAt_throw ..
        · split
          · exact beyondAt_throw ..
          · split
            · exact beyondAt_pure ..
            · exact beyondAt_throw ..

theorem beyondAt_tlbEntry (mva : Word) (kind : Access) (s : State) : BeyondAt (tlbEntry mva kind) s := by
  unfold tlbEntry
  refine beyondAt_get ?_
  split
  · exact beyondAt_pure ..
  · refine beyondAt_bind (beyondAt_tableWalk ..) fun e t => beyondAt_bind ?_ fun _ _ => beyondAt_pure ..
    show Beyond t (if kind = .fetch then _ else _)
    split
    · exact ⟨rfl, rfl, id⟩
    · exact ⟨rfl, rfl, id⟩

theorem beyondAt_checkAccess (e : TlbEntry) (mva : Word) (kind : Access) (priv : Bool) (s : State) :
    BeyondAt (checkAccess e mva kind priv) s := by
  unfold checkAccess
  refine beyondAt_get ?_
  dsimp only
  split
  · exact beyondAt_throw ..
  · split
    · exact beyondAt_throw ..
    · split
      · split
        · exact beyondAt_throw ..
        · exact beyondAt_pure ..
        · exact beyondAt_throw ..
      · exact beyondAt_pure ..

theorem beyondAt_entryAttrs (e : TlbEntry) (s : State) : BeyondAt (entryAttrs e) s := by
  unfold entryAttrs
  refine beyondAt_get (beyondAt_require_bind ?_)
  split
  · exact beyondAt_pure ..
  · exact beyondAt_throw ..

/-- A translation leaves the data cache and the buffers. -/
theorem beyondAt_translate (mva : Word) (kind : Access) (priv : Bool) (s : State) :
    BeyondAt (Machine.translate mva kind priv) s := by
  unfold Machine.translate
  refine beyondAt_get ?_
  split
  · exact beyondAt_bind (beyondAt_tlbEntry ..) fun _ _ => beyondAt_bind (beyondAt_checkAccess ..) fun _ _ =>
      beyondAt_bind (beyondAt_entryAttrs ..) fun _ _ => beyondAt_pure ..
  · exact beyondAt_pure ..

/-! The memory buffers -/

theorem beyond_issue (s : State) (e : BufEntry) : Beyond s (s.issue e) := beyond_nextWrite ..

theorem releaseLine_dcache (s : State) (line : BitVec 31) : (s.releaseLine line).dcache = s.dcache :=
  (Beyond.foldl beyond_issue _ _).dcache

theorem settleBuffers_dcache (s : State) : s.settleBuffers.dcache = s.dcache := by
  have settled : ∀ t : State, t.dcache = s.dcache → (if 12 < t.buffers.length then
      match t.buffers with | e :: _ => t.releaseLine e.line | [] => t else t).dcache = s.dcache := by
    intro t same
    split
    · split
      · exact (releaseLine_dcache ..).trans same
      · exact same
    · exact same
  unfold State.settleBuffers
  refine settled _ ?_
  split
  · split
    · exact releaseLine_dcache ..
    · rfl
  · rfl

theorem bufferStore_dcache (s : State) (e : BufEntry) : (s.bufferStore e).dcache = s.dcache := by
  unfold State.bufferStore
  split
  · rfl
  · exact settleBuffers_dcache _

theorem drained_beyond (s : State) : s.drainBuffers.buffers = [] ∧ s.drainBuffers.l2Out = [] := by
  have sent := Beyond.foldl (f := State.issueOut) (fun _ _ => beyond_busPut ..) s.l2Out { s with l2Out := [] }
  have stored (t : State) := Beyond.foldl beyond_issue t.buffers { t with buffers := [] }
  exact ⟨(stored _).buffers, (stored _).l2Out (sent.l2Out rfl)⟩

end Sys2Proof.Functions

/-!
PROOF. The functions User mode may use: Prefetch Flush, the barriers and Line Allocate (`43_cp15_functions` R789 to R792).
-/
namespace Sys2Proof.Functions
open Sys2Proof Sys2Proof.Machine Sys2Proof.Spec Sys2Proof.ArmBase Sys2Proof.Misaligned

/-! The barriers -/

theorem foldl_issueOut {s : State} (answers : s.cfg.busErrors = []) {es : List OutEntry} (known : ∀ e ∈ es, e.unk = 0) :
    es.foldl State.issueOut s =
      { s with mem := es.foldl (fun m e => memWriteLine m e.line 0xFFFFFFFF e.data) s.mem } := by
  induction es generalizing s with
  | nil => rfl
  | cons e es ih =>
    rw [List.forall_mem_cons] at known
    have one : s.issueOut e = { s with mem := memWriteLine s.mem e.line 0xFFFFFFFF e.data } := by
      rw [State.issueOut, known.1]
      exact busPut_ok answers ..
    rw [List.foldl_cons, one]
    exact ih (by exact answers) known.2

theorem foldl_issue {s : State} (answers : s.cfg.busErrors = []) (l2Out : s.l2Out = []) {es : List BufEntry}
    (known : ∀ e ∈ es, e.unk = 0 ∧ e.l2 = false) :
    es.foldl State.issue s = { s with mem := es.foldl (fun m e => memWriteLine m e.line e.mask e.data) s.mem } := by
  induction es generalizing s with
  | nil => rfl
  | cons e es ih =>
    rw [List.forall_mem_cons] at known
    obtain ⟨⟨unk, l2⟩, rest⟩ := known
    have one : s.issue e = { s with mem := memWriteLine s.mem e.line e.mask e.data } := by
      rw [State.issue, State.nextWrite, l2, Bool.false_and, if_neg Bool.false_ne_true, State.busWriteLine,
        releaseOut_empty _ l2Out, unk]
      exact busPut_ok answers ..
    rw [List.foldl_cons, one]
    exact ih (by exact answers) (by exact l2Out) rest

theorem drainBuffers_mem {s : State} (answers : s.cfg.busErrors = []) (out : ∀ e ∈ s.l2Out, e.unk = 0)
    (stores : ∀ e ∈ s.buffers, e.unk = 0 ∧ e.l2 = false) : s.drainBuffers.mem =
      s.buffers.foldl (fun m e => memWriteLine m e.line e.mask e.data)
        (s.l2Out.foldl (fun m e => memWriteLine m e.line 0xFFFFFFFF e.data) s.mem) := by
  unfold State.drainBuffers
  rw [foldl_issueOut (s := { s with l2Out := [] }) answers out]
  dsimp only
  rw [foldl_issue (by exact answers) rfl stores]

/-! Line Allocate -/

/-- Line Allocate, once the translation is done. -/
def allocation (m : Mapped) (mva : Word) : Exec Unit := do
  let s ← get
  if s.fills m && (s.dFind mva).isNone then
    require (s.lockable m) .maintenance
    modify fun s =>
      let s1 := if m.attrs.shared then s.spoilNext (blockOf m.pa) else s
      s1.dAllocate mva (freshLine mva m { data := 0, unk := wholeLine }) m.attrs.llr
  else if s.mmuOn && !s.ctrlBit 2 then modify fun s => s.allocateDisabled mva
  else pure ()

/-- The translation of Line Allocate, which the breakpoint unit sees as a store of 32 bytes. -/
def watching (tr : Exec Mapped) (a : Word) : Exec Mapped := fun s0 =>
  match tr s0 with
  | .ok m s1 => .ok m (s1.watch true a 32)
  | .error e s1 => .error e s1

theorem watching_error {tr : Exec Mapped} {s s1 : State} {x : Stop} (h : tr s = .error x s1) (a : Word) :
    watching tr a s = .error x s1 := by
  rw [watching, h]

theorem watching_ok {tr : Exec Mapped} {s s1 : State} {m : Mapped} (h : tr s = .ok m s1) (a : Word) :
    watching tr a s = .ok m (s1.watch true a 32) := by
  rw [watching, h]

section
variable {s s1 : State} {va : Word}

theorem lineAllocate_abort {x : Stop} (stops : Machine.translate (s.pidRemap va) .write s.privileged s = .error x s1) :
    lineAllocate va s = .error x s1 := by
  rw [lineAllocate, bind_ok (get_ok s)]
  exact bind_error (watching_error stops (lineAddress (s.pidRemap va)))

theorem watch_line (off : s1.debugOn = false) (a : Word) : s1.watch true a 32 = s1 := by
  rw [watch_off true a 32 off, State.accessed]
  obtain ⟨⟩ := s1
  simp

variable {m : Mapped} (mapped : Machine.translate (s.pidRemap va) .write s.privileged s = .ok m s1) (off : s.debugOn = false)
include mapped off

theorem lineAllocate_ok : lineAllocate va s = allocation m (s.pidRemap va &&& ~~~31) s1 := by
  have side : MemSide s s1 := (side_translate _ _ _).ok mapped
  have off1 : s1.debugOn = false := by
    rw [State.debugOn, State.dcsrBit, side.dbg]
    exact off
  rw [lineAllocate, bind_ok (get_ok s)]
  have watched := watching_ok mapped (lineAddress (s.pidRemap va))
  rw [watch_line off1] at watched
  exact (bind_ok watched).trans rfl

end

section
variable {s : State} {m : Mapped} {mva : Word}

/-- No line is allocated with the cache off or of memory that is not cacheable, nor where the cache holds the line. -/
theorem allocation_none (h : (s.dFind mva = none ∧ (m.attrs.dc = false ∨ s.ctrlBit 2 = false)) ∨
    (s.dFind mva ≠ none ∧ s.ctrlBit 2 = true)) : allocation m mva s = .ok () s := by
  obtain ⟨miss, off⟩ | ⟨hit, on⟩ := h
  · have fills : s.fills m = false := by
      rw [State.fills, Bool.and_eq_false_iff]
      exact off.symm
    have unchanged : s.allocateDisabled mva = s := by rw [State.allocateDisabled, miss]
    rw [allocation, bind_ok (get_ok s), fills, miss]
    cases s.mmuOn && !s.ctrlBit 2 with
    | false => rfl
    | true => exact (modify_ok _ s).trans (congrArg _ unchanged)
  · obtain ⟨r, found⟩ := Option.ne_none_iff_exists'.mp hit
    rw [allocation, bind_ok (get_ok s), found, on, Option.isNone_some, Bool.and_false, Bool.not_true, Bool.and_false]
    rfl

theorem allocation_disabled (on : s.mmuOn = true) (off : s.ctrlBit 2 = false) :
    allocation m mva s = .ok () (s.allocateDisabled mva) := by
  have fills : s.fills m = false := by rw [State.fills, off]; rfl
  rw [allocation, bind_ok (get_ok s), fills, on, off]
  rfl

theorem allocation_mmuOff (off : s.mmuOn = false) (uncached : m.attrs.dc = false) : allocation m mva s = .ok () s := by
  have fills : s.fills m = false := by rw [State.fills, uncached, Bool.and_false]
  rw [allocation, bind_ok (get_ok s), fills, off]
  rfl

variable (cached : m.attrs.dc = true) (on : s.ctrlBit 2 = true) (miss : s.dFind mva = none)
include cached on miss

theorem allocation_refused (unlockable : s.lockable m = false) : allocation m mva s = .error (.refuse .maintenance) s := by
  have fills : s.fills m = true := by rw [State.fills, on, cached]; rfl
  rw [allocation, bind_ok (get_ok s), fills, miss, unlockable]
  rfl

theorem allocation_ok (lockable : s.lockable m = true) : allocation m mva s = .ok ()
    ((if m.attrs.shared then s.spoilNext (blockOf m.pa) else s).dAllocate mva
      (freshLine mva m { data := 0, unk := wholeLine }) m.attrs.llr) := by
  have fills : s.fills m = true := by rw [State.fills, on, cached]; rfl
  rw [allocation, bind_ok (get_ok s), fills, miss, lockable]
  rfl

end

/-! A line that was allocated -/

theorem dClean_others (s : State) (k : Nat) {j : Nat} (other : j ≠ k) :
    tableGet j (s.dClean k).dcache.lines = tableGet j s.dcache.lines := by
  unfold State.dClean
  split
  · next l _ =>
    split
    · have put : tableGet j (s.dPut k { l with dirty := false }).dcache.lines = tableGet j s.dcache.lines :=
        tableGet_tableSet_other _ _ other
      unfold State.dWriteBack
      split
      · exact put
      · rw [bufferStore_dcache]
        exact put
    · rfl
  · rfl

theorem l1Index_inj {mva : Word} {w w' : BitVec 2} (h : w ≠ w') : l1Index mva w ≠ l1Index mva w' := by
  intro same
  exact h (BitVec.eq_of_toNat_eq (Nat.add_left_cancel same))

/-- A line that was absent is found where it is put, the other lines of the cache unchanged. -/
theorem dFind_placed {s t : State} {mva : Word} {l : DLine} {w : BitVec 2} (miss : s.dFind mva = none) (tag : l.tag = l1Tag mva)
    (placed : tableGet (l1Index mva w) t.dcache.lines = some l)
    (others : ∀ j, j ≠ l1Index mva w → tableGet j t.dcache.lines = tableGet j s.dcache.lines) :
    t.dFind mva = some (l1Index mva w, w, l) := by
  rw [dFind_eq] at miss ⊢
  have all : ∀ w : BitVec 2, w ∈ ways := by decide
  have here : dProbe t mva w = some (l1Index mva w, w, l) := by
    rw [dProbe, placed]
    exact if_pos tag
  refine findSome?_unique (fun x hx => ?_) (all w) here
  by_cases same : x = w
  · rw [same]
    exact .inr here
  · refine .inl ?_
    have before : dProbe s mva x = none := List.findSome?_eq_none_iff.mp miss x hx
    rw [dProbe, others _ (l1Index_inj same)]
    exact before

/-- A line that was absent is found once it is allocated. -/
theorem dFind_dAllocate {s : State} {mva : Word} {l : DLine} {llr : Bool} (miss : s.dFind mva = none) (tag : l.tag = l1Tag mva) :
    ∃ k w locked, (s.dAllocate mva l llr).dFind mva = some (k, w, { l with locked := locked }) := by
  unfold State.dAllocate
  dsimp only
  generalize (if llr = true then ((0 : BitVec 2), false)
    else if s.cp15.dclock = true then
      match (s.dRepl mva).lockVictim (s.dLocked mva) with | some w => (w, true) | none => (0, false)
    else ((s.dRepl mva).victim (s.dLocked mva), false)) = choice
  refine ⟨_, choice.1, choice.2, dFind_placed miss (by exact tag) (tableGet_tableSet_self ..) fun j other => ?_⟩
  exact (tableGet_tableSet_other _ _ other).trans (dClean_others s _ other)

theorem dFind_congr {s t : State} (same : t.dcache = s.dcache) (mva : Word) : t.dFind mva = s.dFind mva := by
  unfold State.dFind
  rw [same]

theorem memSide_spoilNext (s : State) (line : BitVec 31) : MemSide s (s.spoilNext line) := by
  have released := (memSide_releaseLine s line).trans (memSide_releaseOut _ line)
  have spoiled (u : State) (d : BitVec 256) : MemSide u { u.drawn with mem := memWriteLine u.mem line wholeLine d } :=
    { memSide_drawn u with mem := memWriteLine_wf line wholeLine d }
  unfold State.spoilNext
  dsimp only
  split
  · exact (released.trans (spoiled _ _)).trans (memSide_l2Put ..)
  · exact released.trans (spoiled _ _)

theorem spoilNext_dcache (s : State) (line : BitVec 31) : (s.spoilNext line).dcache = s.dcache := by
  have released : ((s.releaseLine line).releaseOut line).dcache = s.dcache :=
    (beyond_releaseOut ..).dcache.trans (releaseLine_dcache ..)
  unfold State.spoilNext
  dsimp only
  split
  · exact released
  · exact released

/-- The copies beyond are spoilt only of shared memory. -/
theorem spoilt_of_shared (s : State) (shared : Bool) (line : BitVec 31) :
    MemSide s (if shared then s.spoilNext line else s) ∧ (if shared then s.spoilNext line else s).dcache = s.dcache := by
  cases shared with
  | true => exact ⟨memSide_spoilNext .., spoilNext_dcache ..⟩
  | false => exact ⟨.refl s, rfl⟩

/-- The line that stays, or whose bytes only become unpredictable. -/
theorem allocateDisabled_found {s : State} {mva : Word} {k : Nat} {w : BitVec 2} {l : DLine} (found : s.dFind mva = some (k, w, l)) :
    MemSide s (s.allocateDisabled mva) ∧ (s.allocateDisabled mva).mem = s.mem ∧
      ((s.allocateDisabled mva).dcache = s.dcache ∨ (s.allocateDisabled mva).dcache =
        { s.dcache with lines := tableSet k { l with unk := 0xFFFFFFFF } s.dcache.lines }) := by
  rw [State.allocateDisabled, found]
  dsimp only
  split
  · exact ⟨(memSide_spoilLine s k l).trans (memSide_drawn _), rfl, .inr rfl⟩
  · exact ⟨memSide_drawn s, rfl, .inl rfl⟩

/-- Settles O55: the flush, the barriers, and each outcome of the translation of Line Allocate. -/
theorem userFunctions : Obligations.UserFunctions := by
  unfold Obligations.UserFunctions
  intro cond rd s hc hd
  have allocate := exec_userFunction (i := .mcrDLineAllocate cond rd) (f := lineAllocate) hc hd rfl
  refine ⟨?flush, ?barriers, fun fs d f s1 aborts => ?aborts, fun off => ⟨fun mmu => ?mmuOff, fun m s1 mapped =>
    ⟨fun none => ?nothing, fun on disabled k w l found => ?disabled, fun cached on miss =>
      ⟨fun unlockable => ?refused, fun lockable => ?allocated⟩⟩⟩⟩
  case flush =>
    exact effect_of_ok (exec_userFunction (i := .mcrPrefetchFlush cond rd) (f := fun _ => modify State.prefetchFlush) hc hd rfl)
      (modify_ok _ s) rfl
  case barriers =>
    have drains {i : Instr} (h : exec i s = cp15UserFunction cond rd (fun _ => modify State.drainBuffers) s) :
        Effect i s s.drainBuffers ∧ Gives i s fun t => Quiet s t ∧ t.buffers = [] ∧ t.l2Out = [] ∧
          (s.buffers = [] → s.l2Out = [] → { t with pc := s.pc } = s) ∧
          (s.cfg.busErrors = [] → (∀ e ∈ s.l2Out, e.unk = 0) → (∀ e ∈ s.buffers, e.unk = 0 ∧ e.l2 = false) →
            t.mem = s.buffers.foldl (fun m e => memWriteLine m e.line e.mask e.data)
              (s.l2Out.foldl (fun m e => memWriteLine m e.line 0xFFFFFFFF e.data) s.mem)) := by
      have runs := exec_userFunction hc hd h
      have side := memSide_drainBuffers s
      have empty := drained_beyond s
      refine ⟨effect_of_side runs (modify_ok _ s) side, _, next_of_ok runs (modify_ok _ s), quiet_of_side side, empty.1, empty.2,
        fun none waits => ?_, drainBuffers_mem⟩
      rw [drainBuffers_empty none waits]
      rfl
    simp only [List.forall_mem_cons, List.not_mem_nil, false_implies, implies_true, and_true]
    exact ⟨drains rfl, drains rfl⟩
  case aborts =>
    have kept := sameCaches_dataAbort s1 fs d f false
    exact ⟨abort_of_error allocate (lineAllocate_abort aborts),
      kept.dcache.trans (BeyondAt.error (beyondAt_translate ..) aborts).dcache⟩
  case mmuOff =>
    have mapped := translate_off (s.pidRemap (s.regIn s.mode rd)) .write s.privileged mmu
    exact effect_of_ok allocate ((lineAllocate_ok mapped off).trans (allocation_mmuOff mmu rfl)) rfl
  all_goals have side : MemSide s s1 := (side_translate _ _ _).ok mapped
  all_goals have runs := lineAllocate_ok mapped off
  case nothing => exact effect_of_side allocate (runs.trans (allocation_none none)) side
  case disabled =>
    have on1 : s1.mmuOn = true := by
      rw [State.mmuOn, State.ctrlBit, side.cp15]
      exact on
    obtain ⟨quiet, mem, dcache⟩ := allocateDisabled_found found
    exact ⟨_, next_of_ok allocate (runs.trans (allocation_disabled on1 disabled)), quiet_of_side (side.trans quiet), mem, dcache⟩
  case refused => exact refused_of_error allocate (runs.trans (allocation_refused cached on miss unlockable))
  case allocated =>
    obtain ⟨spoilt, dcache⟩ := spoilt_of_shared s1 m.attrs.shared (blockOf m.pa)
    obtain ⟨k, w, locked, found⟩ := dFind_dAllocate (llr := m.attrs.llr)
      (l := freshLine (s.pidRemap (s.regIn s.mode rd) &&& ~~~31) m { data := 0, unk := wholeLine })
      ((dFind_congr dcache _).trans miss) rfl
    exact ⟨_, next_of_ok allocate (runs.trans (allocation_ok cached on miss lockable)),
      quiet_of_side ((side.trans spoilt).trans (memSide_dAllocate ..)), k, w, _, found, rfl, rfl⟩

end Sys2Proof.Functions
